-- ==== Sys2Proof/Word.lean ====
section
/-! DEFINITION. The words of the PK2 model and the sparse map that holds everything the spec numbers. -/

namespace Sys2Proof

/-- One byte. -/
abbrev Byte := BitVec 8
/-- A 32-bit word. -/
abbrev Word := BitVec 32
/-- A 64-bit word. -/
abbrev Dword := BitVec 64

/-- A sparse map from numbers to values, as plain data: (key, value) pairs, keys strictly rising.
An unlisted key has the default value its reader names. -/
abbrev KMap (α : Type) := List (Nat × α)

/-- The registers of one page: 64 bits at each offset that is a multiple of 8; an unlisted register is 0. -/
abbrev Regs := KMap Dword

end Sys2Proof
end

