-- ==== Sys2Proof/Syntax.lean ====
section
/-! DEFINITION. The commands: one constructor of `Instr` per row of spec/opcode_table.json, with its operands.
What the world outside the device decides (data on a bus, a sensor's reading, a hardware fault) is an operand. -/

namespace Sys2Proof

/-- The four engines of a tile (00 Glossary). -/
inductive Engine where
  | m | v | s | d
  deriving DecidableEq, Repr

/-- The masters of 04 R79. -/
inductive Master where
  | host | cpc | debug | shelf
  | oe (second : Bool)
  | bay (b : Fin 64)
  | ingress (group : Fin 64)
  deriving DecidableEq, Repr

/-- What SECDED or parity met on a storage read (17 R367): nothing, one bit corrected, or an uncorrectable error; with the byte offset in the
storage of the word that met it. -/
inductive Ecc where
  | ok
  | corrected (word : Nat)
  | uncorrectable (word : Nat)
  deriving DecidableEq, Repr

/-- One instruction that S issues (08 R167): the tile, the 32-bit word, whether the two lockstep copies differed
(R164), what the storage read of LD.W, ENQS (SECDED) or LD.GC (parity, R175) met, and whether the instruction cache's parity failed on the
fetch (R175). -/
structure SIssue where
  tile    : Fin 1200
  word    : Word
  diverge : Bool
  ecc     : Ecc
  parity  : Bool
  deriving DecidableEq, Repr

/-- Symbols in error of one burst (14 R303): the line and the difference. `burst` counts the 32-byte bursts that a
request touches, from its first. Where the request reads a scratchpad window, `burst` counts the 8-byte words that it touches, and a word has one
bit or more in error as the differences have (17 R367). `ca`: commands of the burst with a command or address parity error in a row, 2 where the
retry fails too; `onDie`: severity reports of the stack's on-die ECC (14 R302). -/
structure BurstErr where
  burst : Nat
  syms  : List (Nat × Byte)
  ca    : Nat := 0
  onDie : Nat := 0
  deriving DecidableEq, Repr

/-- What a request carries besides its data (04 R79, R84; 10 R220; 15 R327). -/
structure Req where
  master : Master
  eng    : Option Engine
  exec   : Bool
  src    : BitVec 16
  tile   : BitVec 11
  tag    : Word
  epoch  : Byte
  addr   : Dword
  via    : Option (Fin 32)
  deriving DecidableEq, Repr

/-- The status of a READ_RESP, LAND_ACK or SIG_STATUS (11 R233, 15 R327). -/
inductive Status where
  | ok | denied | unmapped | dropped | ecc
  deriving DecidableEq, Repr

/-- What the shelf port finds at an attach (22 R455): whether its link trains, with its rate and width; of the controller the bytes of its memory
BARs, its class code and its NVMe version register; of the namespace whether it is there, the bytes of a logical block and of its metadata,
and its size in blocks. -/
structure ShelfProbe where
  link      : Bool := false
  speed     : BitVec 4 := 0
  width     : BitVec 5 := 0
  barBytes  : Nat := 0
  cls       : BitVec 24 := 0
  version   : Word := 0
  nsThere   : Bool := false
  blockSize : Nat := 0
  metadata  : Nat := 0
  blocks    : Dword := 0
  deriving DecidableEq, Repr

/-- What a request of the host reaches (22 R449, R454): device memory through BAR2; the MSI-X table and the pending-bit array of BAR4; in
configuration space the Resizable BAR control (the exponent n of a BAR2 of 2^n GiB), the Device Serial Number, the Readiness Time, or any other
register. -/
inductive HostSpace where
  | bar2 | bar4 | resizableBar | serialNumber | readinessTime | config
  deriving DecidableEq, Repr

/-- What a start finds (18 R389, R390): inputs of the steps that the world decides.
`caps`: the eleven capability words, in the order of HUB_DIE_CAPn; `bistFail`: sites (die * 160 + row * 16 + column)
that fail their BIST; `hbmBad`: rows ((stack, local pseudo-channel, bank, row)) the HBM full test finds bad; `crcBad`: the CRC of retained
state fails (R388); `trims`: the factory trims that the fuse read finds (03 R67): oscillator, TICK_IN, 32 links, 58 sensors. -/
structure StartIn where
  domainFail  : Option (Fin 30)
  caps        : List Dword
  bundleFail  : List Nat
  hbmTrainFail : Bool
  hbmBad      : List (Nat × Nat × Nat × Nat)
  bistFail    : List Nat
  stepUs      : List Word
  shelf       : ShelfProbe
  crcBad      : Bool := false
  trims       : List (BitVec 16) := []
  deriving DecidableEq, Repr

/-- One row of values at a chain hop or a vault station (09 R188, R194). -/
inductive RowVals where
  | x40 (vs : List (BitVec 40))
  | raw (vs : List (BitVec 320))
  deriving DecidableEq, Repr

/-- What a self-test tested (17 R370). -/
inductive TestUnit where
  | tile (t : Fin 1200)
  | station (s : Fin 64)
  deriving DecidableEq, Repr

/-- A power domain input or sensor sample of 18 R396, in the units of PWR_INPUT and PWR_BUDGET. -/
structure PowerIn where
  mv       : BitVec 16
  current  : BitVec 16
  watts    : BitVec 16
  average  : BitVec 16
  max10    : BitVec 16
  above8ms : Bool
  deriving DecidableEq, Repr

/-- The source of a RESTORE or a replay, as read by the hub (16 R362, R365): bytes of the slot or shelf, empty when the
source cannot be reached. Tensor data follow the manifest in plan order. -/
structure SourceIn where
  reachable : Bool
  shelfHeader : List Byte
  witness   : List Byte
  manifest  : List Byte
  tensors   : List (List Byte)
  deriving DecidableEq, Repr

/-- The commands. Row order of spec/opcode_table.json. An operand with a default says what a fault or the outside world adds to the row: the
default is that nothing does. -/
inductive Instr where
  | regWrite (m : Master) (off : BitVec 26) (size : Nat) (v : Dword) (poisoned : Bool := false)
  | bridgeFlit (b : Fin 376) (flit : List Byte)
  | bridgeRetrainEnd (b : Fin 376) (ok : Bool)
  | ucieTrained (oe : Bool) (fast : Bool)
  | oeRequest (oe : Bool) (write : Bool) (addr : Dword) (size : Nat) (data : List Byte)
  | auxPowerOn (i : StartIn) (v48 : Bool := true)
  | vinReturn (i : StartIn)
  | vinRangeFault (mv : BitVec 16)
  | vinLowShutdown (mv : BitVec 16)
  | warmStart (m : Master) (i : StartIn)
  | coldStart (m : Master) (i : StartIn)
  | startRetry (i : StartIn)
  | stepTimeout
  | stowLoad (m : Master)
  | stowStage (m : Master)
  | stowSchedule (m : Master)
  | stowDiscard (m : Master)
  | stowCopyComplete (image : List Byte) (hostFail : Option Nat) (errs : List BurstErr)
  | tickEdge
  | tickInEdge (phase : Int)
  | tickFrame (frame : BitVec 80)
  | tick (p : Fin 32) (tn : Dword) (offset : Word) (depth : Byte) (holdover : Bool) (arrival : Int)
  | tickEdgeMissing
  | tickLockTimeout
  | delayReq (p : Fin 32) (t1 t2 t3 : Dword)
  | delayResp (p : Fin 32) (t1 t2 t3 t4 : Dword)
  | tbActAdd (m : Master) (type : BitVec 4)
  | tbActCancel (m : Master) (slot : BitVec 10)
  | relock (m : Master)
  | resumeReplay (m : Master)
  | resumeDiscard (m : Master)
  | clearStats (m : Master)
  | globalStop
  | stopDoneSend
  | stopDone (p : Fin 32)
  | stopPortOpen
  | stop (p : Fin 32)
  | snapshotCut
  | phaseStart
  | tableSwap
  | hbmTableSwap
  | fwActivate
  | selftestSlot
  | counterSample
  | powerRamp
  | accClearCounts (m : Master)
  | accClearLog (m : Master)
  | write (r : Req) (data : List Byte) (lc : Byte) (errs : List BurstErr)
  | read (r : Req) (n : Nat) (errs : List BurstErr) (poisoned : Bool := false) (ext : Option (List Byte) := none)
  | readResp (t : Fin 1200) (tag : Word) (epoch : Byte) (status : Status) (data : List Byte) (cacheable : Bool) (poisoned : Bool := false)
  | landAck (t : BitVec 11) (tag : Word) (epoch : Byte) (status : Status) (lc : Byte) (bytes : Nat)
  | sigStatus (t : Fin 1200) (tag : Word) (epoch : Byte) (status : Status)
  | unreachable (t : BitVec 11) (tag : Word) (epoch : Byte) (reason : Byte) (lost : Byte)
  | signalPacket (r : Req) (ctr : Byte) (n : Word)
  | mNop (t : Fin 1200)
  | mCfg (t : Fin 1200)
  | mSeed (t : Fin 1200) (ecc : Ecc)
  | mMma (t : Fin 1200) (ecc : Ecc)
  | mDrain (t : Fin 1200) (ecc : Ecc) (upset : List (Nat × BitVec 40))
  | arrayClockGate (t : Fin 1200)
  | powerGrant (d : Fin 8)
  | engineCommandComplete (t : Fin 1200) (e : Engine) (k : Nat := 0)
  | vNop (t : Fin 1200)
  | vRun (t : Fin 1200) (ecc : Ecc)
  | vMv (t : Fin 1200) (ecc : Ecc)
  | vProbe (m : Master) (t : Fin 1200) (size : Nat) (ctr : Dword)
  | alu (i : SIssue)
  | addi (i : SIssue)
  | andi (i : SIssue)
  | ori (i : SIssue)
  | xori (i : SIssue)
  | shi (i : SIssue)
  | lui (i : SIssue)
  | ldW (i : SIssue)
  | stW (i : SIssue)
  | ldG (i : SIssue)
  | ldGc (i : SIssue)
  | stG (i : SIssue)
  | regR (i : SIssue)
  | regW (i : SIssue)
  | regR64 (i : SIssue)
  | regW64 (i : SIssue)
  | beq (i : SIssue)
  | bne (i : SIssue)
  | blt (i : SIssue)
  | bge (i : SIssue)
  | bltu (i : SIssue)
  | bgeu (i : SIssue)
  | jal (i : SIssue)
  | jalr (i : SIssue)
  | cw (i : SIssue)
  | enq (i : SIssue)
  | enqs (i : SIssue)
  | signal (i : SIssue)
  | signalR (i : SIssue)
  | wait (i : SIssue)
  | waitAcq (i : SIssue)
  | take (i : SIssue)
  | set (i : SIssue)
  | lwait (i : SIssue)
  | lwaitAcq (i : SIssue)
  | fenceLocal (i : SIssue)
  | fenceRemote (i : SIssue)
  | cinvRemote (i : SIssue)
  | cinvAll (i : SIssue)
  | time (i : SIssue)
  | evt (i : SIssue)
  | trap (i : SIssue)
  | halt (i : SIssue)
  | tileFinish (t : Fin 1200)
  | bayAbort (t : Fin 1200)
  | tileQuiescent (t : Fin 1200)
  | bayRelease (b : Fin 64)
  | chainRow (t : Fin 1200) (chain : BitVec 10) (row : Fin 64) (vals : List (BitVec 40)) (mismatch : Bool)
  | vaultRow (st : Fin 64) (src : BitVec 16) (round : BitVec 16) (row : Fin 64) (vals : RowVals) (ecc : Ecc)
      (mismatch : Bool)
  | reduce (src : BitVec 16) (kind fmt : Byte) (id : BitVec 16) (round : BitVec 16) (row : Byte) (data : List Byte)
    (ecc : Ecc := .ok) (mismatch : Bool := false)
  | dNop (t : Fin 1200)
  | dCopy (t : Fin 1200) (ecc : Ecc)
  | dRun (t : Fin 1200) (ecc : Ecc)
  | dDrop (t : Fin 1200)
  | dRespTimeout (t : Fin 1200) (tag : Word)
  | dAbortTimeout (t : Fin 1200)
  | writeAckTimeout (t : Fin 1200) (tag : Word)
  | tileSyncSignal (m : Master) (t : Fin 1200) (size : Nat) (ctr : Byte) (n : Word)
  | tileSyncSet (m : Master) (t : Fin 1200) (size : Nat) (ctr : Byte) (v : Word)
  | dbgSyncSet (m : Master) (size : Nat) (tile : BitVec 11) (ctr : Byte) (v : Word)
  | doorbell (m : Master) (q : Fin 32768) (tail : Word)
  | ringFetch (q : Fin 32768) (hostData : Option (List Byte)) (errs : List BurstErr)
  | nop (q : Fin 32768)
  | launch (q : Fin 32768)
  | copy (q : Fin 32768)
  | copyUnitDone (d : Fin 4) (hostData : Option (List Byte)) (errs : List BurstErr) (confirmed : Bool := true)
  | fenceSignal (q : Fin 32768)
  | fenceWait (q : Fin 32768) (hostValue : Option Dword) (errs : List BurstErr)
  | fencePoll (q : Fin 32768) (hostValue : Option Dword) (errs : List BurstErr) (n : Nat := 0)
  | tickWait (q : Fin 32768)
  | tickWaitExpiry (q : Fin 32768)
  | snapshotCutPacket (q : Fin 32768)
  | timestamp (q : Fin 32768)
  | jump (q : Fin 32768)
  | fenceWriteConfirm (q : Fin 32768) (ok : Bool)
  | queueTimeout (q : Fin 32768)
  | bayReset (b : Fin 64) (queue : Option (Fin 32768) := none)
  | bayResetEnd (b : Fin 64)
  | create (m : Master) (q : Fin 32768)
  | destroy (m : Master) (q : Fin 32768)
  | resume (m : Master) (q : Fin 32768)
  | feClearCounts (m : Master)
  | hbmScrub (st : Fin 16) (pc : Fin 32) (errs : List BurstErr)
  | hbmRowCopyDone (st : Fin 16) (uncorrectable : List (Nat × Nat))
  | hbmTempRead (st : Fin 16) (temp : Byte)
  | hbmRetAdd (m : Master) (st : Fin 16)
  | hbmRetSchedule (m : Master) (st : Fin 16)
  | hbmRetDiscard (m : Master) (st : Fin 16)
  | hbmTempClear (m : Master) (st : Fin 16)
  | linkFlit (p : Fin 32) (flit : List Byte) (fecBad : Bool) (fecFixed : Nat := 0)
  | egressStallDrop (p : Fin 32) (vc : BitVec 3)
  | linkTrained (p : Fin 32)
  | linkTrainTimeout (p : Fin 32)
  | linkRetrainTimeout (p : Fin 32)
  | laneLockLoss (p : Fin 32) (lane : Fin 9)
  | laneBerCheck (p : Fin 32) (lane : Fin 9) (above : Bool)
  | hello (p : Fin 32) (src : BitVec 16) (digest : Dword)
  | membership (p : Fin 32) (src : BitVec 16) (period digest : Dword) (fenced : Bool) (hops : Byte)
  | lnkRetrain (m : Master) (p : Fin 32)
  | lnkDisable (m : Master) (p : Fin 32)
  | lnkEnable (m : Master) (p : Fin 32)
  | snapRelease (errs : List (List BurstErr) := []) (confirmed : Bool := true)
  | snapAckTimeout
  | snapCommitTimeout
  | snapCommitPoll
  | shelfIoComplete (ok : Bool)
  | restore (m : Master) (src : SourceIn)
  | restoreComplete (src : SourceIn)
  | replayCheck (m : Master) (src : SourceIn)
  | witness (m : Master)
  | snapAbandon (m : Master)
  | snapClearError (m : Master)
  | engineWatchdog (t : Fin 1200) (e : Engine)
  | selftestDone (u : TestUnit) (pass : Bool) (words : List Nat := []) (bad : Option Nat := none)
  | safetyDegraded (b : Fin 64)
  | pretest (m : Master) (die : BitVec 3) (row col : BitVec 4)
  | pretestDone (pass : Bool) (us : Word)
  | markSuspect (m : Master) (die : BitVec 3) (row col : BitVec 4)
  | reportMismatch (m : Master)
  | safeClearCounts (m : Master)
  | domainFault (i : Fin 30) (raw : BitVec 16)
  | dieTempSample (d : Fin 9) (raw : List (BitVec 16))
  | powerSample (i : PowerIn)
  | sitePowerUp (d : Fin 8)
  | mothball (m : Master)
  | mothballEntry
  | wake (m : Master)
  | wakeComplete
  | ownerRegister (m : Master)
  | ownerRevoke (m : Master)
  | deploy (m : Master)
  | returnCmd (m : Master) (i : StartIn)
  | debugUnlock (m : Master)
  | close (m : Master)
  | getVersion
  | getCapabilities
  | negotiateAlgorithms
  | getDigests
  | getCertificate (slot : Byte) (offset length : BitVec 16)
  | challenge (slot : Byte) (nonce : List Byte) (summary : Byte := 0) (ctx : Dword := 0)
  | getMeasurements (index : Byte) (nonce : List Byte) (ctx : Dword := 0) (signed : Bool := true)
  | spdmUnsupported (code : Byte)
  | evtFreeze (m : Master)
  | evtThaw (m : Master)
  | digCfgWrite (m : Master) (t : Fin 1200) (n : Fin 16) (size : Nat) (high : Bool) (v : Dword)
  | dumpArm (m : Master)
  | dumpCancel (m : Master)
  | dumpCopyDone (hostOk : Bool) (errs : List BurstErr)
  | fwPrepare (m : Master)
  | fwPrepareDone
  | fwStage (m : Master) (errs : List BurstErr) (ext : Option (List Byte) := none)
  | fwChunkProgrammed (ok : Bool)
  | relay (src : BitVec 16) (tile : BitVec 11) (tag : Word) (index count : Word) (id : Dword) (data : List Byte)
  | fwRelayRetry
  | fwRelayStall
  | fwSchedule (m : Master)
  | fwDiscard (m : Master)
  | fwReject (m : Master)
  | fwRelayAgain (m : Master)
  | fwActivationDone
  | fwConfirm (diesAnswer : Bool) (probes : Bool := true)
  | fwTrialTimeout
  | hostMemWrite (off : BitVec 41) (data : List Byte) (poisoned : Bool) (errs : List BurstErr) (space : HostSpace := .bar2)
  | hostMemRead (off : BitVec 41) (n : Nat) (poisoned : Bool) (errs : List BurstErr) (space : HostSpace := .bar2)
      (ext : Option (List Byte) := none)
  | bar2WindowWrite (m : Master) (base : BitVec 18)
  | msixUnmask (v : Fin 2048)
  | perstAssert
  | perstRelease (i : StartIn)
  | hotReset (i : StartIn)
  | hostD3hot
  | hostD0
  | hostLinkDown
  | shelfAttach (m : Master) (probe : ShelfProbe)
  | shelfRelease (m : Master)
  | shelfInboundRequest (write : Bool) (addr : Dword) (n : Nat) (data : List Byte) (errs : List BurstErr)
  | shelfCmdTimeout
  | shelfHealthPoll (wear : BitVec 16) (ok : Bool := true)
  | entdaa (a : BitVec 7)
  | setdasa (a : BitVec 7) (target : BitVec 7 := 0x5D)
  | rstdaa
  | getpid
  | getbcr
  | getdcr
  | getstatus
  | getmwl
  | setmwl (n : BitVec 16)
  | enec
  | disec
  | i3cOtherCcc (ccc : Byte)
  | i3cPrivateWrite (bytes : List Byte) (i : StartIn) (target : Option (BitVec 7) := none)
  | i3cPrivateRead (target : Option (BitVec 7) := none)
  | auxPowerOff
  | hostLinkUp
  | tckEdge (rising tms tdi : Bool)
  | pwrBudgetRead (m : Master) (off : BitVec 3) (size : Nat)
  | oPortLockLoss (p : Fin 32)
  deriving DecidableEq, Repr

end Sys2Proof
end

