-- ==== Sys2Proof/Config.lean ====
section
/-! DEFINITION. The values the spec leaves open. Each constant has NO body: nothing in Lean can prove a value of it,
so whatever is proved holds for every value. `n` is the model's own counter of free values (`State.free`, log entry 3). -/

namespace Sys2Proof.Config

/-- A byte of a memory whose contents the spec calls undefined (17 R379, 18 R402, 18 R389): `n` names the event that
made them undefined, `a` the address. -/
opaque freeByte (n a : Nat) : Byte

/-- A free choice among finitely many: the reader takes it modulo the number of choices (10 R214, 13 R285, 08 R172). -/
opaque freeChoice (n : Nat) : Nat

/-- The symbols in error that a partial write by one of the hub's own units meets, by burst: no operand brings them (14 R303, R306). -/
opaque symbolErrors (n : Nat) : List (Nat × List (Nat × Byte))

/-- A fresh draw of the entropy source (19 R408: SEC_NONCE). -/
opaque freeNonce (n : Nat) : Dword

/-- The device's own ECDSA signature over a message, by its attestation key (19 R405, R417): the unique secret and the
random scalar are known to nobody. -/
opaque deviceSign (secretId : Nat) (message : List Byte) : List Byte

/-- The certificate chain of slot 0 (19 R417): Esermain root, identity key, attestation key. -/
opaque certificateChain (secretId : Nat) (bootDigest : List Byte) : List Byte

/-- Version of the boot ROM (19 R417, measurement block 1): named, not given, by the spec. -/
opaque bootRomVersion : Dword

/-- What GET_CAPABILITIES says of timing and transfer sizes (19 R417 names neither): CTExponent, and the two sizes. -/
opaque spdmExponent : Byte
opaque spdmSizes : Dword

/-- Whether another device's SPACE places a scratchpad window at a local address (04 R69): that device's image, which this one does not hold. -/
opaque farWindow (device addr : Nat) : Bool

/-- Settings items (21 R447) by number: 0 retirement generations, 1 snapshot records, 2 start counters. The format an item leaves the
factory in, and for an image version the oldest format it reads and its own. -/
opaque factoryFormat (item : Nat) : Nat
opaque oldestFormat (version item : Nat) : Nat
opaque ownFormat (version item : Nat) : Nat

/-- A measured quantity that no command brings and a register shows: kind 1 the current and 2 the voltage of
domain i (18 PWR_DOMAIN), at a time. -/
opaque sensor (kind i time : Nat) : Nat

/-- A byte of configuration space that the spec gives no value (22 R449), and how Readiness Time Reporting writes its 2 s (22 R454). -/
opaque pcieConfig (off : Nat) : Byte
opaque readinessTime : Word

/-- The I3C target's characteristics, which 22 R460 says are returned and gives no value: provisioned ID. -/
opaque i3cPid : BitVec 48
/-- The I3C bus characteristics register (22 R460). -/
opaque i3cBcr : Byte
/-- The I3C device characteristics register (22 R460). -/
opaque i3cDcr : Byte
/-- The I3C target's status word (22 R460). -/
opaque i3cStatus (n : Nat) : BitVec 16

end Sys2Proof.Config
end

