-- ==== Sys2Proof/Machine/Fields.lean ====
section
/-! DEFINITION. The fields of the register tables, by the spec's names: `F.<register>_<field>`. Offsets are BAR0 offsets
(04 R73) for the hub-side blocks and page offsets for the TILE_, HBM_, LNK_ pages and a queue's 64 bytes (13 R299);
an argument is the register's index. -/

namespace Sys2Proof.Machine

/-- A register field (00 R5): the 8-byte-aligned offset of its register, its lowest bit and its width. -/
structure Fld where
  off   : Nat
  lo    : Nat
  width : Nat
  deriving DecidableEq, Repr

def F.HUB_DIE_CAP_die_type (i : Nat) : Fld := ⟨0x100 + 8 * i, 0, 8⟩
def F.HUB_DIE_CAP_step_num (i : Nat) : Fld := ⟨0x100 + 8 * i, 8, 4⟩
def F.HUB_DIE_CAP_step_letter (i : Nat) : Fld := ⟨0x100 + 8 * i, 12, 4⟩
def F.HUB_DIE_CAP_tick_fine (i : Nat) : Fld := ⟨0x100 + 8 * i, 16, 1⟩
def F.HUB_DIE_CAP_fence_cycle (i : Nat) : Fld := ⟨0x100 + 8 * i, 17, 1⟩
def F.HUB_DIE_CAP_xpose_full (i : Nat) : Fld := ⟨0x100 + 8 * i, 18, 1⟩
def F.HUB_DIE_CAP_lane_live (i : Nat) : Fld := ⟨0x100 + 8 * i, 19, 1⟩
def F.HUB_DIE_CAP_vendor_part (i : Nat) : Fld := ⟨0x100 + 8 * i, 32, 16⟩
def F.HUB_PKG_CAP_tick_fine : Fld := ⟨0x160, 16, 1⟩
def F.HUB_PKG_CAP_fence_cycle : Fld := ⟨0x160, 17, 1⟩
def F.HUB_PKG_CAP_xpose_full : Fld := ⟨0x160, 18, 1⟩
def F.HUB_PKG_CAP_lane_live : Fld := ⟨0x160, 19, 1⟩
def F.HUB_PKG_CAP_valid : Fld := ⟨0x160, 31, 1⟩
def F.DBG_TAP_CHAIN_oe_bypass : Fld := ⟨0x50000, 0, 1⟩
def F.DBG_TAP_CHAIN_chain_enable : Fld := ⟨0x50000, 1, 1⟩
def F.DBG_TAP_CHAIN_die_present : Fld := ⟨0x50000, 4, 8⟩
def F.HUB_STOW_SRC_addr : Fld := ⟨0x200, 0, 64⟩
def F.HUB_STOW_LEN_length : Fld := ⟨0x208, 0, 23⟩
def F.HUB_STOW_LEN_src_space : Fld := ⟨0x208, 31, 1⟩
def F.HUB_STOW_CTRL_op : Fld := ⟨0x210, 0, 3⟩
def F.HUB_STOW_SWAP_TN_tn : Fld := ⟨0x218, 0, 64⟩
def F.HUB_STOW_STATUS_state : Fld := ⟨0x220, 0, 3⟩
def F.HUB_STOW_STATUS_warm_only : Fld := ⟨0x220, 3, 1⟩
def F.HUB_STOW_STATUS_error : Fld := ⟨0x220, 8, 8⟩
def F.HUB_STOW_STATUS_error_offset : Fld := ⟨0x220, 32, 32⟩
def F.HUB_STOW_GEN_generation : Fld := ⟨0x228, 0, 64⟩
def F.HUB_STOW_STAGED_generation : Fld := ⟨0x230, 0, 64⟩
def F.HUB_GROUP_DIGEST_digest : Fld := ⟨0x238, 0, 64⟩
def F.TB_STATUS_state : Fld := ⟨0x10000, 0, 3⟩
def F.TB_STATUS_source : Fld := ⟨0x10000, 4, 2⟩
def F.TB_STATUS_fine : Fld := ⟨0x10000, 6, 1⟩
def F.TB_STATUS_depth : Fld := ⟨0x10000, 8, 8⟩
def F.TB_STATUS_holdover_ticks : Fld := ⟨0x10000, 32, 32⟩
def F.TB_TN_tn : Fld := ⟨0x10008, 0, 64⟩
def F.TB_PERIOD_period : Fld := ⟨0x10010, 0, 17⟩
def F.TB_PHASE_ERR_last : Fld := ⟨0x10018, 0, 32⟩
def F.TB_PHASE_ERR_worst : Fld := ⟨0x10018, 32, 32⟩
def F.TB_CTRL_op : Fld := ⟨0x10020, 0, 3⟩
def F.TB_EVENT_tick_lost : Fld := ⟨0x10028, 0, 1⟩
def F.TB_EVENT_tn_mismatch : Fld := ⟨0x10028, 1, 1⟩
def F.TB_EVENT_frame_bad : Fld := ⟨0x10028, 2, 1⟩
def F.TB_EVENT_lock_fail : Fld := ⟨0x10028, 3, 1⟩
def F.TB_EVENT_act_missed : Fld := ⟨0x10028, 4, 1⟩
def F.TB_EVENT_act_refused : Fld := ⟨0x10028, 5, 1⟩
def F.TB_EVENT_port_open : Fld := ⟨0x10028, 6, 1⟩
def F.TB_EVENT_trim_clamped : Fld := ⟨0x10028, 7, 1⟩
def F.TB_ACT_TN_tn : Fld := ⟨0x10040, 0, 64⟩
def F.TB_ACT_ARG_arg : Fld := ⟨0x10048, 0, 64⟩
def F.TB_ACT_CMD_type : Fld := ⟨0x10050, 0, 4⟩
def F.TB_ACT_CMD_op : Fld := ⟨0x10050, 4, 2⟩
def F.TB_ACT_CMD_slot : Fld := ⟨0x10050, 16, 10⟩
def F.TB_ACT_RESULT_code : Fld := ⟨0x10058, 0, 8⟩
def F.TB_ACT_RESULT_slot : Fld := ⟨0x10058, 16, 10⟩
def F.TB_ACT_RESULT_done : Fld := ⟨0x10058, 31, 1⟩
def F.TB_ACT_FREE_free : Fld := ⟨0x10060, 0, 11⟩
def F.TB_ACT_FREE_next_low : Fld := ⟨0x10060, 32, 32⟩
def F.TB_TRANSIT_COUNT_packets (i : Nat) : Fld := ⟨0x10500 + 8 * i, 0, 32⟩
def F.TB_TRANSIT_COUNT_bytes (i : Nat) : Fld := ⟨0x10500 + 8 * i, 32, 32⟩
def F.TB_STOP_STATUS_stopped : Fld := ⟨0x10080, 0, 1⟩
def F.TB_STOP_STATUS_quiescent : Fld := ⟨0x10080, 1, 1⟩
def F.TB_STOP_STATUS_open_ports : Fld := ⟨0x10080, 32, 32⟩
def F.HUB_ACC_STATUS_records : Fld := ⟨0x1000, 0, 15⟩
def F.HUB_ACC_STATUS_loaded : Fld := ⟨0x1000, 15, 1⟩
def F.HUB_ACC_QUERY_target : Fld := ⟨0x1008, 0, 16⟩
def F.HUB_ACC_QUERY_master : Fld := ⟨0x1008, 16, 16⟩
def F.HUB_ACC_QUERY_perms : Fld := ⟨0x1008, 32, 3⟩
def F.HUB_ACC_QUERY_fixed : Fld := ⟨0x1008, 35, 1⟩
def F.HUB_ACC_QUERY_recorded : Fld := ⟨0x1008, 36, 1⟩
def F.HUB_ACC_QUERY_partial : Fld := ⟨0x1008, 37, 1⟩
def F.HUB_ACC_COUNTS_denied : Fld := ⟨0x1010, 0, 32⟩
def F.HUB_ACC_COUNTS_unmapped : Fld := ⟨0x1010, 32, 32⟩
def F.HUB_ACC_CTRL_clear_counts : Fld := ⟨0x1018, 0, 1⟩
def F.HUB_ACC_CTRL_clear_log : Fld := ⟨0x1018, 1, 1⟩
def F.HUB_ACC_LOG_PTR_next : Fld := ⟨0x1020, 0, 6⟩
def F.HUB_ACC_LOG_PTR_wrapped : Fld := ⟨0x1020, 6, 1⟩
def F.HUB_ACC_LOG_ADDR_addr (i : Nat) : Fld := ⟨0x1100 + 16 * i, 0, 64⟩
def F.HUB_ACC_LOG_INFO_master (i : Nat) : Fld := ⟨0x1108 + 16 * i, 0, 16⟩
def F.HUB_ACC_LOG_INFO_target (i : Nat) : Fld := ⟨0x1108 + 16 * i, 16, 16⟩
def F.HUB_ACC_LOG_INFO_kind (i : Nat) : Fld := ⟨0x1108 + 16 * i, 32, 3⟩
def F.HUB_ACC_LOG_INFO_unmapped (i : Nat) : Fld := ⟨0x1108 + 16 * i, 35, 1⟩
def F.HUB_ACC_LOG_INFO_valid (i : Nat) : Fld := ⟨0x1108 + 16 * i, 36, 1⟩
def F.HUB_ACC_LOG_INFO_tn_low (i : Nat) : Fld := ⟨0x1108 + 16 * i, 40, 24⟩
def F.TILE_NUM_FLAGS_m_invalid : Fld := ⟨0xf00, 0, 1⟩
def F.TILE_NUM_FLAGS_m_saturate : Fld := ⟨0xf00, 1, 1⟩
def F.TILE_NUM_FLAGS_m_overflow : Fld := ⟨0xf00, 2, 1⟩
def F.TILE_NUM_FLAGS_m_underflow : Fld := ⟨0xf00, 3, 1⟩
def F.TILE_NUM_FLAGS_m_nan_in : Fld := ⟨0xf00, 4, 1⟩
def F.TILE_NUM_FLAGS_v_invalid : Fld := ⟨0xf00, 8, 1⟩
def F.TILE_NUM_FLAGS_v_saturate : Fld := ⟨0xf00, 9, 1⟩
def F.TILE_NUM_FLAGS_v_overflow : Fld := ⟨0xf00, 10, 1⟩
def F.TILE_NUM_FLAGS_v_underflow : Fld := ⟨0xf00, 11, 1⟩
def F.TILE_NUM_FLAGS_v_nan_in : Fld := ⟨0xf00, 12, 1⟩
def F.TILE_NUM_FLAGS_first_tn_low : Fld := ⟨0xf00, 40, 24⟩
def F.TILE_M_STATUS_mode : Fld := ⟨0x1000, 0, 2⟩
def F.TILE_M_STATUS_seeded : Fld := ⟨0x1000, 2, 1⟩
def F.TILE_M_STATUS_busy : Fld := ⟨0x1000, 3, 1⟩
def F.TILE_M_STATUS_drain_full : Fld := ⟨0x1000, 4, 1⟩
def F.TILE_M_STATUS_array_on : Fld := ⟨0x1000, 5, 1⟩
def F.TILE_M_STATUS_fault : Fld := ⟨0x1000, 8, 8⟩
def F.TILE_M_STATUS_k_count : Fld := ⟨0x1000, 32, 32⟩
def F.TILE_M_CHECK_mismatch : Fld := ⟨0x1008, 0, 1⟩
def F.TILE_M_CHECK_skipped : Fld := ⟨0x1008, 1, 1⟩
def F.TILE_M_CHECK_row : Fld := ⟨0x1008, 8, 6⟩
def F.TILE_M_CHECK_row_valid : Fld := ⟨0x1008, 14, 1⟩
def F.TILE_M_CHECK_col : Fld := ⟨0x1008, 16, 6⟩
def F.TILE_M_CHECK_col_valid : Fld := ⟨0x1008, 22, 1⟩
def F.TILE_M_CHECK_tn_low : Fld := ⟨0x1008, 40, 24⟩
def F.TILE_M_CHECK_DIFF_diff : Fld := ⟨0x1010, 0, 40⟩
def F.TILE_M_CHECK_TOL_tol : Fld := ⟨0x1018, 0, 40⟩
def F.TILE_V_STATUS_busy : Fld := ⟨0x1100, 0, 1⟩
def F.TILE_V_STATUS_mv_busy : Fld := ⟨0x1100, 1, 1⟩
def F.TILE_V_STATUS_probe_done : Fld := ⟨0x1100, 2, 1⟩
def F.TILE_V_STATUS_fault : Fld := ⟨0x1100, 8, 8⟩
def F.TILE_V_STATUS_fault_iter : Fld := ⟨0x1100, 16, 16⟩
def F.TILE_V_STATUS_fault_word : Fld := ⟨0x1100, 32, 2⟩
def F.TILE_V_KEY_key : Fld := ⟨0x1108, 0, 64⟩
def F.TILE_V_STEP_step : Fld := ⟨0x1110, 0, 64⟩
def F.TILE_V_PROBE_CTR_ctr : Fld := ⟨0x1118, 0, 64⟩
def F.TILE_V_PROBE_LO_draw_lo : Fld := ⟨0x1120, 0, 64⟩
def F.TILE_V_PROBE_HI_draw_hi : Fld := ⟨0x1128, 0, 64⟩
def F.TILE_S_STATUS_state : Fld := ⟨0x1200, 0, 3⟩
def F.TILE_S_STATUS_stall : Fld := ⟨0x1200, 4, 3⟩
def F.TILE_S_STATUS_stopped : Fld := ⟨0x1200, 7, 1⟩
def F.TILE_S_STATUS_stall_cycles : Fld := ⟨0x1200, 32, 32⟩
def F.TILE_S_PC_pc : Fld := ⟨0x1208, 0, 24⟩
def F.TILE_S_CODE_BASE_base : Fld := ⟨0x1228, 0, 64⟩
def F.TILE_S_ABORT_cause : Fld := ⟨0x1210, 0, 8⟩
def F.TILE_S_ABORT_origin : Fld := ⟨0x1210, 16, 11⟩
def F.TILE_S_ABORT_valid : Fld := ⟨0x1210, 31, 1⟩
def F.TILE_S_ABORT_tn_low : Fld := ⟨0x1210, 40, 24⟩
def F.TILE_S_ABORT_INFO_pc : Fld := ⟨0x1218, 0, 24⟩
def F.TILE_S_ABORT_INFO_trap_code : Fld := ⟨0x1218, 24, 20⟩
def F.TILE_S_QSTATUS_m_free : Fld := ⟨0x1220, 0, 6⟩
def F.TILE_S_QSTATUS_v_free : Fld := ⟨0x1220, 8, 6⟩
def F.TILE_S_QSTATUS_d_free : Fld := ⟨0x1220, 16, 7⟩
def F.TILE_RED_CHAIN_addr : Fld := ⟨0x1300, 0, 16⟩
def F.TILE_RED_CHAIN_stride : Fld := ⟨0x1300, 16, 16⟩
def F.TILE_RED_CHAIN_ctr : Fld := ⟨0x1300, 32, 8⟩
def F.TILE_RED_CHAIN_fmt : Fld := ⟨0x1300, 40, 2⟩
def F.TILE_RED_CHAIN_enable : Fld := ⟨0x1300, 47, 1⟩
def F.TILE_RED_STATUS_in_blocks : Fld := ⟨0x1308, 0, 3⟩
def F.TILE_RED_STATUS_hop_wait : Fld := ⟨0x1308, 3, 1⟩
def F.TILE_RED_STATUS_wait_chain : Fld := ⟨0x1308, 16, 10⟩
def F.TILE_RED_RX_addr (i : Nat) : Fld := ⟨0x1400 + 8 * i, 0, 16⟩
def F.TILE_RED_RX_stride (i : Nat) : Fld := ⟨0x1400 + 8 * i, 16, 16⟩
def F.TILE_RED_RX_ctr (i : Nat) : Fld := ⟨0x1400 + 8 * i, 32, 8⟩
def F.TILE_RED_RX_enable (i : Nat) : Fld := ⟨0x1400 + 8 * i, 47, 1⟩
def F.TILE_RED_RX_send_round (i : Nat) : Fld := ⟨0x1400 + 8 * i, 48, 16⟩
def F.HUB_VST_STATUS_state (i : Nat) : Fld := ⟨0x8000 + 16 * i, 0, 2⟩
def F.HUB_VST_STATUS_round (i : Nat) : Fld := ⟨0x8000 + 16 * i, 16, 16⟩
def F.HUB_VST_STATUS_invalid (i : Nat) : Fld := ⟨0x8000 + 16 * i, 32, 1⟩
def F.HUB_VST_STATUS_saturate (i : Nat) : Fld := ⟨0x8000 + 16 * i, 33, 1⟩
def F.HUB_VST_STATUS_overflow (i : Nat) : Fld := ⟨0x8000 + 16 * i, 34, 1⟩
def F.HUB_VST_STATUS_underflow (i : Nat) : Fld := ⟨0x8000 + 16 * i, 35, 1⟩
def F.HUB_VST_STATUS_nan_in (i : Nat) : Fld := ⟨0x8000 + 16 * i, 36, 1⟩
def F.HUB_VST_STATUS_range (i : Nat) : Fld := ⟨0x8000 + 16 * i, 37, 1⟩
def F.HUB_VST_STATUS_excess (i : Nat) : Fld := ⟨0x8000 + 16 * i, 38, 1⟩
def F.HUB_VST_STATUS_forwarders (i : Nat) : Fld := ⟨0x8000 + 16 * i, 40, 6⟩
def F.HUB_VST_ROWS_rows (i : Nat) : Fld := ⟨0x8008 + 16 * i, 0, 37⟩
def F.HUB_VST_ROWS_tn_low (i : Nat) : Fld := ⟨0x8008 + 16 * i, 40, 24⟩
def F.TILE_D_STATUS_outstanding : Fld := ⟨0x1600, 0, 10⟩
def F.TILE_D_STATUS_ahead : Fld := ⟨0x1600, 10, 4⟩
def F.TILE_D_STATUS_busy : Fld := ⟨0x1600, 14, 1⟩
def F.TILE_D_STATUS_quiescent : Fld := ⟨0x1600, 15, 1⟩
def F.TILE_D_STATUS_fault : Fld := ⟨0x1600, 16, 8⟩
def F.TILE_D_STATUS_epoch : Fld := ⟨0x1600, 24, 8⟩
def F.TILE_D_STATUS_stale : Fld := ⟨0x1600, 32, 32⟩
def F.TILE_D_STREAMS_armed : Fld := ⟨0x1608, 0, 16⟩
def F.TILE_D_STREAMS_running : Fld := ⟨0x1608, 16, 16⟩
def F.TILE_D_FAULT_ADDR_addr : Fld := ⟨0x1610, 0, 64⟩
def F.TILE_D_ABORT_BYTES_issued : Fld := ⟨0x1618, 0, 32⟩
def F.TILE_D_ABORT_BYTES_abandoned : Fld := ⟨0x1618, 32, 32⟩
def F.HUB_LOFT_HOST_bus : Fld := ⟨0x300, 12, 52⟩
def F.HUB_LOFT_CTRL_enable : Fld := ⟨0x308, 0, 1⟩
def F.HUB_LOFT_STATUS_active : Fld := ⟨0x310, 0, 1⟩
def F.HUB_LOFT_STATUS_error : Fld := ⟨0x310, 1, 1⟩
def F.HUB_LOFT_STATUS_last_err : Fld := ⟨0x310, 8, 8⟩
def F.HUB_LOFT_STATUS_errors : Fld := ⟨0x310, 32, 32⟩
def F.TILE_MM_STATUS_pk1 : Fld := ⟨0x1700, 0, 1⟩
def F.TILE_MM_STATUS_fence_local : Fld := ⟨0x1700, 1, 1⟩
def F.TILE_MM_STATUS_fence_remote : Fld := ⟨0x1700, 2, 1⟩
def F.TILE_MM_STATUS_fence_failed : Fld := ⟨0x1700, 3, 1⟩
def F.TILE_MM_STATUS_oldest_us : Fld := ⟨0x1700, 16, 16⟩
def F.TILE_MM_ISSUED_bytes : Fld := ⟨0x1708, 0, 64⟩
def F.TILE_MM_ACKED_bytes : Fld := ⟨0x1710, 0, 64⟩
def F.TILE_MM_FENCE_ERR_cause : Fld := ⟨0x1718, 0, 3⟩
def F.TILE_MM_FENCE_ERR_engine : Fld := ⟨0x1718, 4, 2⟩
def F.TILE_MM_FENCE_ERR_lc_sent : Fld := ⟨0x1718, 8, 8⟩
def F.TILE_MM_FENCE_ERR_lc_acked : Fld := ⟨0x1718, 16, 8⟩
def F.TILE_MM_FENCE_ERR_bytes_sent : Fld := ⟨0x1718, 24, 9⟩
def F.TILE_MM_FENCE_ERR_bytes_acked : Fld := ⟨0x1718, 33, 9⟩
def F.TILE_MM_FENCE_ERR_tn_low : Fld := ⟨0x1718, 42, 22⟩
def F.TILE_MM_FENCE_ADDR_addr : Fld := ⟨0x1720, 0, 64⟩
def F.TILE_LC_count (i : Nat) : Fld := ⟨0x1800 + 8 * i, 0, 32⟩
def F.TILE_LC_writes (i : Nat) : Fld := ⟨0x1800 + 8 * i, 32, 32⟩
def F.TILE_SYNC_STATUS_manual_sets : Fld := ⟨0x1a00, 0, 16⟩
def F.TILE_SYNC_STATUS_refused : Fld := ⟨0x1a00, 16, 16⟩
def F.TILE_SYNC_STATUS_dropped : Fld := ⟨0x1a00, 32, 32⟩
def F.TILE_SYNC_SIGNAL_ctr : Fld := ⟨0x1a08, 0, 8⟩
def F.TILE_SYNC_SIGNAL_n : Fld := ⟨0x1a08, 32, 32⟩
def F.TILE_SYNC_SET_ctr : Fld := ⟨0x1a10, 0, 8⟩
def F.TILE_SYNC_SET_value : Fld := ⟨0x1a10, 32, 32⟩
def F.TILE_SYNC_LAST_SET_ctr : Fld := ⟨0x1a18, 0, 8⟩
def F.TILE_SYNC_LAST_SET_master : Fld := ⟨0x1a18, 8, 2⟩
def F.TILE_SYNC_LAST_SET_old : Fld := ⟨0x1a18, 32, 32⟩
def F.TILE_SYNC_count (i : Nat) : Fld := ⟨0x2000 + 8 * i, 0, 32⟩
def F.TILE_SYNC_waiting (i : Nat) : Fld := ⟨0x2000 + 8 * i, 32, 4⟩
def F.TILE_SYNC_tn_low (i : Nat) : Fld := ⟨0x2000 + 8 * i, 40, 24⟩
def F.DBG_SYNC_SET_tile : Fld := ⟨0x50100, 0, 11⟩
def F.DBG_SYNC_SET_ctr : Fld := ⟨0x50100, 16, 8⟩
def F.DBG_SYNC_SET_value : Fld := ⟨0x50100, 32, 32⟩
def F.FE_STATUS_active : Fld := ⟨0x800000, 0, 16⟩
def F.FE_STATUS_guilty : Fld := ⟨0x800000, 16, 16⟩
def F.FE_STATUS_stopped : Fld := ⟨0x800000, 32, 1⟩
def F.FE_STATUS_cycle_hw : Fld := ⟨0x800000, 33, 1⟩
def F.FE_COUNTS_guilty_events : Fld := ⟨0x800008, 0, 32⟩
def F.FE_COUNTS_bay_resets : Fld := ⟨0x800008, 32, 32⟩
def F.FE_CTRL_clear_counts : Fld := ⟨0x800010, 0, 1⟩
def F.FE_DISP_last_queue (i : Nat) : Fld := ⟨0x800100 + 8 * i, 0, 15⟩
def F.FE_DISP_busy (i : Nat) : Fld := ⟨0x800100 + 8 * i, 15, 1⟩
def F.FE_DISP_started (i : Nat) : Fld := ⟨0x800100 + 8 * i, 32, 32⟩
def F.FE_BAY_queue (i : Nat) : Fld := ⟨0x801000 + 8 * i, 0, 15⟩
def F.FE_BAY_held (i : Nat) : Fld := ⟨0x801000 + 8 * i, 15, 1⟩
def F.FE_BAY_releasing (i : Nat) : Fld := ⟨0x801000 + 8 * i, 16, 1⟩
def F.FE_BAY_reset_escalated (i : Nat) : Fld := ⟨0x801000 + 8 * i, 17, 1⟩
def F.FE_Q_BASE_base : Fld := ⟨0x0, 12, 52⟩
def F.FE_Q_CFG_log2_size : Fld := ⟨0x8, 0, 5⟩
def F.FE_Q_CFG_ring_space : Fld := ⟨0x8, 5, 1⟩
def F.FE_Q_CFG_fence_space : Fld := ⟨0x8, 6, 1⟩
def F.FE_Q_CFG_prio : Fld := ⟨0x8, 8, 2⟩
def F.FE_Q_CFG_pk1 : Fld := ⟨0x8, 10, 1⟩
def F.FE_Q_CFG_vector : Fld := ⟨0x8, 16, 11⟩
def F.FE_Q_CFG_timeout_ms : Fld := ⟨0x8, 32, 32⟩
def F.FE_Q_FENCE_addr : Fld := ⟨0x10, 3, 61⟩
def F.FE_Q_PTR_head : Fld := ⟨0x18, 0, 32⟩
def F.FE_Q_PTR_tail : Fld := ⟨0x18, 32, 32⟩
def F.FE_Q_STATE_state : Fld := ⟨0x20, 0, 3⟩
def F.FE_Q_STATE_blocked : Fld := ⟨0x20, 3, 1⟩
def F.FE_Q_STATE_reset_done : Fld := ⟨0x20, 4, 1⟩
def F.FE_Q_STATE_destroyed : Fld := ⟨0x20, 5, 1⟩
def F.FE_Q_STATE_wait_kind : Fld := ⟨0x20, 6, 2⟩
def F.FE_Q_STATE_blocked_on : Fld := ⟨0x20, 16, 15⟩
def F.FE_Q_STATE_timer_ms : Fld := ⟨0x20, 32, 32⟩
def F.FE_Q_CTRL_op : Fld := ⟨0x28, 0, 3⟩
def F.FE_Q_GUILT_cause : Fld := ⟨0x30, 0, 8⟩
def F.FE_Q_GUILT_origin : Fld := ⟨0x30, 8, 11⟩
def F.FE_Q_GUILT_packet : Fld := ⟨0x30, 32, 32⟩
def F.FE_Q_DESTROY_landed_bytes : Fld := ⟨0x38, 0, 28⟩
def F.FE_Q_DESTROY_abandoned_bytes : Fld := ⟨0x38, 28, 28⟩
def F.FE_Q_DESTROY_elapsed : Fld := ⟨0x38, 56, 7⟩
def F.FE_Q_DESTROY_escalated : Fld := ⟨0x38, 63, 1⟩
def F.FE_DB_tail (i : Nat) : Fld := ⟨0xc00000 + 8 * i, 0, 32⟩
def F.HBM_STATUS_state : Fld := ⟨0x0, 0, 2⟩
def F.HBM_STATUS_refresh : Fld := ⟨0x0, 2, 2⟩
def F.HBM_STATUS_throttled : Fld := ⟨0x0, 4, 1⟩
def F.HBM_STATUS_hot : Fld := ⟨0x0, 5, 1⟩
def F.HBM_STATUS_ca_parity : Fld := ⟨0x0, 6, 1⟩
def F.HBM_TEMP_now : Fld := ⟨0x8, 0, 8⟩
def F.HBM_TEMP_max : Fld := ⟨0x8, 8, 8⟩
def F.HBM_TEMP_clear : Fld := ⟨0x8, 16, 1⟩
def F.HBM_ECC_COUNTS_corrected : Fld := ⟨0x10, 0, 32⟩
def F.HBM_ECC_COUNTS_uncorrectable : Fld := ⟨0x10, 32, 16⟩
def F.HBM_ECC_COUNTS_dropped_writes : Fld := ⟨0x10, 48, 16⟩
def F.HBM_LAST_UE_addr : Fld := ⟨0x38, 0, 64⟩
def F.HBM_RET_STATUS_state : Fld := ⟨0x18, 0, 2⟩
def F.HBM_RET_STATUS_entries : Fld := ⟨0x18, 2, 13⟩
def F.HBM_RET_STATUS_pending : Fld := ⟨0x18, 15, 7⟩
def F.HBM_RET_STATUS_dropped : Fld := ⟨0x18, 22, 10⟩
def F.HBM_RET_STATUS_generation : Fld := ⟨0x18, 32, 32⟩
def F.HBM_RET_CTRL_op : Fld := ⟨0x20, 0, 3⟩
def F.HBM_RET_CTRL_auto_swap : Fld := ⟨0x20, 8, 1⟩
def F.HBM_RET_ADD_pc : Fld := ⟨0x28, 0, 5⟩
def F.HBM_RET_ADD_bank : Fld := ⟨0x28, 8, 6⟩
def F.HBM_RET_ADD_row : Fld := ⟨0x28, 16, 16⟩
def F.HBM_RET_SWAP_TN_tn : Fld := ⟨0x30, 0, 64⟩
def F.HBM_ERASE_line_a (i : Nat) : Fld := ⟨0x100 + 8 * i, 0, 6⟩
def F.HBM_ERASE_valid_a (i : Nat) : Fld := ⟨0x100 + 8 * i, 6, 1⟩
def F.HBM_ERASE_line_b (i : Nat) : Fld := ⟨0x100 + 8 * i, 8, 6⟩
def F.HBM_ERASE_valid_b (i : Nat) : Fld := ⟨0x100 + 8 * i, 14, 1⟩
def F.HBM_ERASE_limit (i : Nat) : Fld := ⟨0x100 + 8 * i, 15, 1⟩
def F.LNK_CFG_profile : Fld := ⟨0x0, 0, 1⟩
def F.LNK_CFG_spare_en : Fld := ⟨0x0, 1, 1⟩
def F.LNK_STATUS_state : Fld := ⟨0x8, 0, 3⟩
def F.LNK_STATUS_half : Fld := ⟨0x8, 3, 1⟩
def F.LNK_STATUS_spare_for : Fld := ⟨0x8, 4, 4⟩
def F.LNK_STATUS_bad_lanes : Fld := ⟨0x8, 8, 9⟩
def F.LNK_STATUS_peer : Fld := ⟨0x8, 32, 16⟩
def F.LNK_STATUS_retrains : Fld := ⟨0x8, 48, 16⟩
def F.LNK_CTRL_op : Fld := ⟨0x10, 0, 2⟩
def F.LNK_EVENT_down : Fld := ⟨0x18, 0, 1⟩
def F.LNK_EVENT_train_fail : Fld := ⟨0x18, 1, 1⟩
def F.LNK_EVENT_peer_mismatch : Fld := ⟨0x18, 2, 1⟩
def F.LNK_EVENT_digest_mismatch : Fld := ⟨0x18, 3, 1⟩
def F.LNK_EVENT_half_width : Fld := ⟨0x18, 4, 1⟩
def F.LNK_EVENT_lane_bad : Fld := ⟨0x18, 5, 1⟩
def F.LNK_EVENT_stall : Fld := ⟨0x18, 6, 1⟩
def F.LNK_EVENT_ucie_slow : Fld := ⟨0x18, 7, 1⟩
def F.LNK_ERRS_crc_fail : Fld := ⟨0x20, 0, 32⟩
def F.LNK_ERRS_retries : Fld := ⟨0x20, 32, 32⟩
def F.LNK_FEC_corrected : Fld := ⟨0x28, 0, 32⟩
def F.LNK_FEC_uncorrectable : Fld := ⟨0x28, 32, 32⟩
def F.LNK_DROPS_no_route : Fld := ⟨0x30, 0, 16⟩
def F.LNK_DROPS_hop_limit : Fld := ⟨0x30, 16, 16⟩
def F.LNK_DROPS_stall : Fld := ⟨0x30, 32, 16⟩
def F.LNK_DROPS_bad_packet : Fld := ⟨0x30, 48, 16⟩
def F.HUB_GRP_STATUS_state : Fld := ⟨0x400, 0, 2⟩
def F.HUB_GRP_STATUS_quorum : Fld := ⟨0x400, 2, 1⟩
def F.HUB_GRP_STATUS_anchor_present : Fld := ⟨0x400, 3, 1⟩
def F.HUB_GRP_STATUS_present : Fld := ⟨0x400, 16, 15⟩
def F.HUB_GRP_STATUS_tn_low : Fld := ⟨0x400, 40, 24⟩
def F.HUB_GRP_COUNTS_foreign : Fld := ⟨0x408, 0, 32⟩
def F.HUB_GRP_COUNTS_fenced_drops : Fld := ⟨0x408, 32, 32⟩
def F.HUB_GRP_PRESENT_present (i : Nat) : Fld := ⟨0x2000 + 8 * i, 0, 64⟩
def F.HUB_SNAP_PLAN_addr : Fld := ⟨0x500, 0, 64⟩
def F.HUB_SNAP_CFG_interval : Fld := ⟨0x508, 0, 16⟩
def F.HUB_SNAP_CFG_align_to_data : Fld := ⟨0x508, 16, 1⟩
def F.HUB_SNAP_CFG_auto_shelf : Fld := ⟨0x508, 17, 1⟩
def F.HUB_SNAP_CFG_commit_ms : Fld := ⟨0x508, 32, 32⟩
def F.HUB_SNAP_CTRL_op : Fld := ⟨0x510, 0, 3⟩
def F.HUB_SNAP_STATUS_state : Fld := ⟨0x518, 0, 3⟩
def F.HUB_SNAP_STATUS_released : Fld := ⟨0x518, 3, 1⟩
def F.HUB_SNAP_STATUS_overdue : Fld := ⟨0x518, 4, 1⟩
def F.HUB_SNAP_STATUS_slot : Fld := ⟨0x518, 5, 1⟩
def F.HUB_SNAP_STATUS_error : Fld := ⟨0x518, 8, 8⟩
def F.HUB_SNAP_STATUS_snapshot : Fld := ⟨0x518, 32, 32⟩
def F.HUB_SNAP_LAST_snapshot : Fld := ⟨0x520, 0, 32⟩
def F.HUB_SNAP_LAST_slot : Fld := ⟨0x520, 32, 1⟩
def F.HUB_SNAP_LAST_valid : Fld := ⟨0x520, 33, 1⟩
def F.HUB_SNAP_LAST_witness : Fld := ⟨0x520, 34, 1⟩
def F.HUB_SNAP_LAST_STEP_step : Fld := ⟨0x528, 0, 64⟩
def F.HUB_SNAP_SRC_holder : Fld := ⟨0x530, 0, 16⟩
def F.HUB_SNAP_SRC_kind : Fld := ⟨0x530, 16, 1⟩
def F.HUB_SNAP_SRC_slot : Fld := ⟨0x530, 17, 1⟩
def F.HUB_SNAP_SRC_shelf : Fld := ⟨0x530, 24, 8⟩
def F.HUB_SNAP_SRC_snapshot : Fld := ⟨0x530, 32, 32⟩
def F.HUB_SNAP_SHELF_shelves : Fld := ⟨0x538, 0, 8⟩
def F.HUB_SNAP_SHELF_shelf_lbas : Fld := ⟨0x538, 32, 32⟩
def F.HUB_SNAP_SHELF_STATUS_state : Fld := ⟨0x540, 0, 2⟩
def F.HUB_SNAP_SHELF_STATUS_newest : Fld := ⟨0x540, 8, 8⟩
def F.HUB_SNAP_SHELF_STATUS_newest_valid : Fld := ⟨0x540, 16, 1⟩
def F.HUB_SNAP_SHELF_STATUS_pending : Fld := ⟨0x540, 17, 1⟩
def F.HUB_SNAP_SHELF_STATUS_snapshot : Fld := ⟨0x540, 32, 32⟩
def F.HUB_SNAP_RESULT_replay : Fld := ⟨0x548, 0, 2⟩
def F.HUB_SNAP_RESULT_restored : Fld := ⟨0x548, 2, 1⟩
def F.HUB_SNAP_RESULT_aligned : Fld := ⟨0x548, 16, 11⟩
def F.HUB_SNAP_RESULT_bad_tensor : Fld := ⟨0x548, 32, 32⟩
def F.SAFE_STATUS_degraded : Fld := ⟨0x40000, 0, 1⟩
def F.SAFE_STATUS_uncontained : Fld := ⟨0x40000, 1, 1⟩
def F.SAFE_STATUS_untrusted : Fld := ⟨0x40000, 2, 1⟩
def F.SAFE_CTRL_vector : Fld := ⟨0x40008, 0, 11⟩
def F.SAFE_CTRL_irq_en : Fld := ⟨0x40008, 16, 1⟩
def F.SAFE_CTRL_op : Fld := ⟨0x40008, 24, 3⟩
def F.SAFE_REC_PTR_write : Fld := ⟨0x40010, 0, 9⟩
def F.SAFE_REC_PTR_read : Fld := ⟨0x40010, 16, 9⟩
def F.SAFE_REC_PTR_lost : Fld := ⟨0x40010, 32, 32⟩
def F.SAFE_COUNTS_corrected : Fld := ⟨0x40018, 0, 32⟩
def F.SAFE_COUNTS_contained : Fld := ⟨0x40018, 32, 16⟩
def F.SAFE_COUNTS_uncontained : Fld := ⟨0x40018, 48, 16⟩
def F.SAFE_REPAIR_die : Fld := ⟨0x40020, 0, 3⟩
def F.SAFE_REPAIR_row : Fld := ⟨0x40020, 4, 4⟩
def F.SAFE_REPAIR_column : Fld := ⟨0x40020, 8, 4⟩
def F.SAFE_REPAIR_op : Fld := ⟨0x40020, 16, 3⟩
def F.SAFE_REPAIR_STATUS_state : Fld := ⟨0x40028, 0, 2⟩
def F.SAFE_REPAIR_STATUS_elapsed_us : Fld := ⟨0x40028, 32, 32⟩
def F.SAFE_STATION_FAILED_failed : Fld := ⟨0x40030, 0, 64⟩
def F.SAFE_ST_AGE_age_ms (i : Nat) : Fld := ⟨0x40100 + 8 * i, 0, 32⟩
def F.SAFE_ST_AGE_degraded (i : Nat) : Fld := ⟨0x40100 + 8 * i, 32, 1⟩
def F.SAFE_ST_AGE_skipped (i : Nat) : Fld := ⟨0x40100 + 8 * i, 48, 16⟩
def F.SAFE_SITE_state (i : Nat) : Fld := ⟨0x41000 + 8 * i, 0, 32⟩
def F.SAFE_AGE_spad_words (i : Nat) : Fld := ⟨0x42000 + 8 * i, 0, 16⟩
def F.SAFE_AGE_cache_parity (i : Nat) : Fld := ⟨0x42000 + 8 * i, 16, 16⟩
def F.SAFE_AGE_lifetime (i : Nat) : Fld := ⟨0x42000 + 8 * i, 32, 32⟩
def F.PWR_STATUS_state : Fld := ⟨0x30000, 0, 3⟩
def F.PWR_STATUS_step : Fld := ⟨0x30000, 3, 4⟩
def F.PWR_STATUS_warm : Fld := ⟨0x30000, 7, 1⟩
def F.PWR_STATUS_retained : Fld := ⟨0x30000, 8, 1⟩
def F.PWR_STATUS_warm_fails : Fld := ⟨0x30000, 9, 3⟩
def F.PWR_STATUS_cold_fails : Fld := ⟨0x30000, 12, 3⟩
def F.PWR_STATUS_failed : Fld := ⟨0x30000, 15, 1⟩
def F.PWR_STATUS_fail_code : Fld := ⟨0x30000, 16, 8⟩
def F.PWR_STATUS_hbm_kept : Fld := ⟨0x30000, 24, 1⟩
def F.PWR_STATUS_elapsed_ms : Fld := ⟨0x30000, 32, 32⟩
def F.PWR_CTRL_op : Fld := ⟨0x30008, 0, 3⟩
def F.PWR_INPUT_mv : Fld := ⟨0x30010, 0, 16⟩
def F.PWR_INPUT_current : Fld := ⟨0x30010, 16, 16⟩
def F.PWR_INPUT_watts : Fld := ⟨0x30010, 32, 16⟩
def F.PWR_BUDGET_sustained_w : Fld := ⟨0x30018, 0, 16⟩
def F.PWR_BUDGET_peak_w : Fld := ⟨0x30018, 16, 16⟩
def F.PWR_BUDGET_average_w : Fld := ⟨0x30018, 32, 16⟩
def F.PWR_BUDGET_max_10ms_w : Fld := ⟨0x30018, 48, 16⟩
def F.PWR_EVENT_input_range : Fld := ⟨0x30020, 0, 1⟩
def F.PWR_EVENT_thermal_throttle : Fld := ⟨0x30020, 1, 1⟩
def F.PWR_EVENT_thermal_halt : Fld := ⟨0x30020, 2, 1⟩
def F.PWR_EVENT_power_throttle : Fld := ⟨0x30020, 3, 1⟩
def F.PWR_EVENT_domain_fault : Fld := ⟨0x30020, 4, 1⟩
def F.PWR_EVENT_start_failed : Fld := ⟨0x30020, 5, 1⟩
def F.PWR_EVENT_recovery : Fld := ⟨0x30020, 6, 1⟩
def F.PWR_EVENT_wake_done : Fld := ⟨0x30020, 7, 1⟩
def F.PWR_EVENT_shelf_attach_fail : Fld := ⟨0x30020, 8, 1⟩
def F.PWR_STEP_us (i : Nat) : Fld := ⟨0x30100 + 8 * i, 0, 32⟩
def F.PWR_STEP_done (i : Nat) : Fld := ⟨0x30100 + 8 * i, 32, 1⟩
def F.PWR_STEP_skipped (i : Nat) : Fld := ⟨0x30100 + 8 * i, 33, 1⟩
def F.PWR_STEP_failed (i : Nat) : Fld := ⟨0x30100 + 8 * i, 34, 1⟩
def F.PWR_DOMAIN_mv (i : Nat) : Fld := ⟨0x30200 + 8 * i, 0, 16⟩
def F.PWR_DOMAIN_on (i : Nat) : Fld := ⟨0x30200 + 8 * i, 16, 1⟩
def F.PWR_DOMAIN_fault (i : Nat) : Fld := ⟨0x30200 + 8 * i, 17, 1⟩
def F.PWR_DOMAIN_current (i : Nat) : Fld := ⟨0x30200 + 8 * i, 32, 32⟩
def F.PWR_DIE_temp (i : Nat) : Fld := ⟨0x30300 + 8 * i, 0, 8⟩
def F.PWR_DIE_share (i : Nat) : Fld := ⟨0x30300 + 8 * i, 8, 5⟩
def F.PWR_DIE_ramp (i : Nat) : Fld := ⟨0x30300 + 8 * i, 16, 5⟩
def F.PWR_DIE_thermal (i : Nat) : Fld := ⟨0x30300 + 8 * i, 24, 1⟩
def F.PWR_DIE_power (i : Nat) : Fld := ⟨0x30300 + 8 * i, 25, 1⟩
def F.PWR_DIE_halted (i : Nat) : Fld := ⟨0x30300 + 8 * i, 26, 1⟩
def F.PWR_DIE_throttled_us (i : Nat) : Fld := ⟨0x30300 + 8 * i, 32, 32⟩
def F.SEC_STATUS_lifecycle : Fld := ⟨0x20000, 0, 2⟩
def F.SEC_STATUS_debug : Fld := ⟨0x20000, 2, 1⟩
def F.SEC_STATUS_debug_key : Fld := ⟨0x20000, 3, 3⟩
def F.SEC_STATUS_boot_bank : Fld := ⟨0x20000, 8, 1⟩
def F.SEC_STATUS_boot_ok : Fld := ⟨0x20000, 9, 1⟩
def F.SEC_STATUS_recovery : Fld := ⟨0x20000, 10, 1⟩
def F.SEC_FUSE_svn : Fld := ⟨0x20008, 0, 7⟩
def F.SEC_FUSE_image_svn : Fld := ⟨0x20008, 8, 8⟩
def F.SEC_FUSE_debug_opens : Fld := ⟨0x20008, 16, 8⟩
def F.SEC_OWNER_registered (i : Nat) : Fld := ⟨0x20010 + 8 * i, 0, 1⟩
def F.SEC_OWNER_revoked (i : Nat) : Fld := ⟨0x20010 + 8 * i, 1, 1⟩
def F.SEC_OWNER_hash_low (i : Nat) : Fld := ⟨0x20010 + 8 * i, 8, 56⟩
def F.SEC_NONCE_nonce (i : Nat) : Fld := ⟨0x20100 + 1024 * i, 0, 64⟩
def F.SEC_CMD_CTRL_op (i : Nat) : Fld := ⟨0x20108 + 1024 * i, 0, 2⟩
def F.SEC_CMD_RESULT_code (i : Nat) : Fld := ⟨0x20110 + 1024 * i, 0, 8⟩
def F.SEC_CMD_RESULT_done (i : Nat) : Fld := ⟨0x20110 + 1024 * i, 8, 1⟩
def F.SEC_CMD_RESULT_offset (i : Nat) : Fld := ⟨0x20110 + 1024 * i, 32, 32⟩
def F.TILE_EVT_CFG_mask : Fld := ⟨0x2800, 0, 2⟩
def F.TILE_EVT_PTR_next (i : Nat) : Fld := ⟨0x2808 + 8 * i, 0, 8⟩
def F.TILE_EVT_PTR_wrapped (i : Nat) : Fld := ⟨0x2808 + 8 * i, 8, 1⟩
def F.TILE_EVT_PTR_frozen (i : Nat) : Fld := ⟨0x2808 + 8 * i, 9, 1⟩
def F.TILE_EVT_PTR_reason (i : Nat) : Fld := ⟨0x2808 + 8 * i, 10, 2⟩
def F.TILE_EVT_PTR_lost (i : Nat) : Fld := ⟨0x2808 + 8 * i, 16, 16⟩
def F.TILE_EVT_PTR_total (i : Nat) : Fld := ⟨0x2808 + 8 * i, 32, 32⟩
def F.TILE_DIG_CFG_fmt (i : Nat) : Fld := ⟨0x3000 + 256 * i, 0, 2⟩
def F.TILE_DIG_CFG_base (i : Nat) : Fld := ⟨0x3000 + 256 * i, 8, 56⟩
def F.TILE_DIG_STATUS_next (i : Nat) : Fld := ⟨0x3008 + 256 * i, 0, 56⟩
def F.TILE_DIG_STATUS_incomplete (i : Nat) : Fld := ⟨0x3008 + 256 * i, 56, 1⟩
def F.TILE_DIG_STATUS_busy (i : Nat) : Fld := ⟨0x3008 + 256 * i, 57, 1⟩
def F.TILE_DIG_COUNT_count (i : Nat) : Fld := ⟨0x3010 + 256 * i, 0, 48⟩
def F.TILE_DIG_NANSAT_nan (i : Nat) : Fld := ⟨0x3018 + 256 * i, 0, 32⟩
def F.TILE_DIG_NANSAT_sat (i : Nat) : Fld := ⟨0x3018 + 256 * i, 32, 32⟩
def F.TILE_DIG_MIN_value (i : Nat) : Fld := ⟨0x3020 + 256 * i, 0, 40⟩
def F.TILE_DIG_MAX_value (i : Nat) : Fld := ⟨0x3028 + 256 * i, 0, 40⟩
def F.TILE_DIG_MEAN_value (i : Nat) : Fld := ⟨0x3030 + 256 * i, 0, 40⟩
def F.TILE_DIG_LO_digest (i : Nat) : Fld := ⟨0x3038 + 256 * i, 0, 64⟩
def F.TILE_DIG_HI_digest (i : Nat) : Fld := ⟨0x3040 + 256 * i, 0, 64⟩
def F.TILE_DIG_SUM_raw (i : Nat) : Fld := ⟨0x3050 + 256 * i, 0, 64⟩
def F.TILE_DIG_ABS_raw (i : Nat) : Fld := ⟨0x3080 + 256 * i, 0, 64⟩
def F.HUB_CNT_bytes (i : Nat) : Fld := ⟨0x4000 + 8 * i, 0, 64⟩
def F.HUB_CNT_TN_tn (i : Nat) : Fld := ⟨0x4800 + 8 * i, 0, 64⟩
def F.HUB_CNT_SAMPLE_bytes (i : Nat) : Fld := ⟨0x5000 + 8 * i, 0, 64⟩
def F.HUB_DUMP_SRC_addr : Fld := ⟨0x600, 0, 64⟩
def F.HUB_DUMP_LEN_length : Fld := ⟨0x608, 0, 35⟩
def F.HUB_DUMP_DST_addr : Fld := ⟨0x610, 0, 64⟩
def F.HUB_DUMP_STEP_step : Fld := ⟨0x618, 0, 64⟩
def F.HUB_DUMP_CTRL_op : Fld := ⟨0x620, 0, 2⟩
def F.HUB_DUMP_CTRL_dst_space : Fld := ⟨0x620, 2, 1⟩
def F.HUB_DUMP_CTRL_tile : Fld := ⟨0x620, 16, 11⟩
def F.HUB_DUMP_STATUS_state : Fld := ⟨0x628, 0, 3⟩
def F.HUB_DUMP_STATUS_error : Fld := ⟨0x628, 8, 8⟩
def F.HUB_DUMP_STATUS_held : Fld := ⟨0x628, 32, 11⟩
def F.HUB_DUMP_DIG_LO_digest : Fld := ⟨0x630, 0, 64⟩
def F.HUB_DUMP_DIG_HI_digest : Fld := ⟨0x638, 0, 64⟩
def F.DBG_EVT_FREEZE_all : Fld := ⟨0x50108, 0, 1⟩
def F.HUB_FW_SRC_addr : Fld := ⟨0x700, 0, 64⟩
def F.HUB_FW_LEN_length : Fld := ⟨0x708, 0, 25⟩
def F.HUB_FW_RELAY_prev : Fld := ⟨0x710, 0, 16⟩
def F.HUB_FW_RELAY_next : Fld := ⟨0x710, 16, 16⟩
def F.HUB_FW_CTRL_op : Fld := ⟨0x718, 0, 3⟩
def F.HUB_FW_ACT_TN_tn : Fld := ⟨0x720, 0, 64⟩
def F.HUB_FW_STATUS_state : Fld := ⟨0x728, 0, 4⟩
def F.HUB_FW_STATUS_error : Fld := ⟨0x728, 8, 8⟩
def F.HUB_FW_STATUS_active_bank : Fld := ⟨0x728, 16, 1⟩
def F.HUB_FW_STATUS_relay_fail : Fld := ⟨0x728, 17, 1⟩
def F.HUB_FW_STATUS_settings_reset : Fld := ⟨0x728, 18, 1⟩
def F.HUB_FW_STATUS_fallback : Fld := ⟨0x728, 19, 1⟩
def F.HUB_FW_STATUS_trial_s : Fld := ⟨0x728, 32, 9⟩
def F.HUB_FW_PROGRESS_programmed : Fld := ⟨0x730, 0, 13⟩
def F.HUB_FW_PROGRESS_forwarded : Fld := ⟨0x730, 16, 13⟩
def F.HUB_FW_PROGRESS_chunks : Fld := ⟨0x730, 32, 13⟩
def F.HUB_FW_PROGRESS_refused : Fld := ⟨0x730, 48, 16⟩
def F.HUB_FW_IMAGE_id : Fld := ⟨0x738, 0, 64⟩
def F.HUB_FW_VERSION_version : Fld := ⟨0x740, 0, 64⟩
def F.HUB_BAR2_WINDOW_base : Fld := ⟨0x800, 30, 18⟩
def F.HUB_PCIE_STATUS_speed : Fld := ⟨0x808, 0, 4⟩
def F.HUB_PCIE_STATUS_width : Fld := ⟨0x808, 4, 5⟩
def F.HUB_PCIE_STATUS_link_up : Fld := ⟨0x808, 9, 1⟩
def F.HUB_PCIE_STATUS_dstate : Fld := ⟨0x808, 10, 2⟩
def F.HUB_PCIE_STATUS_retrains : Fld := ⟨0x808, 32, 32⟩
def F.HUB_PCIE_ERR_poisoned_rx : Fld := ⟨0x810, 0, 1⟩
def F.HUB_PCIE_ERR_link_down : Fld := ⟨0x810, 1, 1⟩
def F.HUB_PCIE_ERR_count : Fld := ⟨0x810, 32, 32⟩
def F.HUB_PCIE_EVT_vector : Fld := ⟨0x818, 0, 11⟩
def F.SHELF_STATUS_state : Fld := ⟨0x60000, 0, 2⟩
def F.SHELF_STATUS_speed : Fld := ⟨0x60000, 4, 4⟩
def F.SHELF_STATUS_width : Fld := ⟨0x60000, 8, 5⟩
def F.SHELF_STATUS_reason : Fld := ⟨0x60000, 16, 4⟩
def F.SHELF_STATUS_shelf_io : Fld := ⟨0x60000, 20, 1⟩
def F.SHELF_CFG_nsid : Fld := ⟨0x60008, 0, 32⟩
def F.SHELF_CTRL_op : Fld := ⟨0x60010, 0, 2⟩
def F.SHELF_NS_blocks : Fld := ⟨0x60018, 0, 64⟩
def F.SHELF_ERRS_io_errors : Fld := ⟨0x60020, 0, 32⟩
def F.SHELF_ERRS_resets : Fld := ⟨0x60020, 32, 16⟩
def F.SHELF_ERRS_wear : Fld := ⟨0x60020, 48, 16⟩
def F.TB_OSC_TRIM_factory : Fld := ⟨0x10100, 0, 16⟩
def F.TB_OSC_TRIM_user : Fld := ⟨0x10100, 16, 16⟩
def F.TB_TICKIN_OFFSET_factory : Fld := ⟨0x10108, 0, 16⟩
def F.TB_TICKIN_OFFSET_user : Fld := ⟨0x10108, 16, 16⟩
def F.TB_LINK_DELAY_factory (i : Nat) : Fld := ⟨0x10200 + 8 * i, 0, 16⟩
def F.TB_LINK_DELAY_user (i : Nat) : Fld := ⟨0x10200 + 8 * i, 16, 16⟩
def F.TB_LINK_DELAY_measured (i : Nat) : Fld := ⟨0x10200 + 8 * i, 32, 32⟩
def F.TB_SENSOR_TRIM_factory (i : Nat) : Fld := ⟨0x10300 + 8 * i, 0, 16⟩
def F.TB_SENSOR_TRIM_user (i : Nat) : Fld := ⟨0x10300 + 8 * i, 16, 16⟩

end Sys2Proof.Machine
end

