-- ==== Sys2Proof/Machine/State.lean ====
section
/-! DEFINITION. The state of one PK2: every register, memory, queue, buffer and mode the spec gives it, as plain data.
Registers live in sparse maps of 64-bit words by offset (`Regs`); what the spec describes without a register has a field. -/

namespace Sys2Proof.Machine

/-- A byte memory: the listed cells, addresses strictly rising. An unlisted byte reads 0 when `undef` is none (log 2), and the
free byte `Config.freeByte g a` after the event number `g` that made the contents undefined. No listed byte is 0 when
`undef` is none. -/
structure Mem where
  cells : List Host.Cell := []
  undef : Option Nat := none
  deriving DecidableEq, Repr

/-- The names of what the spec says is logged or raised. -/
inductive EvName where
  | REG_MISALIGNED | REG_LOCKED | TILE_ABSENT | BRIDGE_NAK | BRIDGE_RETRAIN | BRIDGE_DOWN | BRIDGE_HALF_WIDTH | BRIDGE_LANE_BAD
  | UCIE_SLOW | FIREWALL_DENIED | OE_ISOLATED | DIE_MISMATCH | TAP_SHIFT
  | STOW_ERROR | STOW_SWAP_REFUSED | STOW_APPLIED | CHAIN_MISMATCH
  | TICK_FRAME_BAD | TICK_LOCK_FAIL | TICK_LOST | TICK_TN_MISMATCH | TB_ACT_REFUSED | TB_ACT_MISSED | STOP_BUSY | STOP_PORT_OPEN
  | TRIM_CLAMPED | ACCESS_DENIED | ADDR_UNMAPPED | PWR_ASLEEP | MANUAL_SET_REFUSED | RED_DROPPED | VAULT_EXCESS | VAULT_RANGE
  | HBM_LINE_ERASED | HBM_LINE_LIMIT | HBM_HOT | HBM_RETIRE_FULL | HBM_ROW_RETIRED | HBM_SWAP_REFUSED | HBM_CA_PARITY | HBM_LATE
  | HBM_RET_BUSY | AGEING_HBM | FE_DB_IGNORED | FE_Q_BUSY | FE_Q_BADCFG | BAY_RESET | QUEUE_GUILTY | SAFETY_DEGRADED | ERROR_RECORD
  | PWR_INPUT | PWR_DOMAIN | BOOT_FAIL | HBM_TRAIN_FAIL | HBM_TEST_FAIL | PWR_ROW_LOST | STEP_TIMEOUT | START_FAILED
  | THERMAL_THROTTLE | THERMAL_HALT | THERMTRIP | SHELF_ATTACH_FAIL | LNK_DOWN | LNK_TRAIN_FAIL | LNK_PEER_MISMATCH
  | LNK_DIGEST_MISMATCH | LNK_HALF_WIDTH | LNK_LANE_BAD | LNK_RETRAIN | SNAP_ERROR | SNAP_OVERDUE | SNAP_RELEASED | SNAP_COPY_FAIL | SHELF_IO
  | FW_ERROR | FW_FALLBACK | FW_SETTINGS_RESET | DUMP_ERROR | PCIE_POISONED | PCIE_LINK_DOWN | I3C_IBI | SAFETY_STOP | RESTORE_DONE
  deriving DecidableEq, Repr

/-- One event raised or logged, with its arguments. -/
structure Ev where
  name : EvName
  args : List Nat := []
  deriving DecidableEq, Repr

/-- What the device sends, on its own mesh or outside. -/
inductive Out where
  /-- A posted write to a host bus address (11 R248). -/
  | hostWrite (addr : Nat) (data : List Byte)
  /-- A read of host memory, `n` bytes; 0 is the confirming read of 10 R229. -/
  | hostRead (addr n : Nat)
  /-- A completion returned to the host, a shelf device or another requester: data, or all ones, with a status. -/
  | completion (status : Status) (data : List Byte)
  /-- Request Retry Status, to a configuration request (22 R454). -/
  | retryStatus
  /-- An MSI-X message (22 R452). -/
  | msix (vector : Nat)
  /-- A request or response on the mesh, or to another device (10 R223). -/
  | write (r : Req) (lc : Nat) (data : List Byte)
  | read (r : Req) (n : Nat)
  | readResp (dev tile tag epoch : Nat) (status : Status) (data : List Byte) (cacheable : Bool)
  | landAck (dev tile tag epoch : Nat) (status : Status) (lc bytes : Nat)
  | sigStatus (dev tile tag epoch : Nat) (status : Status)
  | signal (r : Req) (ctr n : Nat)
  /-- Tile `t` sends its abort, finish or quiescence to the hub (08 R182, R184, R185). -/
  | tileAbort (t : Nat) | tileFinished (t : Nat) | tileQuiescent (t : Nat)
  /-- A chain row to the next local hop (09 R188), and a vault contribution to a station of this device (R194). -/
  | chainRow (t chain row : Nat) (vals : List (BitVec 40))
  | vaultRow (station src round row : Nat) (vals : RowVals)
  /-- An UNREACHABLE notice to a tile of this device (15 R330). -/
  | unreachable (tile tag epoch reason lost : Nat)
  /-- A packet that port `p` received whole, handed on to its target in the device (15 R328). -/
  | deliver (p : Nat) (bytes : List Byte)
  /-- A flit on port `p`'s wire (15 R322), or on a die-bridge bundle in direction `b` (01 R16). -/
  | flit (p : Nat) (bytes : List Byte)
  | bridgeFlit (b : Nat) (bytes : List Byte)
  /-- The 248 payload bytes of a mesh flit that end `b` took in order, handed on to the mesh on channel `vc` (01 R17). -/
  | bridgeData (b vc : Nat) (bytes : List Byte)
  /-- An SPDM response (19 R417), an I3C response or in-band interrupt (22 R460 to R462). -/
  | spdm (bytes : List Byte)
  | i3c (bytes : List Byte)
  | ibi (mandatory : Nat)
  /-- A request through the shelf window to the controller's BARs (04 R69, 22 R458), or the engine's own (22 R457). -/
  | shelf (write : Bool) (off n : Nat) (data : List Byte)
  /-- TDO of the test access port (01 R24). -/
  | tdo (bit : Bool)
  /-- A write of the boot flash (21) or of a fuse (19 R404). -/
  | flash (area off : Nat) (data : List Byte)
  | fuse (name val : Nat)
  deriving DecidableEq, Repr

/-- An end of a route of the mesh (10 R224): the hub with all that hangs on it, a site of a die, or an HBM controller beside a die, south of
a column. -/
inductive Node where
  | hub
  | site (die row col : Nat)
  | stack (die col : Nat)
  deriving DecidableEq, Repr

/-- A mesh flit on its way (10 R223, R224): its channel, its payload, the payload bytes that the byte counters count with it (20 R434), and where
it goes. -/
structure MeshFlit where
  vc      : Nat
  payload : List Byte
  bytes   : Nat
  dst     : Node
  deriving DecidableEq, Repr

/-- One end of a die-bridge bundle (01 R15 to R19, 17 R380): it receives the direction it is numbered by, and sends the opposite one. `sent`: the
flits not acknowledged, by number, with the mesh flit that each carries; `held`: mesh flits that wait to be sent; `owed`: credits to return, by
channel; `asks`: lanes whose retrain request waits to be sent; `spares`: received lanes that a spare serves; `txSpares`: the same of the lanes
it sends on. -/
structure Bundle where
  expect   : Nat := 0
  failing  : Option Nat := none
  failed   : List (List Byte) := []
  fails    : Nat := 0
  retrains : Nat := 0
  training : Bool := false
  down     : Bool := false
  sent     : List (Nat × List Byte × Option MeshFlit) := []
  nextSeq  : Nat := 0
  acked    : Nat := 255
  credits  : KMap Nat := []
  retries  : List (List Nat) := []
  bits     : List (Nat × Nat × Nat) := []
  bad      : List Nat := []
  spares   : List Nat := []
  half     : Option Bool := none
  held     : List MeshFlit := []
  owed     : KMap Nat := []
  asks     : List Nat := []
  txSpares : List Nat := []
  deriving DecidableEq, Repr

/-- One optical engine (01 R20, R21). -/
structure OptEng where
  denials  : Nat := 0
  isolated : Bool := false
  trained  : Bool := false
  slow     : Bool := false
  aperture : Mem := {}
  deriving DecidableEq, Repr

/-- The sixteen states of an IEEE 1149.1 controller (01 R24; PRESUMED, log 26). -/
inductive TapState where
  | reset | idle | selDr | capDr | shDr | ex1Dr | pauDr | ex2Dr | updDr | selIr | capIr | shIr | ex1Ir | pauIr | ex2Ir | updIr
  deriving DecidableEq, Repr

/-- The test access port (01 R24, R25). -/
structure Tap where
  st     : TapState := .reset
  ir     : List Bool := []
  dr     : List Bool := []
  bypass : Bool := false
  last   : Bool := false
  deriving DecidableEq, Repr

/-- A row entry of SITE_MAP (02). -/
structure RowMap where
  skip1  : Nat := 15
  skip2  : Nat := 15
  absent : Bool := false
  deriving DecidableEq, Repr

/-- A BAYS entry; the tiles ascending. -/
structure BayDef where
  id      : Nat
  accMode : Nat
  tiles   : List Nat
  deriving DecidableEq, Repr

/-- A hop of a chain: kind 0 a local tile, 1 the entry device, 2 the exit device. -/
structure Hop where
  id   : Nat
  kind : Nat
  deriving DecidableEq, Repr

structure ChainDef where
  id   : Nat
  bay  : Nat
  hops : List Hop
  deriving DecidableEq, Repr

structure VaultDef where
  bay          : Nat := 255
  readout      : Nat := 0
  forwardTo    : Nat := 65535
  contributors : Nat := 1
  deriving DecidableEq, Repr

structure Region where
  base  : Nat
  size  : Nat
  id    : Nat
  scope : Nat
  die   : Nat
  attr  : Nat
  deriving DecidableEq, Repr

structure AccRec where
  target : Nat
  master : Nat
  perms  : Nat
  deriving DecidableEq, Repr

structure LinkRange where
  lo        : Nat
  hi        : Nat
  primary   : Nat
  alternate : Nat
  deriving DecidableEq, Repr

/-- A stowage image, parsed (02 R26 to R37). `ports` maps an enabled port to its peer; `members` ascend. The byte strings are
kept for R37 and R43. -/
structure Image where
  deviceId   : Nat := 0
  uid        : Nat := 0
  generation : Nat := 0
  cap        : Nat := 0
  rows       : KMap RowMap := []
  bays       : List BayDef := []
  chains     : List ChainDef := []
  vaults     : List VaultDef := []
  spadBase   : Nat := 0
  loftBase   : Nat := 0
  loftSize   : Nat := 0
  regions    : List Region := []
  access     : List AccRec := []
  ports      : KMap Nat := []
  ranges     : List LinkRange := []
  anchor     : Nat := 0
  members    : List Nat := []
  source     : Nat := 2
  sourcePort : Nat := 0
  relayMask  : Nat := 0
  period     : Nat := 1000
  spaceRaw   : List Byte := []
  groupRaw   : List Byte := []
  tickRaw    : List Byte := []
  keyKind    : Nat := 0
  siteOff    : Nat := 0
  digest     : List Byte := []
  deriving DecidableEq, Repr

/-- The stowage block beside its registers (02). `copyOp`: the operation whose image is being copied and checked; `locked`: the RWL fields are
locked (R45; no field of the register tables is RWL). -/
structure Stow where
  inForce : Option Image := none
  staged  : Option Image := none
  copyOp  : Option Nat := none
  floor   : Nat := 0
  locked  : Bool := false
  deriving DecidableEq, Repr

/-- A tick action (03 R57). `bank`: 0 host, 1 CPC, 2 debug, 3 another block. -/
structure Act where
  slot : Nat
  tn   : Nat
  type : Nat
  arg  : Nat
  bank : Nat
  deriving DecidableEq, Repr

/-- The timebase beside its registers (03 R47 to R56). `srcTn`: the TN of the source's last edge, once known; `user`: the user offsets in use,
by register, as the last tick edge found them, 0 not listed (R67). -/
structure Timebase where
  edge     : Nat := 0
  run      : Nat := 0
  srcTn    : Option Nat := none
  missing  : Nat := 0
  badFrame : Nat := 0
  acqStart : Nat := 0
  source   : Nat := 2
  pend     : List Act := []
  due      : List Act := []
  user     : KMap Nat := []
  deriving DecidableEq, Repr

/-- The global stop beside TB_STOP_STATUS (03 R61 to R66): per port the logged packets, and the open ports given up; `early`: ports whose
STOP_DONE came before the stop instant; `held`: packets issued after it, which no egress takes; `replay`: logged packets, with their ports, that
a RESUME_REPLAY is about to apply. -/
structure Stop where
  at_     : Nat := 0
  sent    : Bool := false
  gaveUp  : Nat := 0
  transit : KMap (List (List Byte)) := []
  early   : List Nat := []
  held    : List (List Byte) := []
  replay  : Option (List (Nat × List Byte)) := none
  deriving DecidableEq, Repr

/-- An entry of a retirement table (14 R311): local pseudo-channel, bank, retired row, spare index. -/
structure Retire where
  pc    : Nat
  bank  : Nat
  row   : Nat
  spare : Nat
  deriving DecidableEq, Repr

/-- A corrected burst (14 R308): its place, its time, whether a scrub wrote it back, and whether an error was on no erased line. -/
structure Fixed where
  pc      : Nat
  bank    : Nat
  row     : Nat
  burst   : Nat
  time    : Nat
  scrub   : Bool
  offLine : Bool
  deriving DecidableEq, Repr

/-- One HBM stack beside its registers (14). `hist`: corrected bursts; `caErrs`: command and address parity errors (R302); `burnt`: failed spare rows (R311);
`charges`: per pseudo-channel the lines charged by each corrected burst, newest last, with its time; `scrub`: the next granule;
`cool85`, `cool95`: since when every reading has been 3 °C below the threshold; `saved`: the generation in the boot flash (R316). -/
structure Stack where
  regs    : Regs := []
  active  : List Retire := []
  build   : List Retire := []
  burnt   : List (Nat × Nat × Nat) := []
  pending : List (Nat × Nat × Nat) := []
  hist    : List Fixed := []
  charges : KMap (List (Nat × List Nat)) := []
  bad     : KMap Nat := []
  scrub   : KMap Nat := []
  caMark  : List Nat := []
  caErrs  : Nat := 0
  cool85  : Option Nat := none
  cool95  : Option Nat := none
  saved   : List Retire := []
  savedGen : Nat := 0
  deriving DecidableEq, Repr

/-- A command of an engine queue: its 64 bytes and the PC of the ENQ that pushed it (08 R176, R186). `seen`: it has stood at the head
of its queue; `rel`: its header wait has been released (12 R256); `seq`: its place in
the order of the tile's pushes (11 R251). -/
structure Cmd where
  bytes : List Byte := []
  pc    : Nat := 0
  rel   : Bool := false
  seen  : Bool := false
  seq   : Nat := 0
  deriving DecidableEq, Repr

/-- An outstanding global load, fetch or fill of S (08 R170, R172, R173). `kind`: 0 LD.G, 1 LD.GC, 2 fetch; `keep`: the line it brings may be
kept; `wait`: the tags of S's earlier stores to the location, until which its request stays in the tile (11 R235). -/
structure Load where
  tag  : Nat
  kind : Nat
  pc   : Nat
  rd   : Nat
  addr : Nat
  keep : Bool := true
  wait : List Nat := []
  deriving DecidableEq, Repr

/-- An outstanding remote write or SIGNAL.R of the tile (11 R233, R241, R242; 08 R170). `own`: a write into the tile's own scratchpad
window, which is no remote write (11 R232); `wait`: the tags of S's earlier loads of the location, until which it stays in the tile with its
`data` (R235); `out`: a loft write that has reached the hub (10 R221). -/
structure Store where
  tag    : Nat
  engine : Nat
  pc     : Nat
  addr   : Nat
  lc     : Nat
  bytes  : Nat
  time   : Nat
  signal : Bool
  own    : Bool := false
  out    : Bool := false
  wait   : List Nat := []
  data   : List Byte := []
  deriving DecidableEq, Repr

/-- A cache line: its global address and 64 bytes. -/
structure Line where
  addr : Nat
  data : List Byte
  deriving DecidableEq, Repr

/-- What S waits for (08 TILE_S_STATUS.stall). -/
inductive SWait where
  | none
  /-- A command that a full queue of engine `e` holds back (R176). -/
  | queueFull (e : Nat) (c : Cmd)
  | counter (ctr thr : Nat) (take acq : Bool)
  | landing (ctr thr : Nat) (acq : Bool)
  | fenceLocal
  /-- The issued byte total at the fence, and the tag from which writes are not covered (11 R241). -/
  | fenceRemote (issued upTo : Nat)
  /-- An instruction not yet issued: it waits for a load, a request place or PK1 ordering. -/
  | stalled
  deriving DecidableEq, Repr

/-- An accumulator check cell pair (06 R132): the sum and the sum of magnitudes. -/
structure Chk where
  sc : BitVec 40 := 0
  ac : BitVec 40 := 0
  deriving DecidableEq, Repr

/-- One entry of D's request table (10 R215): the request's tag, the number of its command, its phase (0 read outstanding, 1 write
outstanding, 2 flush read outstanding), its address and length, its place in the command's bytes, its time of issue. -/
structure DReq where
  tag   : Nat
  cmd   : Nat
  phase : Nat
  addr  : Nat
  n     : Nat
  idx   : Nat
  time  : Nat
  deriving DecidableEq, Repr

/-- A D command in progress (10 R209, R216): its number; its pattern as the 64 bytes of a D.COPY; the bytes fetched and the bytes
written so far in the order of R213; data read and not yet written, as (place, bytes) by rising place; the tags of its loft writes, the last loft byte written, the flush (0 not sent,
1 outstanding, 2 returned); the digest slot and the index of the next element it adds (20 R425), and the bytes moved of that element; what
an own-scratchpad read of it will meet. -/
structure DCmd where
  num    : Nat
  cmd    : Cmd
  pat    : List Byte
  pos    : Nat := 0
  wpos   : Nat := 0
  wr     : List (Nat × List Byte) := []
  loft   : List Nat := []
  last   : Option Nat := none
  flush  : Nat := 0
  isRun  : Bool := false
  dig    : Option (Nat × Nat) := none
  got    : List Byte := []
  ecc    : Ecc := .ok
  deriving DecidableEq, Repr

/-- A drained block in the drain buffer on its way along a chain (06 R127, 09 R188): the own rows not yet passed on, the number of the
first of them, and TILE_RED_CHAIN as the drain read it (R191). -/
structure Drain where
  cmd   : Cmd
  chain : Nat
  rows  : List (List (BitVec 40)) := []
  row   : Nat := 0
  dest  : Dword := 0
  deriving DecidableEq, Repr

/-- A cycle in which sync counters of a tile changed and no WAIT has been tested yet (12 R256, R261): its last step (0 to 3 a remote arrival
by its port, 4 M, 5 the chain unit, 6 V, 7 S, 8 D, 9 SET, 10 a manual SET, 11 TAKE), its time, TN and offset, and whether S had its one
operation of the cycle. -/
structure SyncCycle where
  step : Nat
  time : Nat
  tn   : Nat
  cyc  : Nat
  byS  : Bool
  deriving DecidableEq, Repr

/-- The M.MMA that still reads its operands: its command, and the bytes of the scratchpad that were overwritten since it started, each with the
value it held (11 R246). -/
structure MmaRun where
  cmd : Cmd
  was : List (Nat × Byte) := []
  deriving DecidableEq, Repr

/-- One logical tile (08, 06, 07, 10, 11, 12). `chainIn`: the incoming blocks of chains, each row with whether its addition will differ
between the two adders (09 R193); `chainHeld`: rows that credit holds back in the mesh (R190). `fails`: the tags of the writes that failed since LAUNCH (11 R242); `drainQ`: rows and records of a DRAIN not yet written, by
their offsets (06 R139). `pcOut`: the program counter has left its 24
bits, so the next fetch faults (08 R172). -/
structure Tile where
  regs     : Regs := []
  g        : KMap Word := []
  spad     : Mem := {}
  loads    : List Load := []
  stores   : List Store := []
  nextTag  : Nat := 0
  swait    : SWait := .none
  stallAt  : Nat := 0
  icache   : List Line := []
  dcache   : List Line := []
  stage    : KMap Word := []
  mq       : List Cmd := []
  vq       : List Cmd := []
  dq       : List Cmd := []
  mRun     : List Cmd := []
  vRun     : List Cmd := []
  dRun     : List DCmd := []
  acc      : KMap (BitVec 40) := []
  rowChk   : KMap Chk := []
  colChk   : KMap Chk := []
  blockSat : Bool := false
  kSteps   : Nat := 0
  drain    : Option Drain := none
  chainIn  : List (Nat × KMap (List (BitVec 40) × Bool)) := []
  chainHeld : List (Nat × Nat × List (BitVec 40) × Bool) := []
  vregs    : KMap (BitVec 2048) := []
  streams  : KMap (List Byte) := []
  reqs     : List DReq := []
  dNum     : Nat := 0
  gateReq  : Bool := false
  hold     : Bool := false
  pushes   : Nat := 0
  abortAt  : Nat := 0
  lastMma  : Nat := 0
  lastPass : Nat := 0
  fails    : List Nat := []
  drainQ   : List (Nat × List Byte) := []
  mmaRun   : Option MmaRun := none
  opened   : Option SyncCycle := none
  pcOut    : Bool := false
  deriving DecidableEq, Repr

/-- One vault station beside its registers (09 R193 to R206): the values and side flags of both banks by bank × 4,096 + row × 64 +
column, rows received and forwarders by bank; `live` from a LAUNCH to an abort; the returned rows of the round that waits, the
rounds whose drop was logged, and the rows that credit holds back in the mesh (R196): source, round, row, values, bank read, mismatch. -/
structure Vault where
  vals   : KMap (BitVec 320) := []
  flags  : KMap (BitVec 3) := []
  rows   : KMap Nat := []
  fwd    : KMap (List Nat) := []
  live   : Bool := false
  rets   : KMap (List Byte) := []
  drops  : List Nat := []
  held   : List (Nat × Nat × Nat × RowVals × Ecc × Bool) := []
  deriving DecidableEq, Repr

/-- The hub's record of one bay: the queue whose LAUNCH waits for it, when its abort began, its reset, its self-test. -/
structure Bay where
  holder    : Option Nat := none
  waiting   : List Nat := []
  finished  : List Nat := []
  aborted   : Bool := false
  abortAt   : Nat := 0
  resetAt   : Option Nat := none
  testing   : List Nat := []
  testSt    : List Nat := []
  testAt    : Nat := 0
  untested  : List Nat := []
  stopUntil : Nat := 0
  uncont    : Bool := false
  marks     : List Nat := []
  deriving DecidableEq, Repr

/-- A packet of a queue in progress (13 R275): ring packet or packet of a JUMP's buffer; `stage` by type. -/
structure Pkt where
  bytes   : List Byte
  inJump  : Bool := false
  started : Bool := false
  done    : Bool := false
  stage   : Nat := 0
  bay     : Option Nat := none
  left    : Nat := 0
  deriving DecidableEq, Repr

/-- One command queue beside its registers (13). `pkts`: fetched packets, oldest first; `fetchedTo`: index of the next ring packet
to fetch; `jump`: the indirect buffer being fetched (space, address, packets left); `timerAt`: when the timer last restarted;
`confirm`: fence writes waiting for their confirmation (what they report). -/
structure Queue where
  regs      : Regs := []
  retired   : Nat := 0
  pkts      : List Pkt := []
  fetchedTo : Nat := 0
  jump      : Option (Nat × Nat × Nat) := none
  timerAt   : Option Nat := none
  timerAcc  : Nat := 0
  confirm   : List Nat := []
  seqStep   : Nat := 0
  seqAt     : Nat := 0
  deriving DecidableEq, Repr

/-- One dispatcher's copy unit (13 R285): the queue it works for and the bytes of its COPY. -/
structure Disp where
  queue : Option Nat := none
  src   : Nat := 0
  dst   : Nat := 0
  len   : Nat := 0
  space : Nat := 0
  deriving DecidableEq, Repr

/-- One link port beside its registers (15). `marked`: bad lanes in the order of their marks (R321). Packets waiting at the egress per channel with their queueing time;
`store`: data flits sent or unsent and not acknowledged; `rx`: the packet words received so far. -/
structure Port where
  regs      : Regs := []
  expect    : Nat := 0
  nextSeq   : Nat := 0
  store     : List (Nat × List Byte) := []
  owners    : List (Nat × List Byte) := []
  egress    : List (Nat × List Byte) := []
  fails     : Nat := 0
  failSeq   : Option Nat := none
  retrain2  : Nat := 0
  credits   : KMap Nat := []
  rx        : List Byte := []
  trainAt   : Nat := 0
  nextHalf  : Bool := false
  marked    : List Nat := []
  deriving DecidableEq, Repr

/-- The group's membership record (15 R335 to R340): per member the newest period and the fenced flag. -/
structure Grp where
  latest : KMap Nat := []
  fenced : List Nat := []
  heard  : List (Nat × Nat) := []
  resume : Nat := 0
  deriving DecidableEq, Repr

/-- A tensor of a snapshot plan (16 R344). -/
structure Tensor where
  addr : Nat
  len  : Nat
  id   : Nat
  deriving DecidableEq, Repr

/-- A shelf copy being written (16 R359, R360): the snapshot, its origin and step, the slot that holds it, the shelf, the blocks after block 0,
the manifest's digest; `wit`: 0 no witness, 1 one that block 1 does not hold yet, 2 one that it holds; `phase`: 0 zeros to block 0, 1 data, 2 flush,
3 header, 4 last flush, 5 witness block after completion, 6 its flush, 7 header again, 8 its flush, 9 witness block before the header;
`next`: the next block of the slot image. -/
structure ShelfJob where
  number  : Nat
  origin  : Nat
  step    : Nat
  slot    : Nat
  shelf   : Nat
  blocks  : Nat
  digest  : List Byte
  wit     : Nat := 0
  phase   : Nat := 0
  next    : Nat := 0
  deriving DecidableEq, Repr

/-- The snapshot unit beside its registers (16): the plan's header of the last cut, its tensors, cursor records and captured streams
(tile, key, step); the cut's TN; copy bytes issued and acknowledged; at the coordinator, the snapshot not yet decided and the
time of its cut; the shelf copy in progress, the newest complete one, the number
that waits; the manifest of the last restore. -/
structure Snap where
  plan     : List Byte := []
  tensors  : List Tensor := []
  cursors  : List Byte := []
  keys     : List (Nat × Nat × Nat) := []
  cutTn    : Nat := 0
  issued   : Nat := 0
  acked    : Nat := 0
  coord    : Option (Nat × Nat) := none
  job      : Option ShelfJob := none
  newest   : Option ShelfJob := none
  waiting  : Option Nat := none
  manifest : List Byte := []
  deriving DecidableEq, Repr

/-- The safety monitor beside its registers (17): records since cold start, whether the ring is full, the entry of the newest record; marks waiting for a bay's release, 24-hour windows (site, kind, what, time),
the PRETEST site and whether its power has come (1) with its start, each station's last pass; ages count from `since` at the earliest. -/
structure Safe where
  recs     : Nat := 0
  full     : Nat := 0
  newest   : Nat := 0
  marks    : List Nat := []
  window   : List (Nat × Nat × Nat × Nat) := []
  pretest  : Option (Nat × Nat) := none
  stnPass  : KMap Nat := []
  since    : Nat := 0
  deriving DecidableEq, Repr

/-- The power controller beside its registers (18): supplies, the start in progress, sites powered and waiting for power, grants; the
thermal thresholds that hold (a mask by die, 8 the hub) and since when each has been cool (by 8 × die + threshold), the power share; the
times of the last mothball entry and of the wake. -/
structure Pwr where
  aux      : Bool := false
  v48      : Bool := false
  off      : Bool := true
  inputs   : Option StartIn := none
  startAt  : Nat := 0
  trip     : Bool := false
  coldKept : Nat := 0
  vioKept  : Bool := false
  resetHeld : Bool := false
  heldCold : Bool := false
  retained : Bool := false
  wakeAt   : Nat := 0
  mbAt     : Nat := 0
  sites    : List Nat := []
  siteQ    : KMap (List Nat) := []
  grants   : KMap Nat := []
  grantAt  : KMap Nat := []
  waiting  : KMap (List (Nat × Nat)) := []
  thermal  : KMap Nat := []
  coolAt   : KMap Nat := []
  power    : Nat := 16
  powerAt  : Nat := 0
  rampSet  : KMap Nat := []
  sitesKept : Bool := false
  deriving DecidableEq, Repr

/-- Security beside its registers (19): the fuses of R404, the boot record of this start, the bank whose command is being checked with the time
at which its check ends (R408). -/
structure Sec where
  uid       : Nat := 0
  vendorKey : Nat := 0
  secretId  : Nat := 0
  owners    : KMap Nat := []
  bootDone  : Bool := false
  bootImage : List Byte := []
  checking  : Option (Nat × Nat) := none
  deriving DecidableEq, Repr

/-- A tensor dump in progress (20 R432): the tiles held and the bay watched. -/
structure Dump where
  held : List Nat := []
  bay  : Nat := 0
  deriving DecidableEq, Repr

/-- The firmware store beside its registers (21): both banks, the recovery image and the settings area with the boot record (what the
factory wrote is unknown: free bytes); `active` during the service pause of R445, `preparing` while the inactive bank is erased. Of the
relay: the identifier, the length that STAGE was given, the chunks programmed, those waiting to be sent on, those sent and not
acknowledged as (index, tries, time), whether relaying was given up, and the chunks waiting to be programmed with their data and the source,
tile and tag of the RELAY that brought them. -/
structure Fw where
  bankA    : Mem := { undef := some 2 }
  bankB    : Mem := { undef := some 3 }
  recovery : Mem := { undef := some 4 }
  settings : KMap Nat := []
  active   : Bool := false
  preparing : Bool := false
  id       : Nat := 0
  count    : Nat := 0
  len      : Option Nat := none
  done     : List Nat := []
  toSend   : List Nat := []
  sent     : List (Nat × Nat × Nat) := []
  relayOff : Bool := false
  chunks   : List (Nat × List Byte × Option (Nat × Nat × Nat)) := []
  trialAt  : Nat := 0
  deriving DecidableEq, Repr

/-- The host link beside its registers (22 R449 to R454): the MSI-X table, its unmasked vectors, the pending ones and those held back, PERST_N, the
size of BAR2 in GiB. -/
structure Pcie where
  unmasked : List Nat := []
  table    : Mem := {}
  waiting  : List Nat := []
  held     : List Nat := []
  perst    : Bool := false
  bar2Gib  : Nat := 64
  deriving DecidableEq, Repr

/-- The shelf port beside its registers (22 R455 to R459): whether the engine holds the controller, the namespace of the last attach, the
I/O command outstanding and the Reads of a restore, staging memory; SPERST_N, the bytes of the BARs placed from the window's start on, whether
the I/O queue pair exists, the tails of the admin and the I/O submission queue, and the next command identifier. -/
structure Shelf where
  owned   : Bool := false
  nsid    : Nat := 1
  cmdAt   : Option Nat := none
  op      : Nat := 0
  readAt  : Option Nat := none
  staging : Mem := {}
  perst   : Bool := true
  bars    : Nat := 0
  queues  : Bool := false
  adTail  : Nat := 0
  ioTail  : Nat := 0
  cid     : Nat := 0
  deriving DecidableEq, Repr

/-- The I3C target (22 R460 to R462). -/
structure I3c where
  addr  : Option Nat := none
  mwl   : Nat := 16
  enec  : Bool := false
  index : Nat := 0
  wait  : List Nat := []
  deriving DecidableEq, Repr

/-- The package beside its registers (01). -/
structure Pkg where
  bundles : KMap Bundle := []
  oa      : OptEng := { aperture := { undef := some 0 } }
  ob      : OptEng := { aperture := { undef := some 1 } }
  tap     : Tap := {}
  deriving DecidableEq, Repr

/-- The whole device. `pending` is the queue of commands that wait, first in, first out. `time` counts core cycles (00 R6; log 1),
`free` the free values drawn (log 3). `spadGen`: since the
scratchpads last lost their contents, tile t's unwritten bytes are the free bytes of number spadGen + t. -/
structure State where
  pending : List Instr := []
  time    : Nat := 0
  free    : Nat := 5
  log     : List Ev := []
  out     : List Out := []
  regs    : Regs := []
  pkg     : Pkg := {}
  stow    : Stow := {}
  tb      : Timebase := {}
  stop    : Stop := {}
  hbm     : Mem := {}
  hbmBad  : List Nat := []
  stackMap : KMap Stack := []
  tiles   : KMap Tile := []
  spadGen : Option Nat := none
  vaults  : KMap Vault := []
  bays    : KMap Bay := []
  queues  : KMap Queue := []
  disp    : KMap Disp := []
  ports   : KMap Port := []
  grp     : Grp := {}
  snap    : Snap := {}
  safe    : Safe := {}
  pwr     : Pwr := {}
  sec     : Sec := {}
  dump    : Dump := {}
  fw      : Fw := {}
  pcie    : Pcie := {}
  shelf   : Shelf := {}
  i3c     : I3c := {}
  flying  : List Out := []
  relayed : List (Nat × Nat × List Byte) := []
  deriving DecidableEq, Repr

/-- A tile's registers at reset: free queue places (08), the event mask and the digest slots (20). -/
def Tile.resetRegs : Regs :=
  [(0x1220, 0x402020), (0x2800, 3),
   (0x3000, 3), (0x3020, 0x7FC0000000), (0x3028, 0x7FC0000000), (0x3030, 0x7FC0000000),
   (0x3100, 3), (0x3120, 0x7FC0000000), (0x3128, 0x7FC0000000), (0x3130, 0x7FC0000000),
   (0x3200, 3), (0x3220, 0x7FC0000000), (0x3228, 0x7FC0000000), (0x3230, 0x7FC0000000),
   (0x3300, 3), (0x3320, 0x7FC0000000), (0x3328, 0x7FC0000000), (0x3330, 0x7FC0000000),
   (0x3400, 3), (0x3420, 0x7FC0000000), (0x3428, 0x7FC0000000), (0x3430, 0x7FC0000000),
   (0x3500, 3), (0x3520, 0x7FC0000000), (0x3528, 0x7FC0000000), (0x3530, 0x7FC0000000),
   (0x3600, 3), (0x3620, 0x7FC0000000), (0x3628, 0x7FC0000000), (0x3630, 0x7FC0000000),
   (0x3700, 3), (0x3720, 0x7FC0000000), (0x3728, 0x7FC0000000), (0x3730, 0x7FC0000000),
   (0x3800, 3), (0x3820, 0x7FC0000000), (0x3828, 0x7FC0000000), (0x3830, 0x7FC0000000),
   (0x3900, 3), (0x3920, 0x7FC0000000), (0x3928, 0x7FC0000000), (0x3930, 0x7FC0000000),
   (0x3A00, 3), (0x3A20, 0x7FC0000000), (0x3A28, 0x7FC0000000), (0x3A30, 0x7FC0000000),
   (0x3B00, 3), (0x3B20, 0x7FC0000000), (0x3B28, 0x7FC0000000), (0x3B30, 0x7FC0000000),
   (0x3C00, 3), (0x3C20, 0x7FC0000000), (0x3C28, 0x7FC0000000), (0x3C30, 0x7FC0000000),
   (0x3D00, 3), (0x3D20, 0x7FC0000000), (0x3D28, 0x7FC0000000), (0x3D30, 0x7FC0000000),
   (0x3E00, 3), (0x3E20, 0x7FC0000000), (0x3E28, 0x7FC0000000), (0x3E30, 0x7FC0000000),
   (0x3F00, 3), (0x3F20, 0x7FC0000000), (0x3F28, 0x7FC0000000), (0x3F30, 0x7FC0000000)]

/-- A tile at reset; an unlisted tile of `State.tiles` is this one. -/
def Tile.reset : Tile := { regs := Tile.resetRegs }

/-- A stack at reset: HBM_RET_CTRL.auto_swap is 1 (14). -/
def Stack.reset : Stack := { regs := [(0x20, 0x100)] }

/-- A queue at reset: timeout_ms 1,000 and origin 0x7FF (13). -/
def Queue.reset : Queue := { regs := [(8, 0x3E800000000), (0x30, 0x7FF00)] }

/-- A port at reset: spare_en 1 and spare_for none (15). -/
def Port.reset : Port := { regs := [(0, 2), (8, 0xF0)] }

/-- The hub-side registers whose reset value is not 0: TB_STATUS, TB_PERIOD, TB_ACT_FREE (03), HUB_SNAP_CFG (16),
HUB_FW_RELAY (21), PWR_BUDGET, PWR_DIEd (18), SAFE_CTRL (17), DBG_TAP_CHAIN (01), SHELF_CFG (22). -/
def State.resetRegs : Regs :=
  [(0x508, 0x271000020001), (0x710, 0xFFFFFFFF), (0x10000, 0x20), (0x10010, 0x3E8), (0x10060, 0x400),
   (0x30018, 0x2CEC2580), (0x30300, 0x181000), (0x30308, 0x181000), (0x30310, 0x181000), (0x30318, 0x181000),
   (0x30320, 0x181000), (0x30328, 0x181000), (0x30330, 0x181000), (0x30338, 0x181000), (0x40008, 0x10000),
   (0x50000, 1), (0x60008, 1)]

/-- The machine right after reset: every register at its reset value, every memory empty, no command pending, no supply on.
The values the spec does not give are those of log entries 1, 2, 3, 5, 26, 27 and 28. -/
def State.reset : State := { regs := State.resetRegs }

/-- Why a step stops with a fault: none of the spec's rules for this block stops it (the spec's own faults are states). The type
has the one reason that the memory of a reader could need. -/
inductive Fault where
  /-- Raised by no command: every access the spec forbids has a defined outcome (04 R70, R83). Safe. -/
  | noSuchAddress
  deriving DecidableEq, Repr

/-- Why a command is refused. -/
inductive Refusal where
  /-- The command has no meaning yet: raised by the arms of `exec` that name it. Safe. -/
  | notModelled (mnemonic : String)
  deriving DecidableEq, Repr

end Sys2Proof.Machine
end

