-- ==== Sys2Proof/Machine/Ops.lean ====
section
/-! DEFINITION. The named operations over maps, registers and memories, on which every meaning is built. -/

namespace Sys2Proof.Machine

/-! Sparse maps. -/

/-- The value listed under `k`. -/
def kget? {α : Type} : KMap α → Nat → Option α
  | [], _ => none
  | (j, v) :: m, k => if k = j then some v else kget? m k

/-- The value at `k`, or the default `d`. -/
def kget {α : Type} (m : KMap α) (k : Nat) (d : α) : α := (kget? m k).getD d

/-- The map with `v` at `k`, keys still rising. -/
def kput {α : Type} : KMap α → Nat → α → KMap α
  | [], k, v => [(k, v)]
  | (j, w) :: m, k, v =>
    if k = j then (k, v) :: m else if k < j then (k, v) :: (j, w) :: m else (j, w) :: kput m k v

/-- The map without `k`. -/
def kdel {α : Type} : KMap α → Nat → KMap α
  | [], _ => []
  | (j, w) :: m, k => if k = j then m else (j, w) :: kdel m k

/-- Keys strictly rising. -/
def KMap.wf {α : Type} : KMap α → Bool
  | [] => true
  | [_] => true
  | (j, _) :: (k, w) :: m => decide (j < k) && KMap.wf ((k, w) :: m)

/-! Registers: a map in which 0 is not listed. -/

/-- The 64 bits of the register at `off`. -/
def rget (r : Regs) (off : Nat) : Dword := kget r off 0

/-- The registers with `v` at `off`. -/
def rput (r : Regs) (off : Nat) (v : Dword) : Regs := if v = 0 then kdel r off else kput r off v

/-- The field `f` of the word `w` (00 R5). -/
def bits (w : Dword) (lo width : Nat) : Nat := (w.toNat >>> lo) % 2 ^ width

/-- `w` with `v` (taken modulo the width) in the field. -/
def putBits (w : Dword) (lo width v : Nat) : Dword :=
  (w &&& ~~~((BitVec.ofNat 64 (2 ^ width - 1)) <<< lo)) ||| (BitVec.ofNat 64 (v % 2 ^ width) <<< lo)

/-- The value of a field. -/
def fld (r : Regs) (f : Fld) : Nat := bits (rget r f.off) f.lo f.width

/-- The registers with `v` in a field. -/
def setFld (r : Regs) (f : Fld) (v : Nat) : Regs := rput r f.off (putBits (rget r f.off) f.lo f.width v)

/-- A field of a counter that stops at its largest value. -/
def bumpFld (r : Regs) (f : Fld) (n : Nat) : Regs := setFld r f (min (fld r f + n) (2 ^ f.width - 1))

/-- Several fields at once, in order. -/
def setFlds : Regs → List (Fld × Nat) → Regs
  | r, [] => r
  | r, (f, v) :: l => setFlds (setFld r f v) l

/-- 1 for true. -/
def b2n (b : Bool) : Nat := if b then 1 else 0

/-! Byte strings (00 R4). -/

/-- The little-endian number of a byte string. -/
def leNat : List Byte → Nat
  | [] => 0
  | b :: l => b.toNat + 256 * leNat l

/-- The `n` little-endian bytes of a number. -/
def leBytes : Nat → Nat → List Byte
  | 0, _ => []
  | n + 1, v => BitVec.ofNat 8 v :: leBytes n (v / 256)

/-- The most-significant-byte-first number of a byte string (00 R4, the published standards' fields). -/
def beNat (l : List Byte) : Nat := l.foldl (fun a b => 256 * a + b.toNat) 0

/-- The `n` most-significant-first bytes of a number. -/
def beBytes (n v : Nat) : List Byte := (leBytes n v).reverse

/-- The `n` bytes at offset `o`. -/
def sub (l : List Byte) (o n : Nat) : List Byte := (l.drop o).take n

/-- The little-endian field of `n` bytes at offset `o`. -/
def le (l : List Byte) (o n : Nat) : Nat := leNat (sub l o n)

/-- Bit `i` of a number. -/
def bitOf (v i : Nat) : Bool := v.testBit i

/-- The field [lo + width − 1 : lo] of a number. -/
def bitsOf (v lo width : Nat) : Nat := (v >>> lo) % 2 ^ width

/-- A `width`-bit number read as two's complement. -/
def signed (width v : Nat) : Int := if v % 2 ^ width < 2 ^ (width - 1) then (v % 2 ^ width : Nat) else (v % 2 ^ width : Nat) - (2 ^ width : Nat)

/-- All ones, `n` bytes: what a dropped read returns (04 R70, R83). -/
def allOnes (n : Nat) : List Byte := List.replicate n 255#8

/-- Whether every byte of a string is 0: reserved bytes. -/
def allZero (l : List Byte) : Bool := l.all (· == 0)

/-! Memories. -/

/-- What an unlisted byte reads as. -/
def Mem.blank (m : Mem) (a : Nat) : Byte :=
  match m.undef with
  | none => 0
  | some g => Config.freeByte g a

/-- The byte at `a`. -/
def Mem.get (m : Mem) (a : Nat) : Byte := (kget? m.cells a).getD (m.blank a)

/-- The memory with `b` at `a`; with defined contents, 0 is not listed. -/
def Mem.set (m : Mem) (a : Nat) (b : Byte) : Mem :=
  if m.undef = none ∧ b = 0 then { m with cells := kdel m.cells a } else { m with cells := kput m.cells a b }

/-- The `n` bytes from `a`. -/
def Mem.read (m : Mem) : Nat → Nat → List Byte
  | _, 0 => []
  | a, n + 1 => m.get a :: m.read (a + 1) n

/-- The memory with a byte string from `a`. -/
def Mem.write : Mem → Nat → List Byte → Mem
  | m, _, [] => m
  | m, a, b :: l => (m.set a b).write (a + 1) l

/-- The canonical form: keys strictly rising, and no 0 listed when an unlisted byte reads 0. -/
def Mem.wf (m : Mem) : Bool :=
  KMap.wf m.cells && (m.undef.isSome || m.cells.all (fun c => c.2 != 0))

/-! The hub's registers. -/

/-- A field of a hub-side register. -/
def State.rd (s : State) (f : Fld) : Nat := fld s.regs f

/-- The state with other hub-side registers. -/
def State.setRegs (s : State) (r : Regs) : State := { s with regs := r }

/-- A field of a hub-side register set. -/
def State.wr (s : State) (f : Fld) (v : Nat) : State := s.setRegs (setFld s.regs f v)

/-- Several fields set. -/
def State.wrs (s : State) (l : List (Fld × Nat)) : State := s.setRegs (setFlds s.regs l)

/-- A counter field raised by `n`, stopping at its largest value. -/
def State.bump (s : State) (f : Fld) (n : Nat := 1) : State := s.setRegs (bumpFld s.regs f n)

/-- The one-bit field reads 1. -/
def State.on (s : State) (f : Fld) : Bool := s.rd f == 1

/-! What the device logs and sends. -/

/-- The state with an event raised or logged. -/
def State.logs (s : State) (n : EvName) (args : List Nat := []) : State := { s with log := s.log ++ [⟨n, args⟩] }

/-- The state with something sent. -/
def State.sends (s : State) (o : Out) : State := { s with out := s.out ++ [o] }

/-- Several things sent, in order. -/
def State.sendAll (s : State) (l : List Out) : State := { s with out := s.out ++ l }

/-- The number of the next free value (log 3), and the state after the draw. -/
def State.draw (s : State) : Nat × State := (s.free, { s with free := s.free + 1 })

/-- The state after `n` draws. -/
def State.draws (s : State) (n : Nat) : State := { s with free := s.free + n }

/-! Parts by number. -/

/-- A tile that nothing has changed since the scratchpads last lost their contents. -/
def State.freshTile (s : State) (t : Nat) : Tile := { Tile.reset with spad := { undef := s.spadGen.map (· + t) } }
def State.tile (s : State) (t : Nat) : Tile := kget s.tiles t (s.freshTile t)
def State.setTile (s : State) (t : Nat) (x : Tile) : State := { s with tiles := kput s.tiles t x }
def State.stack (s : State) (n : Nat) : Stack := kget s.stackMap n Stack.reset
def State.setStack (s : State) (n : Nat) (x : Stack) : State := { s with stackMap := kput s.stackMap n x }
def State.queue (s : State) (q : Nat) : Queue := kget s.queues q Queue.reset
def State.setQueue (s : State) (q : Nat) (x : Queue) : State := { s with queues := kput s.queues q x }
def State.port (s : State) (p : Nat) : Port := kget s.ports p Port.reset
def State.setPort (s : State) (p : Nat) (x : Port) : State := { s with ports := kput s.ports p x }
def State.bay (s : State) (b : Nat) : Bay := kget s.bays b {}
def State.setBay (s : State) (b : Nat) (x : Bay) : State := { s with bays := kput s.bays b x }
def State.vault (s : State) (n : Nat) : Vault := kget s.vaults n {}
def State.setVault (s : State) (n : Nat) (x : Vault) : State := { s with vaults := kput s.vaults n x }
def State.bundle (s : State) (b : Nat) : Bundle := kget s.pkg.bundles b {}
def State.setBundle (s : State) (b : Nat) (x : Bundle) : State :=
  { s with pkg := { s.pkg with bundles := kput s.pkg.bundles b x } }

/-- An optical engine: OB when `second`. -/
def State.oe (s : State) (second : Bool) : OptEng := if second then s.pkg.ob else s.pkg.oa
def State.setOe (s : State) (second : Bool) (x : OptEng) : State :=
  { s with pkg := if second then { s.pkg with ob := x } else { s.pkg with oa := x } }

/-- A new tick: the firewall counts each engine's denials anew (01 R21). -/
def State.firewallTick (s : State) : State :=
  { s with pkg := { s.pkg with oa := { s.pkg.oa with denials := 0 }, ob := { s.pkg.ob with denials := 0 } } }

/-- Every die's test logic in reset (01 R25). -/
def State.tapReset (s : State) : State :=
  { s with pkg := { s.pkg with tap := { s.pkg.tap with st := .reset, ir := [], dr := [], bypass := false } } }

/-- A field of tile `t`'s page. -/
def State.trd (s : State) (t : Nat) (f : Fld) : Nat := fld (s.tile t).regs f
/-- A field of a tile's page set. -/
def Tile.wr (x : Tile) (f : Fld) (v : Nat) : Tile := { x with regs := setFld x.regs f v }
def Tile.wrs (x : Tile) (l : List (Fld × Nat)) : Tile := { x with regs := setFlds x.regs l }
def Tile.rd (x : Tile) (f : Fld) : Nat := fld x.regs f
def Tile.bump (x : Tile) (f : Fld) (n : Nat := 1) : Tile := { x with regs := bumpFld x.regs f n }
def State.twr (s : State) (t : Nat) (f : Fld) (v : Nat) : State := s.setTile t ((s.tile t).wr f v)
def Queue.wr (x : Queue) (f : Fld) (v : Nat) : Queue := { x with regs := setFld x.regs f v }
def Queue.wrs (x : Queue) (l : List (Fld × Nat)) : Queue := { x with regs := setFlds x.regs l }
def Queue.rd (x : Queue) (f : Fld) : Nat := fld x.regs f
def Port.wr (x : Port) (f : Fld) (v : Nat) : Port := { x with regs := setFld x.regs f v }
def Port.wrs (x : Port) (l : List (Fld × Nat)) : Port := { x with regs := setFlds x.regs l }
def Port.rd (x : Port) (f : Fld) : Nat := fld x.regs f
def Port.bump (x : Port) (f : Fld) (n : Nat := 1) : Port := { x with regs := bumpFld x.regs f n }
def Stack.wr (x : Stack) (f : Fld) (v : Nat) : Stack := { x with regs := setFld x.regs f v }
def Stack.wrs (x : Stack) (l : List (Fld × Nat)) : Stack := { x with regs := setFlds x.regs l }
def Stack.rd (x : Stack) (f : Fld) : Nat := fld x.regs f
def Stack.bump (x : Stack) (f : Fld) (n : Nat := 1) : Stack := { x with regs := bumpFld x.regs f n }

/-- A function applied for every number of a list, in order. -/
def State.forEach (s : State) (l : List Nat) (f : State → Nat → State) : State := l.foldl f s

/-! Storage errors (17 R367). -/

/-- An uncorrectable error. -/
def eccBad (e : Ecc) : Bool := match e with | .uncorrectable _ => true | _ => false
/-- A corrected one. -/
def eccFixed (e : Ecc) : Bool := match e with | .corrected _ => true | _ => false
/-- The byte offset of the word in error. -/
def eccWord (e : Ecc) : Nat := match e with | .ok => 0 | .corrected w => w | .uncorrectable w => w
/-- Whether the 8-byte word in error lies in a read of `n` bytes at `a`. -/
def eccHits (e : Ecc) (a n : Nat) : Bool := e != .ok && a < eccWord e / 8 * 8 + 8 && eccWord e / 8 * 8 < a + n

/-! The clock (00 R6; 03 R47, R48). -/

/-- The current tick number. -/
def State.tn (s : State) : Nat := s.rd F.TB_TN_tn
/-- Core cycles of a microsecond, and of a millisecond. -/
def usCycles : Nat := 2400
def msCycles : Nat := 2400000
/-- Picoseconds of the model's clock: 5/12 ns a cycle. -/
def psOf (cycles : Nat) : Nat := cycles * 1250 / 3
/-- Core cycles since the last local tick edge. -/
def State.sinceEdge (s : State) : Nat := s.time - s.tb.edge

/-! Outcomes. -/

/-- The outcome of a command that completes. -/
abbrev Res := Host.Outcome State Fault Refusal
/-- A next state. -/
def ok (s : State) : Res := .next s

/-! The image in force. -/

/-- Whether an image is in force (04 R68, R70): STOWED, STAGED, SWAP_PENDING or a check begun from them. -/
def State.image? (s : State) : Option Image := s.stow.inForce
/-- The image in force, or an image with nothing in it. -/
def State.image (s : State) : Image := s.stow.inForce.getD {}
/-- This device's ID: 0 until an image is in force (04 R68). -/
def State.devId (s : State) : Nat := s.image.deviceId
/-- The BAYS entry of bay `b`. -/
def Image.bay? (i : Image) (b : Nat) : Option BayDef := i.bays.find? (fun d => d.id == b)
/-- The tiles of bay `b`: present tiles, ascending (02 R29). -/
def State.bayTiles (s : State) (b : Nat) : List Nat := ((s.image.bay? b).map (·.tiles)).getD []
/-- The bay of logical tile `t`. -/
def Image.bayOf (i : Image) (t : Nat) : Option Nat := (i.bays.find? (fun d => d.tiles.contains t)).map (·.id)
def State.bayOf (s : State) (t : Nat) : Option Nat := s.image.bayOf t
/-- The SITE_MAP entry of (die, row). -/
def Image.row (i : Image) (die row : Nat) : RowMap := kget i.rows (die * 10 + row) {}
/-- Whether logical tile `t` is present (01 R14, 04 R70). -/
def Image.present (i : Image) (t : Nat) : Bool := t < 1200 && !((i.row (t / 150) (t % 150 / 15)).absent && t % 15 == 14)
def State.present (s : State) (t : Nat) : Bool := (s.image?.map (·.present t)).getD false
/-- The physical column of logical column `l` (01 R12, 02 R28). -/
def RowMap.column (r : RowMap) (l : Nat) : Nat :=
  if r.absent then (if l < r.skip1 then l else if l < r.skip2 - 1 then l + 1 else l + 2)
  else if l < r.skip1 then l else l + 1
/-- The site of logical tile `t` as die × 160 + row × 16 + column (01 R12, R13). -/
def Image.site (i : Image) (t : Nat) : Nat :=
  let die := t / 150
  let row := t % 150 / 15
  die * 160 + row * 16 + (i.row die row).column (t % 15)
def State.site (s : State) (t : Nat) : Nat := s.image.site t
/-- The logical tile that an image maps to a site. -/
def Image.tileAt (i : Image) (site : Nat) : Option Nat :=
  let die := site / 160
  let row := site % 160 / 16
  ((List.range 15).map (fun l => die * 150 + row * 15 + l)).find? (fun t => i.present t && i.site t == site)

end Sys2Proof.Machine
end

