-- ==== Sys2Proof/Machine/Codec.lean ====
section
/-! DEFINITION. The codes of the spec: CRC-32 (01 R16), CRC-8 (03 R49), and RS(36,32) of an HBM burst (14 R303, R304). -/

namespace Sys2Proof.Machine

/-- One bit of the reflected CRC-32. -/
def crc32Bit (c : BitVec 32) : BitVec 32 := if c.getLsbD 0 then (c >>> 1) ^^^ 0xEDB88320#32 else c >>> 1

/-- One byte, least significant bit first. -/
def crc32Byte (c : BitVec 32) (b : Byte) : BitVec 32 :=
  let x := c ^^^ b.setWidth 32
  crc32Bit (crc32Bit (crc32Bit (crc32Bit (crc32Bit (crc32Bit (crc32Bit (crc32Bit x)))))))

/-- CRC-32 of 01 R16: reflected 0x04C11DB7, initial all ones, final inversion. -/
def crc32 (l : List Byte) : BitVec 32 := ~~~ l.foldl crc32Byte 0xFFFFFFFF#32

/-- One bit of CRC-8, polynomial 0x07, the next message bit entering at the top: an unreflected register (DESIGN CHOICE, log 110). -/
def crc8Bit (c : BitVec 8) (b : Bool) : BitVec 8 :=
  if c.getMsbD 0 == b then c <<< 1 else (c <<< 1) ^^^ 0x07#8

/-- CRC-8 of 03 R49 over tn, bits [71:8] of a frame. R49 does not say in which order they enter: they enter least significant first, as they
are sent (DESIGN CHOICE, log 110). -/
def crc8 (v : BitVec 64) : BitVec 8 := (List.range 64).foldl (fun c i => crc8Bit c (v.getLsbD i)) 0

/-- α · x in GF(2⁸) with field polynomial 0x11D (14 R303). -/
def gfDouble (x : Byte) : Byte := if x.getMsbD 0 then (x <<< 1) ^^^ 0x1D#8 else x <<< 1

/-- The product in GF(2⁸). -/
def gfMul (x y : Byte) : Byte :=
  ((List.range 8).foldl (fun (p : Byte × Byte) i => (if y.getLsbD i then p.1 ^^^ p.2 else p.1, gfDouble p.2)) (0, x)).1

/-- αⁿ. -/
def gfPow : Nat → Byte
  | 0 => 1
  | n + 1 => gfDouble (gfPow n)

/-- The inverse: x²⁵⁴ by squaring. -/
def gfInv (x : Byte) : Byte :=
  let x2 := gfMul x x
  let x4 := gfMul x2 x2
  let x8 := gfMul x4 x4
  let x16 := gfMul x8 x8
  let x32 := gfMul x16 x16
  let x64 := gfMul x32 x32
  let x128 := gfMul x64 x64
  gfMul x128 (gfMul x64 (gfMul x32 (gfMul x16 (gfMul x8 (gfMul x4 x2)))))

/-- The locator of line `k`: symbol k is the coefficient of x^(35 − k), the usual order of a systematic code
(PRESUMED, log 9). -/
def locator (k : Nat) : Byte := gfPow (35 - k)

/-- The four syndromes of an error pattern: (line, difference) pairs. The code is linear, so they are those of the word read. -/
def syndromes (errs : List (Nat × Byte)) : List Byte :=
  (List.range 4).map (fun j => errs.foldl (fun a e => a ^^^ gfMul e.2 ((List.range j).foldl (fun p _ => gfMul p (locator e.1)) 1)) 0)

/-- The values at the given locators that explain the syndromes, if any (R304: the syndromes fit the pattern). -/
def solveAt : List Byte → List Byte → Option (List Byte)
  | [], s => if s.all (· == 0) then some [] else none
  | x :: xs, s =>
    let s' := (s.zip (s.drop 1)).map (fun p => p.2 ^^^ gfMul x p.1)
    match solveAt xs s' with
    | none => none
    | some ws =>
      let vs := (ws.zip xs).map (fun p => gfMul p.1 (gfInv (p.2 ^^^ x)))
      some (vs.foldl (· ^^^ ·) (s.headD 0) :: vs)

/-- The values at the lines of one candidate pattern. -/
def tryLines (s : List Byte) (ls : List Nat) : Option (List (Nat × Byte)) :=
  (solveAt (ls.map locator) s).map (fun vs => ls.zip vs)

/-- All ways to choose at most `n` of the lines. -/
def chooseUpTo : Nat → List Nat → List (List Nat)
  | 0, _ => [[]]
  | _ + 1, [] => [[]]
  | n + 1, l :: ls => chooseUpTo (n + 1) ls ++ (chooseUpTo n ls).map (l :: ·)

/-- The decoder of R304: with the erased lines `er`, the correction that fits the syndromes with 2e + f ≤ 4, as (line, value)
pairs with nonzero value; none when the burst is uncorrectable. -/
def rsDecode (er : List Nat) (errs : List (Nat × Byte)) : Option (List (Nat × Byte)) :=
  let s := syndromes errs
  if s.all (· == 0) then some []
  else
    let free := (List.range 36).filter (fun k => !er.contains k)
    ((chooseUpTo ((4 - er.length) / 2) free).findSome? (fun ls => tryLines s (er ++ ls))).map
      (fun l => l.filter (fun e => e.2 != 0))

/-- Data bytes with (line, value) pairs xored in, lines below 32 only. -/
def xorLines (data : List Byte) (l : List (Nat × Byte)) : List Byte :=
  (List.range data.length).map (fun k => (l.filter (·.1 == k)).foldl (fun a e => a ^^^ e.2) (data.getD k 0))

end Sys2Proof.Machine
end

