-- ==== Sys2Proof/Machine/Monitor.lean ====
section
/-! DEFINITION. What every block reports through: MSI-X messages (22 R452), in-band interrupts (R462) and the safety monitor's error
records (17 R382, R383). -/

namespace Sys2Proof.Machine

/-- Whether the host link is up. -/
def State.linkUp (s : State) : Bool := s.on F.HUB_PCIE_STATUS_link_up

/-- A poisoned request or completion was received (22 R451). -/
def State.poisoned (s : State) : State := (s.wr F.HUB_PCIE_ERR_poisoned_rx 1).bump F.HUB_PCIE_ERR_count

/-- A completion of the host's that reports an error to one of the hub's units, and its kind by a free choice (log 3): 0 Unsupported Request, 1
Completer Abort, 2 one marked poisoned, which is counted (22 R451; log 118). -/
def State.badCompletion (s : State) : State × Nat :=
  let g := s.draw
  let k := Config.freeChoice g.1 % 3
  (if k = 2 then g.2.poisoned else g.2, k)
/-- The confirming read of a write has completed, with an error or not. -/
def State.confirmed (s : State) (good : Bool) : State := if good then s else s.badCompletion.1

/-- A message on vector `v` (22 R452, R453): its pending bit is set while the vector is masked; it waits while the link is down and during the
service pause of a firmware activation (21 R445). -/
def State.msix (s : State) (v : Nat) : State :=
  if !s.pcie.unmasked.contains v then
    { s with pcie := { s.pcie with waiting := if s.pcie.waiting.contains v then s.pcie.waiting else s.pcie.waiting ++ [v] } }
  else if s.linkUp && !s.fw.active then s.sends (.msix v)
  else { s with pcie := { s.pcie with held := s.pcie.held ++ [v] } }

/-- A hub event that names no vector of its own (22 R452). -/
def State.hubEvent (s : State) : State := s.msix (s.rd F.HUB_PCIE_EVT_vector)

/-- An event that the spec says is raised: logged, and reported on the hub event vector (22 R452; DEDUCED, log 18). -/
def State.raised (s : State) (n : EvName) (args : List Nat := []) : State := (s.logs n args).hubEvent

/-- An in-band interrupt with mandatory byte `b` (22 R462): one of each kind waits, while ENEC has enabled them. -/
def State.ibi (s : State) (b : Nat) : State :=
  if !s.i3c.enec || s.i3c.wait.contains b then s
  else { (s.sends (.ibi b)) with i3c := { s.i3c with wait := s.i3c.wait ++ [b] } }

/-- A PWR_EVENT bit raised (18): the hub event vector follows (22 R452). -/
def State.pwrEvent (s : State) (f : Fld) : State := (s.wr f 1).hubEvent

/-- The parts of an error record (17 R382) that its raiser states. -/
structure Rec where
  sev    : Nat
  cls    : Nat
  kind   : Nat
  tile   : Nat := 0x7FF
  die    : Nat := 8
  row    : Nat := 0xFF
  col    : Nat := 0xFF
  bay    : Nat := 0xFF
  queue  : Nat := 0xFFFF
  unit   : Nat := 0xFF
  addr   : Nat := 0
  detail : List Byte := []
  deriving DecidableEq, Repr

/-- Bytes 0 to 59 of a record (17 R382). -/
def recBody (seq tn cycle count : Nat) (r : Rec) : List Byte :=
  leBytes 4 seq ++ leBytes 1 r.sev ++ leBytes 1 r.cls ++ leBytes 2 r.kind ++ leBytes 8 tn ++ leBytes 4 cycle ++
  leBytes 2 r.tile ++ leBytes 1 r.die ++ leBytes 1 r.row ++ leBytes 1 r.col ++ leBytes 1 r.bay ++ leBytes 2 r.queue ++
  leBytes 2 count ++ leBytes 1 r.unit ++ leBytes 1 0 ++ leBytes 8 r.addr ++
  (r.detail ++ List.replicate (16 - r.detail.length) 0) ++ leBytes 4 0

/-- The 64 bytes of a record. -/
def recBytes (seq tn cycle count : Nat) (r : Rec) : List Byte :=
  let b := recBody seq tn cycle count r
  b ++ leBytes 4 (crc32 b).toNat

/-- The registers with a byte string stored from `off`, 8 bytes a register. -/
def rputBytes (r : Regs) : Nat → List Byte → Nat → Regs
  | _, _, 0 => r
  | off, l, n + 1 => rputBytes (rput r off (BitVec.ofNat 64 (leNat (l.take 8)))) (off + 8) (l.drop 8) n

/-- The bytes of `n` registers from `off`. -/
def rgetBytes (r : Regs) : Nat → Nat → List Byte
  | _, 0 => []
  | off, n + 1 => leBytes 8 (rget r off).toNat ++ rgetBytes r (off + 8) n

/-- The offset of SAFE_RECn. -/
def recOff (n : Nat) : Nat := 0x48000 + 64 * n

/-- The stored record n. -/
def State.recAt (s : State) (n : Nat) : List Byte := rgetBytes s.regs (recOff n) 8

/-- Records not yet read by the driver. -/
def State.recUnread (s : State) : Nat :=
  let w := s.rd F.SAFE_REC_PTR_write
  let r := s.rd F.SAFE_REC_PTR_read
  if w = r then (if s.safe.full = 1 then 512 else 0) else (w + 512 - r) % 512

/-- A record stored in entry `n`. -/
def State.putRec (s : State) (n : Nat) (b : List Byte) : State := s.setRegs (rputBytes s.regs (recOff n) b 8)

/-- Whether a CORRECTED event merges into the newest record (17 R383): same kind, site and unit, within one tick of it. -/
def State.recMerges (s : State) (r : Rec) : Bool :=
  let b := s.recAt s.safe.newest
  r.sev == 1 && s.safe.recs != 0 && le b 4 1 == 1 && le b 6 2 == r.kind && le b 20 2 == r.tile && le b 22 1 == r.die &&
  le b 23 1 == r.row && le b 24 1 == r.col && le b 30 1 == r.unit && s.tn - le b 8 8 ≤ 1

/-- The newest record with its count raised and its CRC formed again. -/
def State.mergeRec (s : State) : State :=
  let n := s.safe.newest
  let b := s.recAt n
  let body := b.take 28 ++ leBytes 2 (min (le b 28 2 + 1) 0xFFFF) ++ sub b 30 30
  s.putRec n (body ++ leBytes 4 (crc32 body).toNat)

/-- The oldest unread CORRECTED entry. -/
def State.oldestCorrected (s : State) : Option Nat :=
  let r := s.rd F.SAFE_REC_PTR_read
  ((List.range s.recUnread).map (fun i => (r + i) % 512)).find? (fun n => le (s.recAt n) 4 1 == 1)

/-- A stored record under another number. -/
def renumber (b : List Byte) (seq : Nat) : List Byte :=
  let body := leBytes 4 seq ++ sub b 4 56
  body ++ leBytes 4 (crc32 body).toNat

/-- The rank of a record among those of one hub cycle (17 R383): severity descending, then the hub and the dies, then the tile. -/
def recRank (b : List Byte) : Nat :=
  let die := le b 22 1
  (3 - le b 4 1) * 2 ^ 16 + (if die = 8 then 0 else if die < 8 then die + 1 else die) * 2 ^ 11 + le b 20 2 % 2 ^ 11

/-- The entry that holds the record of a number, looked for backwards from `w`. -/
def State.entryOf (s : State) (w seq : Nat) : Option Nat :=
  ((List.range 511).map (fun i => (w + 511 - i) % 512)).find? (fun n => le (s.recAt n) 0 4 == seq % 2 ^ 32)

/-- The entry of the record before number `seq`, when it is of the same hub cycle, which the stamps tell, and comes after record `b`. -/
def State.recAfter (s : State) (b : List Byte) (w seq : Nat) : Option Nat :=
  (s.entryOf w (seq - 1)).filter (fun p => sub (s.recAt p) 8 12 == sub b 8 12 && recRank b < recRank (s.recAt p))

/-- A record put in its order among those of its hub cycle (17 R383): at entry `w` under number `seq`, when the record before does not come after
it; otherwise that one moves up. -/
def State.orderRec (s : State) (b : List Byte) : Nat → Nat → Nat → State
  | 0, w, seq => s.putRec w (renumber b seq)
  | f + 1, w, seq =>
    (s.recAfter b w seq).elim (s.putRec w (renumber b seq)) (fun p => (s.putRec w (renumber (s.recAt p) seq)).orderRec b f p (seq - 1))

/-- The entry of the oldest record of a full ring. -/
def State.oldestRec (s : State) : Nat :=
  (List.range 512).foldl (fun a n => if le (s.recAt n) 0 4 < le (s.recAt a) 0 4 then n else a) 0

/-- The record at entry `n` is the newest. -/
def State.newestRec (s : State) (n : Nat) : State := { s with safe := { s.safe with newest := n } }

/-- A new record placed in the ring (17 R383). -/
def State.placeRec (s : State) (r : Rec) : State :=
  let b := recBytes s.safe.recs s.tn s.sinceEdge 1 r
  let w := s.rd F.SAFE_REC_PTR_write
  let s1 := { s with safe := { s.safe with recs := s.safe.recs + 1 } }
  if s.recUnread < 512 then
    let s2 := ((s1.orderRec b (min s.recUnread s.safe.recs) w s.safe.recs).wr F.SAFE_REC_PTR_write ((w + 1) % 512)).newestRec w
    { s2 with safe := { s2.safe with full := if s.recUnread = 511 then 1 else 0 } }
  else if r.sev = 1 then s.bump F.SAFE_REC_PTR_lost
  else
    let n := s.oldestCorrected.getD s.oldestRec
    let s2 := ((s1.orderRec b (min 512 s.safe.recs) n s.safe.recs).bump F.SAFE_REC_PTR_lost).newestRec n
    if s.oldestCorrected.isNone && n == w then s2.wrs [(F.SAFE_REC_PTR_write, (w + 1) % 512), (F.SAFE_REC_PTR_read, (w + 1) % 512)] else s2

/-- The event counted (SAFE_COUNTS): CORRECTED events, merged ones included. -/
def State.countRec (s : State) (sev : Nat) : State :=
  if sev = 1 then s.bump F.SAFE_COUNTS_corrected
  else if sev = 2 then s.bump F.SAFE_COUNTS_contained
  else s.bump F.SAFE_COUNTS_uncontained

/-- The safety monitor records an event (17 R383) and reports it: MSI-X when irq_en is 1 (R375), an in-band interrupt for a CONTAINED
or UNCONTAINED one (22 R462), SAFE_STATUS.uncontained for an UNCONTAINED one. Stopping bays is its raiser's. -/
def State.record (s : State) (r : Rec) : State :=
  let s1 := s.countRec r.sev
  if s1.recMerges r then s1.mergeRec
  else
    let s2 := (s1.placeRec r).logs .ERROR_RECORD [r.sev, r.cls, r.kind]
    if r.sev = 1 then s2
    else
      let s3 := if s2.on F.SAFE_CTRL_irq_en then s2.msix (s2.rd F.SAFE_CTRL_vector) else s2
      (if r.sev = 3 then s3.wr F.SAFE_STATUS_uncontained 1 else s3).ibi 1

/-- A record's site fields for logical tile `t`: tile, die, row, column, bay and the queue that holds the bay. -/
def State.recOfTile (s : State) (sev cls kind t : Nat) : Rec :=
  let site := s.site t
  { sev := sev, cls := cls, kind := kind, tile := t, die := site / 160, row := site % 160 / 16, col := site % 16,
    bay := (s.bayOf t).getD 0xFF,
    queue := ((s.bayOf t).bind (fun b => (s.bay b).holder)).getD 0xFFFF }

/-! Sites (17 R376). -/

/-- The state of a site: 0 GOOD, 1 SUSPECT, 2 FAILED. -/
def State.siteState (s : State) (site : Nat) : Nat :=
  bitsOf (s.rd (F.SAFE_SITE_state (site / 16))) (2 * (site % 16)) 2

/-- The state with a site's state set. -/
def State.setSite (s : State) (site v : Nat) : State :=
  let f := F.SAFE_SITE_state (site / 16)
  s.wr f (putBits (BitVec.ofNat 64 (s.rd f)) (2 * (site % 16)) 2 v).toNat

/-- A site marked SUSPECT; a FAILED site stays FAILED (17 R376). -/
def State.suspect (s : State) (site : Nat) : State := if s.siteState site = 2 then s else s.setSite site 1

/-- A site mark by ageing or software (17 R381): at once when the site's tile has no bay or its bay is not held, otherwise when the
bay is next released. -/
def State.suspectLater (s : State) (site : Nat) : State :=
  match (s.image?.bind (·.tileAt site)).bind s.bayOf with
  | none => s.suspect site
  | some b =>
    if (s.bay b).holder.isNone then s.suspect site
    else s.setBay b { s.bay b with marks := if (s.bay b).marks.contains site then (s.bay b).marks else (s.bay b).marks ++ [site] }

/-- Core cycles of 24 hours: the sliding window of 17 R381 and 14 R308. -/
def dayCycles : Nat := 24 * 3600 * 1000 * msCycles

/-- A corrected scratchpad word (kind 0, what = its address) or a parity error (kind 1) of a site: the windows of SAFE_AGEk and
the thresholds of 17 R381. -/
def State.age (s : State) (site kind what : Nat) : State :=
  let w := s.safe.window.filter (fun e => s.time - e.2.2.2 < dayCycles)
  let seen := kind == 0 && w.any (fun e => e.1 == site && e.2.1 == 0 && e.2.2.1 == what)
  let w1 := (if seen then w.filter (fun e => !(e.1 == site && e.2.1 == 0 && e.2.2.1 == what)) else w) ++ [(site, kind, what, s.time)]
  let n := (w1.filter (fun e => e.1 == site && e.2.1 == kind)).length
  let s1 := { s with safe := { s.safe with window := w1 } }
  let f := if kind = 0 then F.SAFE_AGE_spad_words site else F.SAFE_AGE_cache_parity site
  let s2 := (s1.wr f (min n 0xFFFF)).bump (F.SAFE_AGE_lifetime site)
  if !seen && n == (if kind = 0 then 16 else 256) then
    (s2.suspectLater site).record { sev := 1, cls := 0x11, kind := kind, die := site / 160, row := site % 160 / 16, col := site % 16 }
  else s2

end Sys2Proof.Machine
end

