-- ==== Sys2Proof/Machine/Tick.lean ====
section
/-! DEFINITION. The table of tick actions (03 R57, R58), which the timebase, stowage, HBM, firmware and front-end blocks enter. -/

namespace Sys2Proof.Machine

/-- A TB_ACT_ register's field in master bank `m` (03 R60): the banks stand 2³² apart in `State.regs`. -/
def Fld.bank (f : Fld) (m : Nat) : Fld := { f with off := f.off + 2 ^ 32 * m }

/-- The timebase counts with an agreed TN (14 R313). -/
def State.tickGood (s : State) : Bool := s.rd F.TB_STATUS_state == 2 || s.rd F.TB_STATUS_state == 4

/-- HOLDOVER or CONFLICT (03 R55). -/
def State.tickLost (s : State) : Bool := s.rd F.TB_STATUS_state == 3 || s.rd F.TB_STATUS_state == 5

/-- TB_ACT_FREE follows the table. -/
def State.actFree (s : State) : State :=
  let p := s.tb.pend
  s.wrs [(F.TB_ACT_FREE_free, 1024 - p.length),
    (F.TB_ACT_FREE_next_low, match p with | [] => 0 | a :: l => (l.foldl (fun m b => min m b.tn) a.tn) % 2 ^ 32)]

/-- The state with another table of pending actions. -/
def State.setPend (s : State) (p : List Act) : State := ({ s with tb := { s.tb with pend := p } } : State).actFree

/-- The slots that hold no action, ascending. -/
def freeSlots (p : List Act) : List Nat := (List.range 1024).filter (fun k => !p.any (·.slot == k))

/-- The action enters the table: TB_LATE when tn < TN + 2, TB_FULL when no entry is free (03 R57, tests 3 and 4).
Which of the free slots it gets is a free choice: the spec names none (log 10). -/
def State.enterAct (s : State) (tn type arg bank : Nat) : State × Nat × Nat :=
  if tn < s.tn + 2 then (s, 1, 0)
  else
    match freeSlots s.tb.pend with
    | [] => (s, 2, 0)
    | k :: l =>
      let n := (k :: l).getD (Config.freeChoice s.free % (l.length + 1)) k
      (s.draw.2.setPend (s.tb.pend ++ [⟨n, tn, type, arg, bank⟩]), 0, n)

/-- Whether the argument of a type entered through TB_ACT_CMD is valid (03 R57, 20 R436): no bit outside its fields, POWER_RAMP's
rate 1 to 24, COUNTER_SAMPLE's mask not empty. -/
def actArgOk (type arg : Nat) : Bool :=
  if type = 1 then arg == 0
  else if type = 2 then arg < 2 ^ 32
  else if type = 3 then arg < 2 ^ 48 && bitsOf arg 6 2 == 0
  else if type = 6 then true
  else if type = 7 then arg < 2 ^ 9 && arg != 0
  else if type = 8 then arg < 2 ^ 21 && bitsOf arg 8 8 == 0 && 1 ≤ bitsOf arg 16 5 && bitsOf arg 16 5 ≤ 24
  else false

/-- ADD of 03 R57: type, argument, lateness, free entry, in that order. -/
def State.addAct (s : State) (tn type arg bank : Nat) : State × Nat × Nat :=
  if type = 0 ∨ type = 4 ∨ type = 5 ∨ 8 < type then (s, 3, 0)
  else if !actArgOk type arg then (s, 4, 0)
  else s.enterAct tn type arg bank

/-- The result of a request in the bank's TB_ACT_RESULT; `slot` is written by an ADD that gave one. -/
def State.actResult (s : State) (m code : Nat) (slot : Option Nat) : State :=
  let s1 := s.wrs [(F.TB_ACT_RESULT_code.bank m, code), (F.TB_ACT_RESULT_done.bank m, 1)]
  match slot with
  | some k => s1.wr (F.TB_ACT_RESULT_slot.bank m) k
  | none => s1

/-- An action is committed when TN has reached tn − 1 (03 R57). -/
def State.committed (s : State) (a : Act) : Bool := a.tn ≤ s.tn + 1

/-- The pending actions that satisfy a test, cancelled. -/
def State.cancelActs (s : State) (f : Act → Bool) : State := s.setPend (s.tb.pend.filter (fun a => !f a))

end Sys2Proof.Machine
end

