-- ==== Sys2Proof/Machine/Hbm.lean ====
section
/-! DEFINITION. HBM: where a granule lies (04 R74 to R77, 14 R301), the burst code at reads and writes (14 R303 to R308), row retirement
(R311 to R316). -/

namespace Sys2Proof.Machine

/-- A byte counter raised (20 R434, R435: modulo 2⁶⁴). -/
def State.count (s : State) (k n : Nat) : State := s.wr (F.HUB_CNT_bytes k) (s.rd (F.HUB_CNT_bytes k) + n)

/-- The xor of the `w`-bit fields of h, at most `n` of them (04 R75, R76). -/
def foldX (w : Nat) : Nat → Nat → Nat
  | 0, _ => 0
  | n + 1, h => (h % 2 ^ w) ^^^ foldX w n (h >>> w)

/-- A region's share of each pseudo-channel it uses, in bytes (04 R76). -/
def Region.share (r : Region) : Nat := if r.scope = 0 then r.size / 512 else r.size / 64

/-- Whether a region uses pseudo-channel `pc`. -/
def Region.uses (r : Region) (pc : Nat) : Bool := r.scope == 0 || pc / 64 == r.die

/-- Where a region's share of `pc` starts (04 R77): after those of lower region_id. -/
def Image.shareStart (i : Image) (r : Region) (pc : Nat) : Nat :=
  (i.regions.filter (fun q => q.id < r.id && q.uses pc)).foldl (fun n q => n + q.share) 0

/-- The pseudo-channel and byte offset of local address `a` of region `r` (04 R75 to R77). -/
def Image.place (i : Image) (r : Region) (a : Nat) : Nat × Nat :=
  let g := (a - r.base) / 256
  let w := if r.scope = 0 then 9 else 6
  let q := (g % 2 ^ w) ^^^ foldX w 8 (g >>> w)
  let pc := if r.scope = 0 then q else 64 * r.die + q
  (pc, i.shareStart r pc + (g >>> w) * 256 + a % 256)

/-- Row, bank and burst of an offset (14 R301). -/
def rowOf (o : Nat) : Nat := o >>> 16
def bankOf (o : Nat) : Nat := bitsOf o 10 6 ^^^ (rowOf o % 64)
def burstOf (o : Nat) : Nat := bitsOf o 5 5

/-- The offset of byte `o` moved to another row of the same bank. -/
def toRow (o row : Nat) : Nat := (row <<< 16) + ((bankOf o ^^^ (row % 64)) <<< 10) + o % 1024

/-- The retirement entry that redirects an offset of local pseudo-channel `pc`. -/
def retireOf (l : List Retire) (pc o : Nat) : Option Retire :=
  l.find? (fun e => e.pc == pc && e.bank == bankOf o && e.row == rowOf o)

/-- The offset an access reaches under a table (14 R311, R312). -/
def redirect (l : List Retire) (pc o : Nat) : Nat :=
  match retireOf l pc o with
  | some e => toRow o (49120 + e.spare)
  | none => o

/-- The key of a byte in `State.hbm`: 3 GiB for each pseudo-channel. -/
def hbmKey (pc o : Nat) : Nat := pc * 0xC0000000 + o

/-- The place that serves an access: the stack's active table applied. -/
def State.hbmPhys (s : State) (pc o : Nat) : Nat := hbmKey pc (redirect (s.stack (pc / 32)).active (pc % 32) o)

/-- The erased lines of a pseudo-channel (14 R307, HBM_ERASEn). -/
def Stack.erased (x : Stack) (pc : Nat) : List Nat :=
  (if x.rd (F.HBM_ERASE_valid_a pc) = 1 then [x.rd (F.HBM_ERASE_line_a pc)] else []) ++
  (if x.rd (F.HBM_ERASE_valid_b pc) = 1 then [x.rd (F.HBM_ERASE_line_b pc)] else [])

/-- The 16-byte detail of an HBM error record (14 R317). -/
def hbmDetail (st pc bank kind row burst symbols : Nat) (lines erased : List Nat) (gen : Nat) : List Byte :=
  leBytes 1 st ++ leBytes 1 pc ++ leBytes 1 bank ++ leBytes 1 kind ++ leBytes 2 row ++ leBytes 1 burst ++ leBytes 1 symbols ++
  leBytes 1 (lines.getD 0 0xFF) ++ leBytes 1 (lines.getD 1 0xFF) ++ leBytes 1 (erased.getD 0 0xFF) ++
  leBytes 1 (erased.getD 1 0xFF) ++ leBytes 4 gen

/-- A record of the HBM class (17 R367 row 6; `cls` 0x11 for ageing). -/
def State.hbmRecord (s : State) (sev kind st pc bank row burst : Nat) (lines : List Nat) (addr : Nat := 0) : State :=
  let x := s.stack st
  s.record { sev := sev, cls := 6, kind := kind, die := st / 2, unit := st, addr := addr,
             detail := hbmDetail st pc bank kind row burst lines.length lines (x.erased pc) (x.rd F.HBM_RET_STATUS_generation) }

/-- The HBM_RET_STATUS counts follow the lists. -/
def Stack.sync (x : Stack) : Stack :=
  x.wrs [(F.HBM_RET_STATUS_entries, x.active.length), (F.HBM_RET_STATUS_pending, x.pending.length)]

/-- Spare indices of a bank in use or failed (14 R311). -/
def Stack.usedSpares (x : Stack) (pc bank : Nat) : List Nat :=
  ((x.active ++ x.build).filter (fun e => e.pc == pc && e.bank == bank)).map (·.spare) ++
  (x.burnt.filter (fun e => e.1 == pc && e.2.1 == bank)).map (·.2.2)

/-- The lowest unused spare of a bank. -/
def Stack.spare? (x : Stack) (pc bank : Nat) : Option Nat := (List.range 32).find? (fun i => !(x.usedSpares pc bank).contains i)

/-- The new generation: entries of the active one that no new entry replaces, and the new ones (14 R311, R313). -/
def Stack.nextTable (x : Stack) : List Retire :=
  x.active.filter (fun a => !x.build.any (fun e => e.pc == a.pc && e.bank == a.bank && e.row == a.row)) ++ x.build

/-- The row that an access to a physical row names under the active table: itself, the row that a spare row replaces, or none for a spare row
that no entry uses (14 R311). -/
def Stack.origOf (x : Stack) (pc bank row : Nat) : Option Nat :=
  if 49120 ≤ row then (x.active.find? (fun e => e.pc == pc && e.bank == bank && 49120 + e.spare == row)).map (·.row) else some row

/-- A spare row that failed is never used again. -/
def Stack.burn (x : Stack) (pc bank row : Nat) : Stack :=
  if 49120 ≤ row && !x.burnt.contains (pc, bank, row - 49120) then { x with burnt := x.burnt ++ [(pc, bank, row - 49120)] } else x

/-- One candidate entered in the new generation (14 R311): a spare row that failed gives its entry a new spare; HBM_RETIRE_FULL when
the table or the bank is full. The Bool tells whether it was retired. -/
def Stack.retire (x : Stack) (c : Nat × Nat × Nat) : Stack × Bool :=
  let (pc, bank, row) := c
  let x1 := x.burn pc bank row
  match x.origOf pc bank row with
  | none => (x1, true)
  | some r =>
    if r = row && 4096 ≤ x.nextTable.length then (x1, false)
    else
      match x1.spare? pc bank with
      | none => (x1, false)
      | some i => ({ x1 with build := x1.build ++ [⟨pc, bank, r, i⟩] }, true)

/-- The ageing threshold of a stack's table, which grew from `a` to `b` entries (17 R381). -/
def State.ageTable (s : State) (st a b : Nat) : State :=
  if a < 3584 ∧ 3584 ≤ b then (s.raised .AGEING_HBM [st]).record { sev := 1, cls := 0x11, kind := 3, die := st / 2, unit := st } else s

/-- The report and the record of a retired row. -/
def State.rowRetired (s : State) (st : Nat) (e : Retire) : State :=
  (s.logs .HBM_ROW_RETIRED [st, e.pc, e.bank, e.row, e.spare]).hbmRecord 1 3 st e.pc e.bank e.row 0 []

/-- A table in force: the records of its new rows, and the ageing threshold. -/
def State.newTable (s : State) (st : Nat) (old new : List Retire) : State :=
  ((new.filter (fun e => !old.contains e)).foldl (fun (a : State) e => a.rowRetired st e) s).ageTable st old.length new.length

/-- IDLE with a pending list: the new generation is formed and its rows mirrored (14 R313). -/
def State.hbmBuild (s : State) (st : Nat) : State :=
  let x := s.stack st
  if x.rd F.HBM_RET_STATUS_state = 0 && !x.pending.isEmpty then
    let go := x.pending.foldl
      (fun (a : Stack × List (Nat × Nat × Nat)) c => let r := a.1.retire c; (r.1, if r.2 then a.2 else a.2 ++ [c]))
      ({ x with pending := [] }, [])
    let s1 := s.setStack st ((if go.1.build.isEmpty then go.1 else go.1.wr F.HBM_RET_STATUS_state 1).sync)
    go.2.foldl (fun a c => (a.raised .HBM_RETIRE_FULL [st, c.1, c.2.1, c.2.2]).hbmRecord 1 4 st c.1 c.2.1 c.2.2 0 []) s1
  else s

/-- Nothing is left to retire for a physical row (14 R311): its replacement is on its way, it has been replaced, or it is an unused spare row known
to have failed. -/
def Stack.retired (x : Stack) (pc bank row : Nat) : Bool :=
  x.active.any (fun e => e.pc == pc && e.bank == bank && e.row == row) ||
  match x.origOf pc bank row with
  | none => x.burnt.contains (pc, bank, row - 49120)
  | some r => x.build.any (fun e => e.pc == pc && e.bank == bank && e.row == r)

/-- A retirement candidate (14 R308, R312): placed in the pending list once, or dropped and counted when the list is full; then
IDLE begins to build. A spare row that is one is not used from then on (R311). -/
def State.hbmCandidate (s : State) (st pc bank row : Nat) : State :=
  let x := (s.stack st).burn pc bank row
  let c := (pc, bank, row)
  if (s.stack st).pending.contains c || (s.stack st).retired pc bank row then s
  else if 64 ≤ x.pending.length then s.setStack st (x.bump F.HBM_RET_STATUS_dropped)
  else (s.setStack st ({ x with pending := x.pending ++ [c] } : Stack).sync).hbmBuild st

/-- A line is marked erased, or HBM_LINE_LIMIT is raised at a third (14 R307). -/
def State.hbmErase (s : State) (st pc line : Nat) : State :=
  let x := s.stack st
  let er := x.erased pc
  if er.contains line then s
  else if er.length = 0 then
    ((s.setStack st (x.wrs [(F.HBM_ERASE_line_a pc, line), (F.HBM_ERASE_valid_a pc, 1)])).logs .HBM_LINE_ERASED [st, pc, line]).hbmRecord
      1 2 st pc 0 0 0 [line]
  else if er.length = 1 then
    ((s.setStack st (x.wrs [(F.HBM_ERASE_line_b pc, line), (F.HBM_ERASE_valid_b pc, 1)])).logs .HBM_LINE_ERASED [st, pc, line]).hbmRecord
      1 2 st pc 0 0 0 [line]
  else
    ((s.setStack st (x.wr (F.HBM_ERASE_limit pc) 1)).raised .HBM_LINE_LIMIT [st, pc, line]).hbmRecord 1 5 st pc 0 0 0 [line]

/-- The corrected burst's lines charged (14 R307): a line charged in 16 of the last 32 corrected bursts, or in 1,024 bursts within one
second, is marked. -/
def State.hbmCharge (s : State) (st pc : Nat) (lines : List Nat) : State :=
  let x := s.stack st
  let old := (s.time, lines) :: kget x.charges pc []
  let h := old.take 32 ++ (old.drop 32).filter (fun e => s.time - e.1 < 1000 * msCycles)
  let s1 := s.setStack st { x with charges := kput x.charges pc h }
  lines.foldl
    (fun a l =>
      if ((h.take 32).filter (fun e => e.2.contains l)).length ≥ 16
          || (h.filter (fun e => e.2.contains l && s.time - e.1 < 1000 * msCycles)).length ≥ 1024 then a.hbmErase st pc l
      else a) s1

/-- The corrected burst entered in the row's history, and the two tests of 14 R308 on it: three distinct bursts in 24 hours, errors on
erased lines aside; a burst corrected again within 24 hours of a scrub write-back. -/
def State.hbmHistory (s : State) (st pc bank row burst : Nat) (offErased scrub : Bool) : State :=
  let x := s.stack st
  let h := x.hist.filter (fun e => s.time - e.time < dayCycles)
  let here := fun (e : Fixed) => e.pc == pc && e.bank == bank && e.row == row
  let again := h.any (fun e => here e && e.burst == burst && e.scrub)
  let h1 := if offErased || scrub then h ++ [⟨pc, bank, row, burst, s.time, scrub, offErased⟩] else h
  let distinct := ((h1.filter (fun e => here e && e.offLine)).map (·.burst)).eraseDups.length
  let s1 := s.setStack st { x with hist := h1 }
  if again || (offErased && 3 ≤ distinct) then s1.hbmCandidate st pc bank row else s1

/-- One burst read and decoded (14 R304, R305): its 32 bytes, or none when it is uncorrectable. `o` is the offset of the burst as
the controller is asked for it; `addr` the global address of the request; `scrub` a scrub read, which names the physical row (R308). -/
def State.burstRead (s : State) (pc o addr : Nat) (errs : List (Nat × Byte)) (scrub : Bool) : State × Option (List Byte) :=
  let st := pc / 32
  let lp := pc % 32
  let x := s.stack st
  let k := if scrub then hbmKey pc (o / 32 * 32) else s.hbmPhys pc (o / 32 * 32)
  let po := k % 0xC0000000
  let er := x.erased lp
  let s0 := s.count (36 + 2 * st) 32
  match if s.hbmBad.contains (k / 32) then none else rsDecode er errs with
  | none =>
    let s1 := s0.setStack st ((x.bump F.HBM_ECC_COUNTS_uncorrectable).wr F.HBM_LAST_UE_addr addr)
    ((s1.hbmRecord 2 1 st lp (bankOf po) (rowOf po) (burstOf po) [] addr).hbmCandidate st lp (bankOf po) (rowOf po), none)
  | some [] => (s0, some (xorLines (s.hbm.read k 32) errs))
  | some fix =>
    let lines := fix.map (·.1)
    let s1 := s0.setStack st (x.bump F.HBM_ECC_COUNTS_corrected)
    let s2 := s1.hbmRecord 1 0 st lp (bankOf po) (rowOf po) (burstOf po) lines addr
    let s3 := s2.hbmCharge st lp lines
    (s3.hbmHistory st lp (bankOf po) (rowOf po) (burstOf po) (lines.any (fun l => !er.contains l)) scrub,
     some (xorLines (xorLines (s.hbm.read k 32) errs) fix))

/-- The memory write of a burst's bytes at every place that takes them: the active place and, for a mirrored row, its new spare
(14 R314). A burst is written whole, which clears inverted check symbols. `n`: the bytes of it that count (20 R434). -/
def State.burstPut (s : State) (pc n k : Nat) (data : List Byte) : State :=
  { s.count (37 + 2 * (pc / 32)) n with hbm := s.hbm.write k data, hbmBad := s.hbmBad.filter (· != k / 32) }
def State.burstStore (s : State) (pc o n : Nat) (data : List Byte) : State :=
  let s1 := s.burstPut pc n (s.hbmPhys pc o) data
  match (s.stack (pc / 32)).build.find? (fun e => e.pc == pc % 32 && e.bank == bankOf o && e.row == rowOf o) with
  | none => s1
  | some e => s1.burstPut pc n (hbmKey pc (toRow o (49120 + e.spare))) data

/-- The bytes of a request as (offset within the request, length) pieces, one for each burst it touches. -/
def pieces : Nat → Nat → Nat → Nat → List (Nat × Nat)
  | 0, _, _, _ => []
  | f + 1, o, i, n =>
    if n = 0 then []
    else
      let m := min n (32 - o % 32)
      (i, m) :: pieces f (o + m) (i + m) (n - m)

/-- The errors given for burst `j` of a request. -/
def errsOf (errs : List BurstErr) (j : Nat) : List (Nat × Byte) := ((errs.filter (·.burst == j)).map (·.syms)).flatten

/-- What else the bursts of an access meet (14 R302): on-die severity reports, counted as corrected; a command or address parity error, retried once
and counted. When the retry fails too it is HBM_CA_PARITY, its pseudo-channel is trained anew at the next warm start, and the access is taken to
be performed all the same (DESIGN CHOICE, log 113). -/
def State.busErrs (s : State) (pc o addr : Nat) (errs : List BurstErr) (j : Nat) : State :=
  (errs.filter (·.burst == j)).foldl (fun a e =>
    let st := pc / 32
    let x := a.stack st
    let a1 := if e.onDie = 0 then a else a.setStack st (x.wr F.HBM_ECC_COUNTS_corrected (min (x.rd F.HBM_ECC_COUNTS_corrected + e.onDie) 0xFFFFFFFF))
    let a2 := if e.ca = 0 then a1 else a1.setStack st { a1.stack st with caErrs := (a1.stack st).caErrs + e.ca }
    if e.ca < 2 then a2
    else
      let y := a2.stack st
      let po := s.hbmPhys pc o % 0xC0000000
      (((a2.setStack st { y.wr F.HBM_STATUS_ca_parity 1 with
        caMark := if y.caMark.contains (pc % 32) then y.caMark else y.caMark ++ [pc % 32] }).raised .HBM_CA_PARITY [st, pc % 32]).hbmRecord
        1 8 st (pc % 32) (bankOf po) (rowOf po) (burstOf po) [] addr)) s

/-- A read of `n` bytes of a region at local address `a`; none when a burst is uncorrectable (14 R305). -/
def State.hbmRead (s : State) (r : Region) (a n addr : Nat) (errs : List BurstErr) : State × Option (List Byte) :=
  let ps := pieces (n / 32 + 2) a 0 n
  ((List.range ps.length).zip ps).foldl
    (fun (acc : State × Option (List Byte)) jp =>
      let (pc, o) := s.image.place r (a + jp.2.1)
      let rd := (acc.1.busErrs pc o addr errs jp.1).burstRead pc o addr (errsOf errs jp.1) false
      (rd.1, match acc.2, rd.2 with
        | some l, some d => some (l ++ sub d (o % 32) jp.2.2)
        | _, _ => none))
    (s, some [])

/-- A write of a region at local address `a` (14 R306): a piece shorter than its burst is a read-modify-write, which writes back the burst as
decoded with the piece in it, and is not performed when the read is uncorrectable. The count is the bytes performed. -/
def State.hbmWrite (s : State) (r : Region) (a addr : Nat) (data : List Byte) (errs : List BurstErr) : State × Nat :=
  let ps := pieces (data.length / 32 + 2) a 0 data.length
  ((List.range ps.length).zip ps).foldl
    (fun (acc : State × Nat) jp =>
      let (pc, o) := s.image.place r (a + jp.2.1)
      let d := sub data jp.2.1 jp.2.2
      let a0 := acc.1.busErrs pc o addr errs jp.1
      if jp.2.2 = 32 then (a0.burstStore pc o 32 d, acc.2 + 32)
      else
        match a0.burstRead pc o addr (errsOf errs jp.1) false with
        | (s1, none) => (s1.setStack (pc / 32) ((s1.stack (pc / 32)).bump F.HBM_ECC_COUNTS_dropped_writes), acc.2)
        | (s1, some b) => (s1.burstStore pc (o / 32 * 32) jp.2.2 (b.take (o % 32) ++ d ++ b.drop (o % 32 + jp.2.2)), acc.2 + jp.2.2))
    (s, 0)

/-- READY with auto_swap set and a timebase that is LOCKED or FREE_RUN: the CPC enters the swap at TN + 2 (14 R313). -/
def State.hbmAutoSwap (s : State) (st : Nat) : State :=
  let x := s.stack st
  if x.rd F.HBM_RET_STATUS_state = 2 && x.rd F.HBM_RET_CTRL_auto_swap = 1 && s.tickGood then
    match s.enterAct (s.tn + 2) 4 (1 + 256 * st) 3 with
    | (s1, 0, _) => s1.setStack st ((s1.stack st).wr F.HBM_RET_STATUS_state 3)
    | (s1, _) => s1
  else s

end Sys2Proof.Machine
end

