-- ==== Sys2Proof/Machine/Layout.lean ====
section
/-! DEFINITION. The layout of the register window (04 R73): which offsets hold a register, and which of its bits are RW, W1C and
WO (00 R7). A bit of no mask is RO or reserved (R8). The rows follow the register tables of the chapters. -/

namespace Sys2Proof.Machine

/-- `count` registers `stride` bytes apart from `base`, with the masks of their RW, W1C and WO bits; `only8` when the register takes
8-byte writes only (00 R9). -/
structure RegRow where
  base   : Nat
  stride : Nat
  count  : Nat
  rw     : Nat
  w1c    : Nat
  wo     : Nat
  only8  : Bool
  deriving DecidableEq, Repr

/-- Registers of the hub-side blocks, by BAR0 offset (part 1). -/
def hubRows1 : List RegRow := [
  ⟨0x100, 0x8, 11, 0x0, 0x0, 0x0, false⟩,
  ⟨0x160, 0x8, 1, 0x0, 0x0, 0x0, false⟩,
  ⟨0x200, 0x8, 1, 0xffffffffffffffff, 0x0, 0x0, false⟩,
  ⟨0x208, 0x8, 1, 0x807fffff, 0x0, 0x0, false⟩,
  ⟨0x210, 0x8, 1, 0x0, 0x0, 0x7, false⟩,
  ⟨0x218, 0x8, 1, 0xffffffffffffffff, 0x0, 0x0, false⟩,
  ⟨0x220, 0x8, 1, 0x0, 0x0, 0x0, false⟩,
  ⟨0x228, 0x8, 1, 0x0, 0x0, 0x0, false⟩,
  ⟨0x230, 0x8, 1, 0x0, 0x0, 0x0, false⟩,
  ⟨0x238, 0x8, 1, 0x0, 0x0, 0x0, false⟩,
  ⟨0x300, 0x8, 1, 0xfffffffffffff000, 0x0, 0x0, false⟩,
  ⟨0x308, 0x8, 1, 0x1, 0x0, 0x0, false⟩,
  ⟨0x310, 0x8, 1, 0x0, 0x2, 0x0, false⟩,
  ⟨0x400, 0x8, 1, 0x0, 0x0, 0x0, false⟩,
  ⟨0x408, 0x8, 1, 0x0, 0x0, 0x0, false⟩,
  ⟨0x500, 0x8, 1, 0xffffffffffffffff, 0x0, 0x0, false⟩,
  ⟨0x508, 0x8, 1, 0xffffffff0003ffff, 0x0, 0x0, false⟩,
  ⟨0x510, 0x8, 1, 0x0, 0x0, 0x7, false⟩,
  ⟨0x518, 0x8, 1, 0x0, 0x10, 0x0, false⟩,
  ⟨0x520, 0x8, 1, 0x0, 0x0, 0x0, false⟩,
  ⟨0x528, 0x8, 1, 0x0, 0x0, 0x0, false⟩,
  ⟨0x530, 0x8, 1, 0xffffffffff03ffff, 0x0, 0x0, false⟩,
  ⟨0x538, 0x8, 1, 0xffffffff000000ff, 0x0, 0x0, false⟩,
  ⟨0x540, 0x8, 1, 0x0, 0x0, 0x0, false⟩,
  ⟨0x548, 0x8, 1, 0x0, 0x0, 0x0, false⟩,
  ⟨0x600, 0x8, 1, 0xffffffffffffffff, 0x0, 0x0, false⟩,
  ⟨0x608, 0x8, 1, 0x7ffffffff, 0x0, 0x0, false⟩,
  ⟨0x610, 0x8, 1, 0xffffffffffffffff, 0x0, 0x0, false⟩,
  ⟨0x618, 0x8, 1, 0xffffffffffffffff, 0x0, 0x0, false⟩,
  ⟨0x620, 0x8, 1, 0x7ff0004, 0x0, 0x3, false⟩,
  ⟨0x628, 0x8, 1, 0x0, 0x0, 0x0, false⟩,
  ⟨0x630, 0x8, 1, 0x0, 0x0, 0x0, false⟩,
  ⟨0x638, 0x8, 1, 0x0, 0x0, 0x0, false⟩,
  ⟨0x700, 0x8, 1, 0xffffffffffffffff, 0x0, 0x0, false⟩,
  ⟨0x708, 0x8, 1, 0x1ffffff, 0x0, 0x0, false⟩,
  ⟨0x710, 0x8, 1, 0xffffffff, 0x0, 0x0, false⟩,
  ⟨0x718, 0x8, 1, 0x0, 0x0, 0x7, false⟩,
  ⟨0x720, 0x8, 1, 0xffffffffffffffff, 0x0, 0x0, false⟩,
  ⟨0x728, 0x8, 1, 0x0, 0xe0000, 0x0, false⟩,
  ⟨0x730, 0x8, 1, 0x0, 0x0, 0x0, false⟩]

/-- Registers of the hub-side blocks, by BAR0 offset (part 2). -/
def hubRows2 : List RegRow := [
  ⟨0x738, 0x8, 1, 0x0, 0x0, 0x0, false⟩,
  ⟨0x740, 0x8, 1, 0x0, 0x0, 0x0, false⟩,
  ⟨0x800, 0x8, 1, 0xffffc0000000, 0x0, 0x0, false⟩,
  ⟨0x808, 0x8, 1, 0x0, 0x0, 0x0, false⟩,
  ⟨0x810, 0x8, 1, 0x0, 0x3, 0x0, false⟩,
  ⟨0x818, 0x8, 1, 0x7ff, 0x0, 0x0, false⟩,
  ⟨0x1000, 0x8, 1, 0x0, 0x0, 0x0, false⟩,
  ⟨0x1008, 0x8, 1, 0xffffffff, 0x0, 0x0, false⟩,
  ⟨0x1010, 0x8, 1, 0x0, 0x0, 0x0, false⟩,
  ⟨0x1018, 0x8, 1, 0x0, 0x0, 0x3, false⟩,
  ⟨0x1020, 0x8, 1, 0x0, 0x0, 0x0, false⟩,
  ⟨0x1100, 0x10, 64, 0x0, 0x0, 0x0, false⟩,
  ⟨0x1108, 0x10, 64, 0x0, 0x0, 0x0, false⟩,
  ⟨0x2000, 0x8, 256, 0x0, 0x0, 0x0, false⟩,
  ⟨0x4000, 0x8, 152, 0x0, 0x0, 0x0, false⟩,
  ⟨0x4800, 0x8, 9, 0x0, 0x0, 0x0, false⟩,
  ⟨0x5000, 0x8, 152, 0x0, 0x0, 0x0, false⟩,
  ⟨0x8000, 0x10, 64, 0x0, 0x7f00000000, 0x0, false⟩,
  ⟨0x8008, 0x10, 64, 0x0, 0x0, 0x0, false⟩,
  ⟨0x10000, 0x8, 1, 0x0, 0x0, 0x0, false⟩,
  ⟨0x10008, 0x8, 1, 0x0, 0x0, 0x0, false⟩,
  ⟨0x10010, 0x8, 1, 0x0, 0x0, 0x0, false⟩,
  ⟨0x10018, 0x8, 1, 0x0, 0x0, 0x0, false⟩,
  ⟨0x10020, 0x8, 1, 0x0, 0x0, 0x7, false⟩,
  ⟨0x10028, 0x8, 1, 0x0, 0xff, 0x0, false⟩,
  ⟨0x10040, 0x8, 1, 0xffffffffffffffff, 0x0, 0x0, false⟩,
  ⟨0x10048, 0x8, 1, 0xffffffffffffffff, 0x0, 0x0, false⟩,
  ⟨0x10050, 0x8, 1, 0x0, 0x0, 0x3ff003f, false⟩,
  ⟨0x10058, 0x8, 1, 0x0, 0x0, 0x0, false⟩,
  ⟨0x10060, 0x8, 1, 0x0, 0x0, 0x0, false⟩,
  ⟨0x10080, 0x8, 1, 0x0, 0x0, 0x0, false⟩,
  ⟨0x10100, 0x8, 1, 0xffff0000, 0x0, 0x0, false⟩,
  ⟨0x10108, 0x8, 1, 0xffff0000, 0x0, 0x0, false⟩,
  ⟨0x10200, 0x8, 32, 0xffff0000, 0x0, 0x0, false⟩,
  ⟨0x10300, 0x8, 58, 0xffff0000, 0x0, 0x0, false⟩,
  ⟨0x10500, 0x8, 32, 0x0, 0x0, 0x0, false⟩,
  ⟨0x20000, 0x8, 1, 0x0, 0x0, 0x0, false⟩,
  ⟨0x20008, 0x8, 1, 0x0, 0x0, 0x0, false⟩,
  ⟨0x20018, 0x8, 4, 0x0, 0x0, 0x0, false⟩,
  ⟨0x20100, 0x400, 3, 0x0, 0x0, 0x0, false⟩]

/-- Registers of the hub-side blocks, by BAR0 offset (part 3). -/
def hubRows3 : List RegRow := [
  ⟨0x20108, 0x400, 3, 0x0, 0x0, 0x3, false⟩,
  ⟨0x20110, 0x400, 3, 0x0, 0x0, 0x0, false⟩,
  ⟨0x20300, 0x8, 42, 0xffffffffffffffff, 0x0, 0x0, false⟩,
  ⟨0x20700, 0x8, 42, 0xffffffffffffffff, 0x0, 0x0, false⟩,
  ⟨0x20b00, 0x8, 42, 0xffffffffffffffff, 0x0, 0x0, false⟩,
  ⟨0x30000, 0x8, 1, 0x0, 0x0, 0x0, false⟩,
  ⟨0x30008, 0x8, 1, 0x0, 0x0, 0x7, false⟩,
  ⟨0x30010, 0x8, 1, 0x0, 0x0, 0x0, false⟩,
  ⟨0x30018, 0x8, 1, 0xffff, 0x0, 0x0, false⟩,
  ⟨0x30020, 0x8, 1, 0x0, 0x1ff, 0x0, false⟩,
  ⟨0x30108, 0x8, 11, 0x0, 0x0, 0x0, false⟩,
  ⟨0x30200, 0x8, 30, 0x0, 0x20000, 0x0, false⟩,
  ⟨0x30300, 0x8, 9, 0x0, 0x0, 0x0, false⟩,
  ⟨0x40000, 0x8, 1, 0x0, 0x0, 0x0, false⟩,
  ⟨0x40008, 0x8, 1, 0x107ff, 0x0, 0x7000000, false⟩,
  ⟨0x40010, 0x8, 1, 0x1ff0000, 0x0, 0x0, false⟩,
  ⟨0x40018, 0x8, 1, 0x0, 0x0, 0x0, false⟩,
  ⟨0x40020, 0x8, 1, 0xff7, 0x0, 0x70000, false⟩,
  ⟨0x40028, 0x8, 1, 0x0, 0x0, 0x0, false⟩,
  ⟨0x40030, 0x8, 1, 0x0, 0x0, 0x0, false⟩,
  ⟨0x40100, 0x8, 64, 0x0, 0x0, 0x0, false⟩,
  ⟨0x41000, 0x8, 80, 0x0, 0x0, 0x0, false⟩,
  ⟨0x42000, 0x8, 1280, 0x0, 0x0, 0x0, false⟩,
  ⟨0x48000, 0x8, 4096, 0x0, 0x0, 0x0, false⟩,
  ⟨0x50000, 0x8, 1, 0x1, 0x0, 0x0, false⟩,
  ⟨0x50100, 0x8, 1, 0x0, 0x0, 0xffffffff00ff07ff, true⟩,
  ⟨0x50108, 0x8, 1, 0x1, 0x0, 0x0, false⟩,
  ⟨0x60000, 0x8, 1, 0x0, 0x100000, 0x0, false⟩,
  ⟨0x60008, 0x8, 1, 0xffffffff, 0x0, 0x0, false⟩,
  ⟨0x60010, 0x8, 1, 0x0, 0x0, 0x3, false⟩,
  ⟨0x60018, 0x8, 1, 0x0, 0x0, 0x0, false⟩,
  ⟨0x60020, 0x8, 1, 0x0, 0x0, 0x0, false⟩,
  ⟨0x800000, 0x8, 1, 0x0, 0x0, 0x0, false⟩,
  ⟨0x800008, 0x8, 1, 0x0, 0x0, 0x0, false⟩,
  ⟨0x800010, 0x8, 1, 0x0, 0x0, 0x1, false⟩,
  ⟨0x800100, 0x8, 4, 0x0, 0x0, 0x0, false⟩,
  ⟨0x801000, 0x8, 64, 0x0, 0x20000, 0x0, false⟩,
  ⟨0xc00000, 0x8, 32768, 0x0, 0x0, 0xffffffff, false⟩]

/-- Registers of the hub-side blocks, by BAR0 offset. -/
def hubRows : List RegRow := hubRows1 ++ hubRows2 ++ hubRows3

/-- Registers of a TILE_ page (part 1). -/
def tileRows1 : List RegRow := [
  ⟨0xf00, 0x8, 1, 0x0, 0x1f1f, 0x0, false⟩,
  ⟨0x1000, 0x8, 1, 0x0, 0x0, 0x0, false⟩,
  ⟨0x1008, 0x8, 1, 0x0, 0x3, 0x0, false⟩,
  ⟨0x1010, 0x8, 1, 0x0, 0x0, 0x0, false⟩,
  ⟨0x1018, 0x8, 1, 0x0, 0x0, 0x0, false⟩,
  ⟨0x1100, 0x8, 1, 0x0, 0x0, 0x0, false⟩,
  ⟨0x1108, 0x8, 1, 0xffffffffffffffff, 0x0, 0x0, false⟩,
  ⟨0x1110, 0x8, 1, 0xffffffffffffffff, 0x0, 0x0, false⟩,
  ⟨0x1118, 0x8, 1, 0x0, 0x0, 0xffffffffffffffff, true⟩,
  ⟨0x1120, 0x8, 1, 0x0, 0x0, 0x0, false⟩,
  ⟨0x1128, 0x8, 1, 0x0, 0x0, 0x0, false⟩,
  ⟨0x1200, 0x8, 1, 0x0, 0x0, 0x0, false⟩,
  ⟨0x1208, 0x8, 1, 0x0, 0x0, 0x0, false⟩,
  ⟨0x1210, 0x8, 1, 0x0, 0x0, 0x0, false⟩,
  ⟨0x1218, 0x8, 1, 0x0, 0x0, 0x0, false⟩,
  ⟨0x1220, 0x8, 1, 0x0, 0x0, 0x0, false⟩,
  ⟨0x1228, 0x8, 1, 0x0, 0x0, 0x0, false⟩,
  ⟨0x1300, 0x8, 1, 0x83ffffffffff, 0x0, 0x0, false⟩,
  ⟨0x1308, 0x8, 1, 0x0, 0x0, 0x0, false⟩,
  ⟨0x1400, 0x8, 64, 0x80ffffffffff, 0x0, 0x0, false⟩,
  ⟨0x1600, 0x8, 1, 0x0, 0x0, 0x0, false⟩,
  ⟨0x1608, 0x8, 1, 0x0, 0x0, 0x0, false⟩,
  ⟨0x1610, 0x8, 1, 0x0, 0x0, 0x0, false⟩,
  ⟨0x1618, 0x8, 1, 0x0, 0x0, 0x0, false⟩,
  ⟨0x1700, 0x8, 1, 0x0, 0x0, 0x0, false⟩,
  ⟨0x1708, 0x8, 1, 0x0, 0x0, 0x0, false⟩,
  ⟨0x1710, 0x8, 1, 0x0, 0x0, 0x0, false⟩,
  ⟨0x1718, 0x8, 1, 0x0, 0x0, 0x0, false⟩,
  ⟨0x1720, 0x8, 1, 0x0, 0x0, 0x0, false⟩,
  ⟨0x1800, 0x8, 64, 0x0, 0x0, 0x0, false⟩,
  ⟨0x1a00, 0x8, 1, 0x0, 0x0, 0x0, false⟩,
  ⟨0x1a08, 0x8, 1, 0x0, 0x0, 0xffffffff000000ff, true⟩,
  ⟨0x1a10, 0x8, 1, 0x0, 0x0, 0xffffffff000000ff, true⟩,
  ⟨0x1a18, 0x8, 1, 0x0, 0x0, 0x0, false⟩,
  ⟨0x2000, 0x8, 256, 0x0, 0x0, 0x0, false⟩,
  ⟨0x2800, 0x8, 1, 0x3, 0x0, 0x0, false⟩,
  ⟨0x2808, 0x8, 4, 0x0, 0x0, 0x0, false⟩,
  ⟨0x3000, 0x100, 16, 0xffffffffffffff03, 0x0, 0x0, false⟩,
  ⟨0x3008, 0x100, 16, 0x0, 0x0, 0x0, false⟩,
  ⟨0x3010, 0x100, 16, 0x0, 0x0, 0x0, false⟩]

/-- Registers of a TILE_ page (part 2). -/
def tileRows2 : List RegRow := [
  ⟨0x3018, 0x100, 16, 0x0, 0x0, 0x0, false⟩,
  ⟨0x3020, 0x100, 16, 0x0, 0x0, 0x0, false⟩,
  ⟨0x3028, 0x100, 16, 0x0, 0x0, 0x0, false⟩,
  ⟨0x3030, 0x100, 16, 0x0, 0x0, 0x0, false⟩,
  ⟨0x3038, 0x100, 16, 0x0, 0x0, 0x0, false⟩,
  ⟨0x3040, 0x100, 16, 0x0, 0x0, 0x0, false⟩,
  ⟨0x3050, 0x100, 16, 0x0, 0x0, 0x0, false⟩,
  ⟨0x3058, 0x100, 16, 0x0, 0x0, 0x0, false⟩,
  ⟨0x3060, 0x100, 16, 0x0, 0x0, 0x0, false⟩,
  ⟨0x3068, 0x100, 16, 0x0, 0x0, 0x0, false⟩,
  ⟨0x3070, 0x100, 16, 0x0, 0x0, 0x0, false⟩,
  ⟨0x3080, 0x100, 16, 0x0, 0x0, 0x0, false⟩,
  ⟨0x3088, 0x100, 16, 0x0, 0x0, 0x0, false⟩,
  ⟨0x3090, 0x100, 16, 0x0, 0x0, 0x0, false⟩,
  ⟨0x3098, 0x100, 16, 0x0, 0x0, 0x0, false⟩,
  ⟨0x30a0, 0x100, 16, 0x0, 0x0, 0x0, false⟩,
  ⟨0x4000, 0x8, 512, 0x0, 0x0, 0x0, false⟩,
  ⟨0x5000, 0x8, 512, 0x0, 0x0, 0x0, false⟩,
  ⟨0x6000, 0x8, 512, 0x0, 0x0, 0x0, false⟩,
  ⟨0x7000, 0x8, 512, 0x0, 0x0, 0x0, false⟩]

/-- Registers of a TILE_ page. -/
def tileRows : List RegRow := tileRows1 ++ tileRows2

/-- Registers of a stack page of the HBM_ block. -/
def stackRows : List RegRow := [
  ⟨0x0, 0x8, 1, 0x0, 0x60, 0x0, false⟩,
  ⟨0x8, 0x8, 1, 0x0, 0x0, 0x10000, false⟩,
  ⟨0x10, 0x8, 1, 0x0, 0x0, 0x0, false⟩,
  ⟨0x18, 0x8, 1, 0x0, 0x0, 0x0, false⟩,
  ⟨0x20, 0x8, 1, 0x100, 0x0, 0x7, false⟩,
  ⟨0x28, 0x8, 1, 0xffff3f1f, 0x0, 0x0, false⟩,
  ⟨0x30, 0x8, 1, 0xffffffffffffffff, 0x0, 0x0, false⟩,
  ⟨0x38, 0x8, 1, 0x0, 0x0, 0x0, false⟩,
  ⟨0x100, 0x8, 32, 0x0, 0x8000, 0x0, false⟩]

/-- Registers of a port page of the LNK_ block. -/
def portRows : List RegRow := [
  ⟨0x0, 0x8, 1, 0x3, 0x0, 0x0, false⟩,
  ⟨0x8, 0x8, 1, 0x0, 0x0, 0x0, false⟩,
  ⟨0x10, 0x8, 1, 0x0, 0x0, 0x3, false⟩,
  ⟨0x18, 0x8, 1, 0x0, 0xff, 0x0, false⟩,
  ⟨0x20, 0x8, 1, 0x0, 0x0, 0x0, false⟩,
  ⟨0x28, 0x8, 1, 0x0, 0x0, 0x0, false⟩,
  ⟨0x30, 0x8, 1, 0x0, 0x0, 0x0, false⟩]

/-- Registers of one queue in the FE_ block. -/
def queueRows : List RegRow := [
  ⟨0x0, 0x8, 1, 0xfffffffffffff000, 0x0, 0x0, false⟩,
  ⟨0x8, 0x8, 1, 0xffffffff07ff077f, 0x0, 0x0, false⟩,
  ⟨0x10, 0x8, 1, 0xfffffffffffffff8, 0x0, 0x0, false⟩,
  ⟨0x18, 0x8, 1, 0x0, 0x0, 0x0, false⟩,
  ⟨0x20, 0x8, 1, 0x0, 0x0, 0x0, false⟩,
  ⟨0x28, 0x8, 1, 0x0, 0x0, 0x7, false⟩,
  ⟨0x30, 0x8, 1, 0x0, 0x0, 0x0, false⟩,
  ⟨0x38, 0x8, 1, 0x0, 0x0, 0x0, false⟩]

/-- The row that holds a register at offset `off`. -/
def findRow (rows : List RegRow) (off : Nat) : Option RegRow :=
  rows.find? (fun r => r.base ≤ off && (off - r.base) % r.stride == 0 && (off - r.base) / r.stride < r.count)

/-- Where an offset of the register window leads (04 R73). -/
inductive Place where
  | hub (off : Nat)
  | tile (t off : Nat)
  | stack (st off : Nat)
  | port (p off : Nat)
  | queue (q off : Nat)
  | aperture (oe : Bool) (off : Nat)
  | gap
  deriving DecidableEq, Repr

/-- The page of a register-window offset. -/
def regPlace (off : Nat) : Place :=
  if off < 0x70000 then .hub off
  else if off < 0x100000 then .gap
  else if off < 0x200000 then .stack ((off - 0x100000) / 0x10000) ((off - 0x100000) % 0x10000)
  else if off < 0x400000 then .port ((off - 0x200000) / 0x10000) ((off - 0x200000) % 0x10000)
  else if off < 0x410000 then .aperture false (off - 0x400000)
  else if off < 0x420000 then .aperture true (off - 0x410000)
  else if off < 0x800000 then .gap
  else if 0xA00000 ≤ off && off < 0xC00000 then .queue ((off - 0xA00000) / 64) ((off - 0xA00000) % 64)
  else if off < 0x1000000 then .hub off
  else if off < 0x1000000 + 1200 * 0x8000 then .tile ((off - 0x1000000) / 0x8000) ((off - 0x1000000) % 0x8000)
  else .gap

/-- The layout row of a place's register. -/
def Place.row? : Place → Option RegRow
  | .hub o => findRow hubRows (o - o % 8)
  | .tile _ o => findRow tileRows (o - o % 8)
  | .stack _ o => findRow stackRows (o - o % 8)
  | .port _ o => findRow portRows (o - o % 8)
  | .queue _ o => findRow queueRows (o - o % 8)
  | .aperture _ _ => none
  | .gap => none

/-- The block a register-window offset lies in, as its target code (04 R78). -/
def blockTarget (off : Nat) : Nat :=
  if off < 0x70000 then 0x2000 + off / 0x10000
  else if off < 0x200000 then 0x2007
  else if off < 0x800000 then 0x2008
  else if off < 0x1000000 then 0x2009
  else 0x200A

end Sys2Proof.Machine
end

