-- ==== Sys2Proof/Machine/Access.lean ====
section
/-! DEFINITION. The address map and the access tables (04 R68 to R85, 19 R414 to R416), and plain reads and writes of registers (00 R7
to R9). -/

namespace Sys2Proof.Machine

/-- The master code of 04 R79. -/
def masterCode : Master → Nat
  | .host => 0
  | .cpc => 1
  | .debug => 2
  | .shelf => 3
  | .oe b => 0x10 + b2n b
  | .bay b => 0x100 + b.val
  | .ingress g => 0x1000 + g.val

/-- The bank of a master that has one (03 R60, 19 R407). -/
def bankOfMaster : Master → Option Nat
  | .host => some 0
  | .cpc => some 1
  | .debug => some 2
  | _ => none

/-- ON, for 19 R416: ENTERING has not left it (DEDUCED, log 11). -/
def State.pwrOn (s : State) : Bool := s.rd F.PWR_STATUS_state == 1 || s.rd F.PWR_STATUS_state == 4
/-- MOTHBALL: from the entry's end until the wake's end (18 R400 to R402). -/
def State.pwrMb (s : State) : Bool := s.rd F.PWR_STATUS_state == 2 || s.rd F.PWR_STATUS_state == 5
/-- AUTH_OPEN. -/
def State.debugOpen (s : State) : Bool := s.on F.SEC_STATUS_debug
/-- Debug-port grants hold (19 R416). -/
def State.debugGrants (s : State) : Bool := s.debugOpen && (s.pwrOn || s.pwrMb)

/-- What a device-local address leads to (04 R69 to R71). -/
inductive Target where
  | hbm (r : Region)
  | spad (t off : Nat)
  | reg (off : Nat)
  | shelf (off : Nat)
  | loft (off : Nat)
  | unmapped
  deriving DecidableEq, Repr

/-- Whether a register-window offset lies in a page that is there (04 R70, R73). -/
def State.pageThere (s : State) (off : Nat) : Bool :=
  match regPlace off with
  | .gap => false
  | .tile t _ => s.present t
  | .stack st _ => st < 16
  | .port p _ => p < 32
  | .queue q _ => q < 32768
  | _ => true

/-- Whether a register-window offset holds a register, or an aperture byte. -/
def State.regThere (s : State) (off : Nat) : Bool :=
  s.pageThere off && (match regPlace off with
    | .aperture _ _ => true
    | p => p.row?.isSome)

/-- The object that holds bytes a to a + n − 1 of the device-local map, whole (04 R69 to R71, 02 R32). -/
def State.target (s : State) (a n : Nat) : Target :=
  if 0xFFFFFC000000 ≤ a then
    if a + n ≤ 2 ^ 48 && s.regThere (a - 0xFFFFFC000000) then .reg (a - 0xFFFFFC000000) else .unmapped
  else if 0xFFFFF8000000 ≤ a then (if a + n ≤ 0xFFFFFC000000 then .shelf (a - 0xFFFFF8000000) else .unmapped)
  else
    match s.image? with
    | none => .unmapped
    | some i =>
      if i.spadBase ≤ a && a < i.spadBase + 1200 * 0x400000 then
        let t := (a - i.spadBase) / 0x400000
        let o := (a - i.spadBase) % 0x400000
        if i.present t && o + n ≤ 0x300000 then .spad t o else .unmapped
      else if i.loftBase ≤ a && a + n ≤ i.loftBase + i.loftSize then .loft (a - i.loftBase)
      else
        match i.regions.find? (fun r => r.base ≤ a && a + n ≤ r.base + r.size) with
        | some r => .hbm r
        | none => .unmapped

/-- The target code of 04 R78; 0xFFFE the loft (R84), 0xFFFF unmapped. -/
def Target.code : Target → Nat
  | .hbm r => if r.attr % 2 = 1 then 0x40 else r.id
  | .spad t _ => 0x1000 + t
  | .reg off => blockTarget off
  | .shelf _ => 0x3000
  | .loft _ => 0xFFFE
  | .unmapped => 0xFFFF

/-- The fixed grants of 04 R81, as bits 0 read, 1 write. `off`: the register-window offset, for the grants of a part. -/
def State.fixedGrant (s : State) (m : Master) (tgt : Target) : Nat :=
  match m, tgt with
  | .cpc, .loft _ => 3
  | .cpc, .unmapped => 0
  | .cpc, _ => 3
  | .host, .reg off => if blockTarget off = 0x2005 then 0 else 3
  | .debug, .reg off => if blockTarget off = 0x2005 then 3 else 0
  | .bay b, .spad t _ => if s.bayOf t = some b.val then 3 else 0
  | .bay b, .reg off =>
    match regPlace off with
    | .tile t _ => if s.bayOf t = some b.val then 3 else 0
    | _ => 0
  | .oe b, .reg off =>
    match regPlace off with
    | .aperture c _ => if b = c then 3 else 0
    | _ => 0
  | _, _ => 0

/-- The rights an ACCESS record gives (04 R80). -/
def Image.recorded (i : Image) (target master : Nat) : Nat :=
  ((i.access.find? (fun r => r.target == target && r.master == master)).map (·.perms)).getD 0

/-- The rights of a master at a target: the union of fixed and recorded grants (04 R80), the debug port's only where 19 R416 permits
them (R414). -/
def State.rights (s : State) (m : Master) (tgt : Target) : Nat :=
  if m = .debug ∧ s.debugGrants = false then 0
  else s.fixedGrant m tgt ||| s.image.recorded tgt.code (masterCode m)

/-- The registers of a master's own bank are reached by no other master (03 R60, 19 R407); the debug port reads SEC_STATUS and
DBG_TAP_CHAIN and uses SEC bank 2 at all times (R414). `some true` permits, `some false` denies, none leaves it to the tables. -/
def regException (m : Master) (off : Nat) (write : Bool) : Option Bool :=
  if 0x10040 ≤ off && off < 0x10060 then (if (bankOfMaster m).isSome then none else some false)
  else if 0x20100 ≤ off && off < 0x20D00 then
    match bankOfMaster m with
    | some b => if (off - 0x20100) / 0x400 = b then (if m = .debug then some true else none) else some false
    | none => some false
  else if m = .debug ∧ write = false ∧ (off / 8 * 8 = 0x20000 ∨ off / 8 * 8 = 0x50000) then some true
  else none

/-- Whether a request is permitted (04 R80 to R84). kind: 1 read, 2 write, 4 execute; `byD`: a bay request issued by D, the only one the
loft admits beside the CPC (R84). -/
def State.permits (s : State) (m : Master) (tgt : Target) (kind : Nat) (byD : Bool) : Bool :=
  match tgt with
  | .loft _ =>
    match m with
    | .cpc => kind != 4
    | .bay _ => byD && kind != 4
    | _ => false
  | .reg off =>
    match regException m off (kind == 2) with
    | some b => b
    | none => s.rights m tgt &&& kind != 0
  | _ => s.rights m tgt &&& kind != 0

/-- One entry of the access log (04 R85). -/
def State.logAccess (s : State) (unmapped : Bool) (master target kind addr : Nat) : State :=
  let n := s.rd F.HUB_ACC_LOG_PTR_next
  let s1 := s.bump (if unmapped then F.HUB_ACC_COUNTS_unmapped else F.HUB_ACC_COUNTS_denied)
  let s2 := s1.wrs [(F.HUB_ACC_LOG_ADDR_addr n, addr), (F.HUB_ACC_LOG_INFO_master n, master),
    (F.HUB_ACC_LOG_INFO_target n, target), (F.HUB_ACC_LOG_INFO_kind n, kind), (F.HUB_ACC_LOG_INFO_unmapped n, b2n unmapped),
    (F.HUB_ACC_LOG_INFO_valid n, 1), (F.HUB_ACC_LOG_INFO_tn_low n, s.tn),
    (F.HUB_ACC_LOG_PTR_next, n + 1), (F.HUB_ACC_LOG_PTR_wrapped, if n = 63 then 1 else s.rd F.HUB_ACC_LOG_PTR_wrapped)]
  s2.logs (if unmapped then .ADDR_UNMAPPED else .ACCESS_DENIED) [master, target, kind, addr]

/-- The global address of a device-local one (04 R68). -/
def State.global (s : State) (a : Nat) : Nat := 2 ^ 48 * s.devId + a % 2 ^ 48

/-- The absent tile whose scratchpad window or TILE_ page holds local address `a` (01 R14; 02 R32; 04 R70). -/
def State.absentAt (s : State) (a : Nat) : Option Nat :=
  let lost := fun (t : Nat) => if t < 1200 && s.image?.isSome && !s.present t then some t else none
  if 0xFFFFFC000000 ≤ a then (match regPlace (a - 0xFFFFFC000000) with | .tile t _ => lost t | _ => none)
  else if s.image.spadBase ≤ a then lost ((a - s.image.spadBase) / 0x400000)
  else none

/-- TILE_ABSENT, when the rejected address names an absent tile (01 R14). -/
def State.logAbsent (s : State) (a : Nat) : State :=
  match s.absentAt a with
  | some t => s.logs .TILE_ABSENT [t]
  | none => s

/-- What the check of a request at its target says. -/
inductive Check where
  | ok (tgt : Target)
  | denied
  | unmapped
  | asleep
  | misaligned
  deriving DecidableEq, Repr

/-- The check of a request of `n` bytes at local address `a` (04 R70 to R72, R80 to R84; 18 R401), and its log. The order: width and
alignment in the register window, mapping, rights, sleep (DESIGN CHOICE, log 12). -/
def State.check (s : State) (m : Master) (a n kind : Nat) (byD : Bool) : State × Check :=
  let tgt := s.target a n
  if 0xFFFFFC000000 ≤ a && !((n == 4 || n == 8) && a % n == 0) then (s.logs .REG_MISALIGNED [masterCode m, a, n], .misaligned)
  else if tgt = .unmapped then ((s.logAccess true (masterCode m) 0xFFFF kind (s.global a)).logAbsent a, .unmapped)
  else if !s.permits m tgt kind byD then (s.logAccess false (masterCode m) tgt.code kind (s.global a), .denied)
  else if s.pwrMb && (match tgt with | .hbm _ => true | .spad _ _ => true | .reg off => 0x1000000 ≤ off | _ => false) then
    (s.logs .PWR_ASLEEP [masterCode m, a], .asleep)
  else (s, .ok tgt)

/-- Whether master `m` may write `n` bytes of the register at window offset `off`, with the log of a refusal: the check of every command that
stands for a register write (00 R9; 04 R81, R83; 19 R414 to R416). -/
def State.guard (s : State) (m : Master) (off : Nat) (n : Nat := 8) : State × Bool :=
  match s.check m (0xFFFFFC000000 + off) n 2 false with
  | (s1, .ok _) => (s1, true)
  | (s1, _) => (s1, false)

/-- No register can be reached: the 48 V domains are off, or PERST_N holds the hub (18 R386; 19 R416; 22 R453). -/
def State.dark (s : State) : Bool := s.pwr.off || s.pwr.resetHeld

/-- What the recovery image offers of the operations at a control register: those of HUB_FW_CTRL and PWR_CTRL that act in RECOVERY; the write
of HUB_BAR2_WINDOW is none (21 R448). Any other operation is ignored (DESIGN CHOICE, log 122). -/
def State.offers (s : State) (off : Nat) : Bool := s.rd F.PWR_STATUS_state != 3 || off == 0x718 || off == 0x30008 || off == 0x800

/-- A register command: its effect when the master may write the register, otherwise only the log. -/
def State.guarded (s : State) (m : Master) (off : Nat) (f : State → State) (n : Nat := 8) : State :=
  if s.dark then s
  else if (s.guard m off n).2 && s.offers off then f (s.guard m off n).1 else (s.guard m off n).1

/-! Registers by place. -/

/-- The offset under which `State.regs` keeps a hub-side register for master `m`: the TB_ACT_ banks apart (03 R60). -/
def hubKey (m : Master) (off : Nat) : Nat :=
  if 0x10040 ≤ off && off < 0x10060 then off + 2 ^ 32 * (bankOfMaster m).getD 0 else off

/-- The stored word of a place's register. -/
def State.regWord (s : State) (m : Master) : Place → Dword
  | .hub o => rget s.regs (hubKey m o)
  | .tile t o => rget (s.tile t).regs o
  | .stack st o => rget (s.stack st).regs o
  | .port p o => rget (s.port p).regs o
  | .queue q o => rget (s.queue q).regs o
  | .aperture _ _ => 0
  | .gap => 0

/-- The state with a register's stored word. -/
def State.setRegWord (s : State) (m : Master) (v : Dword) : Place → State
  | .hub o => s.setRegs (rput s.regs (hubKey m o) v)
  | .tile t o => s.setTile t { s.tile t with regs := rput (s.tile t).regs o v }
  | .stack st o => s.setStack st { s.stack st with regs := rput (s.stack st).regs o v }
  | .port p o => s.setPort p { s.port p with regs := rput (s.port p).regs o v }
  | .queue q o => s.setQueue q { s.queue q with regs := rput (s.queue q).regs o v }
  | .aperture _ _ => s
  | .gap => s

/-- The place with its offset rounded down to the register. -/
def Place.reg : Place → Place
  | .hub o => .hub (o / 8 * 8)
  | .tile t o => .tile t (o / 8 * 8)
  | .stack st o => .stack st (o / 8 * 8)
  | .port p o => .port p (o / 8 * 8)
  | .queue q o => .queue q (o / 8 * 8)
  | p => p

/-- The bits of a register that a write of `size` bytes at `off` reaches (00 R9). -/
def reach (off size : Nat) : Nat := if size = 8 then 2 ^ 64 - 1 else if off % 8 = 0 then 2 ^ 32 - 1 else (2 ^ 32 - 1) <<< 32

/-- The written value placed at its half. -/
def lane (off size : Nat) (v : Nat) : Nat := if size = 8 then v % 2 ^ 64 else if off % 8 = 0 then v % 2 ^ 32 else (v % 2 ^ 32) <<< 32

/-- A register's word after a write (00 R7, R9): RW bits of the reached half take the value, W1C bits written as 1 clear, every other
bit stays. -/
def mergeWrite (r : RegRow) (old : Dword) (off size v : Nat) : Dword :=
  let m := BitVec.ofNat 64 (reach off size)
  let w := BitVec.ofNat 64 (lane off size v)
  let rw := BitVec.ofNat 64 r.rw &&& m
  let w1c := BitVec.ofNat 64 r.w1c &&& m
  (old &&& ~~~ rw &&& ~~~ (w1c &&& w)) ||| (w &&& rw)

/-- Whether a write has the width its register needs (00 R9). -/
def widthOk (r : RegRow) (size : Nat) : Bool := size == 8 || (size == 4 && !r.only8)

end Sys2Proof.Machine
end

