-- ==== Sys2Proof/Machine/Mesh.lean ====
section
/-! DEFINITION. The mesh between the dies (10 R222 to R226) and the sending side of the die bridges that carry it (01 R15 to R17).
Bundles are numbered by direction, as the byte counters of 20 R434 are (log 17): what travels in direction `d` arrives at end `d`, and is
sent by the end that receives the opposite direction. -/

namespace Sys2Proof.Machine

/-! Bundles. -/

/-- The byte counter of a direction: its join (20 R434). -/
def bundleCounter (b : Nat) : Nat := if b < 120 then 8 + b / 10 else 20 + (b - 120) / 16

/-- The compute dies that a bundle joins; the hub has no tile. -/
def bundleDies (b : Nat) : List Nat :=
  if b < 120 then (let j := b / 20; if j < 3 then [j, j + 1] else [j + 1, j + 2]) else [(b - 120) / 32]

/-- The opposite direction of the same bundle. -/
def opposite (b : Nat) : Nat :=
  if b < 120 then (if b / 10 % 2 = 0 then b + 10 else b - 10) else (if (b - 120) / 16 % 2 = 0 then b + 16 else b - 16)

/-- A bundle is down when BRIDGE_DOWN was raised in either direction (01 R18). -/
def State.bundleDown (s : State) (b : Nat) : Bool := (s.bundle b).down || (s.bundle (opposite b)).down
/-- A retrain of the bundle is in progress. -/
def State.bundleTraining (s : State) (b : Nat) : Bool := (s.bundle b).training || (s.bundle (opposite b)).training

/-- The rank of a channel, 0 the first (10 R223). -/
def vcRank (vc : Nat) : Nat :=
  match vc with
  | 7 => 0 | 6 => 1 | 3 => 2 | 2 => 3 | 4 => 4 | 5 => 5 | 1 => 6 | _ => 7

/-- A flit of this end (01 R16). -/
def bridgeFlitBytes (seq ack ftype vc credit : Nat) (payload : List Byte) : List Byte :=
  let b := leBytes 1 seq ++ leBytes 1 ack ++ leBytes 1 (ftype + 16 * vc) ++ leBytes 1 credit ++ payload ++
    List.replicate (248 - payload.length) 0
  b ++ leBytes 4 (crc32 b).toNat

/-- End `b` sends a flit: numbered, and kept among the last 64 (01 R17). -/
def State.bridgeSend (s : State) (b ftype vc credit : Nat) (payload : List Byte) (m : Option MeshFlit) : State :=
  let x := s.bundle b
  let fl := bridgeFlitBytes x.nextSeq ((x.expect + 255) % 256) ftype vc credit payload
  let kept := x.sent ++ [(x.nextSeq, fl, m)]
  (s.setBundle b { x with nextSeq := (x.nextSeq + 1) % 256, sent := kept.drop (kept.length - 64) }).sends (.bridgeFlit (opposite b) fl)

/-- The credits of channel `vc` that an end holds. How many a channel has at a start the spec does not say: 64, one for each flit that
can be resent (DESIGN CHOICE, log 99). -/
def Bundle.credit (x : Bundle) (vc : Nat) : Nat := kget x.credits vc 64

/-- The waiting flit that goes next (10 R225 step 2): of the channels that hold a credit, the one of lowest rank, its oldest. -/
def Bundle.next? (x : Bundle) : Option MeshFlit :=
  (x.held.filter (fun h => 0 < x.credit h.vc)).foldl (fun a h => match a with
    | none => some h
    | some b => if vcRank h.vc < vcRank b.vc then some h else some b) none

/-- The bundle is out of service: down, or a retrain is in progress. -/
def State.bundleOut (s : State) (b : Nat) : Bool := s.bundleDown b || s.bundleTraining b

/-- What end `b` sends next, while the bundle is in service and fewer than 64 flits are unacknowledged, so that none is lost to a resend
(01 R17): a retrain request that waits (17 R380), credits to return in an idle flit (01 R16), or a waiting mesh flit, for a credit, whose bytes
are counted (20 R434). The last place of the 64 is kept for the first two (DESIGN CHOICE, log 99). Channel 7 carries control (10 R223): mesh
control flits. -/
def State.bridgeNext (s : State) (b : Nat) : Option State :=
  let x := s.bundle b
  if s.bundleOut b || 64 ≤ x.sent.length then none
  else
    match x.asks, x.owed with
    | n :: l, _ => some ((s.setBundle b { x with asks := l }).bridgeSend b 4 0 0 (leBytes 1 n) none)
    | [], (vc, c) :: l =>
      some ((s.setBundle b { x with owed := if 255 < c then (vc, c - 255) :: l else l }).bridgeSend b 0 vc (min c 255) [] none)
    | [], [] =>
      if 63 ≤ x.sent.length then none
      else x.next?.map (fun h =>
        ((s.setBundle b { x with held := x.held.erase h, credits := kput x.credits h.vc (x.credit h.vc - 1) }).bridgeSend b
          (if h.vc = 7 then 2 else 1) h.vc 0 h.payload (some h)).count (bundleCounter (opposite b)) h.bytes)

/-- End `b` sends what it can, at most `n` flits. -/
def State.bridgeSendN (s : State) (b : Nat) : Nat → State
  | 0 => s
  | n + 1 => match s.bridgeNext b with
    | none => s
    | some t => t.bridgeSendN b n

/-- End `b` sends what waits, as far as 64 unacknowledged flits reach. -/
def State.bridgePump (s : State) (b : Nat) : State := s.bridgeSendN b 64

/-! Routes. -/

/-- The bundle from die `a` to the neighbouring die `b` of its row, on mesh row `r`. -/
def bridgeTo (a b r : Nat) : Nat := 20 * (min a b - min a b / 4) + (if a < b then 0 else 10) + r
/-- The bundle of column `c` between die `d` and the hub: towards it, and from it. -/
def toHub (d c : Nat) : Nat := 120 + 32 * d + c
def fromHub (d c : Nat) : Nat := 120 + 32 * d + 16 + c

/-- The bundles along row `r` from die `a` to die `b` of the same row of dies. -/
def bridgesAlong (a b r : Nat) : List Nat :=
  if a < b then (List.range (b - a)).map (fun i => bridgeTo (a + i) (a + i + 1) r)
  else (List.range (a - b)).map (fun i => bridgeTo (a - i) (a - i - 1) r)

/-- Die, mesh row and column at which a node's flits enter the mesh of a die; a controller's in row 9, beside it (DEDUCED, log 69). -/
def Node.entry : Node → Option (Nat × Nat × Nat)
  | .hub => none
  | .site d r c => some (d, r, c)
  | .stack d c => some (d, 9, c)

/-- The route of a flit as the directions of the bundles it crosses (10 R224); while a die bridge on it is down, the route by the hub, from
the die it is on (R226). -/
def State.route (s : State) (src dst : Node) : List Nat :=
  match src.entry, dst.entry with
  | none, none => []
  | some (d, _, c), none => [toHub d c]
  | none, some (d, _, c) => [fromHub d c]
  | some (d, r, c), some (d', _, c') =>
    if d / 4 = d' / 4 ∧ (bridgesAlong d d' r).all (fun b => !s.bundleDown b) = true then bridgesAlong d d' r
    else [toHub d c, fromHub d' c']

/-- Where a direction begins: the edge of the die that it leaves, on its mesh row, a column's north end, or the hub. -/
def bundleFrom (d : Nat) : Node :=
  if d < 120 then
    let l := if d / 20 < 3 then d / 20 else d / 20 + 1
    if d / 10 % 2 = 0 then .site l (d % 10) 15 else .site (l + 1) (d % 10) 0
  else if (d - 120) / 16 % 2 = 0 then .site ((d - 120) / 32) 0 ((d - 120) % 16) else .hub

/-- Where a direction ends. -/
def bundleTo (d : Nat) : Node := bundleFrom (opposite d)

/-- A mesh flit at `here` enters the next bundle of its route; within a die it is there (log 1). -/
def State.meshGo (s : State) (here : Node) (m : MeshFlit) : State :=
  match s.route here m.dst with
  | [] => s
  | d :: _ =>
    let x := s.bundle (opposite d)
    (s.setBundle (opposite d) { x with held := x.held ++ [m] }).bridgePump (opposite d)

/-- A packet's bytes cut into flit payloads of 248. -/
def cutFlits : Nat → List Byte → List (List Byte)
  | 0, _ => []
  | f + 1, l => if l.isEmpty then [] else l.take 248 :: cutFlits f (l.drop 248)

/-- Traffic enters the mesh at `src` for `dst`: the packet's bytes become flits on channel `vc` (01 R17, 10 R223, R224) that wait at the first
bundle of the route and go on to the next as they are accepted at its far end. The first of them counts the `n` payload bytes of the packet. The
layout of a packet inside the mesh is that of the links (DESIGN CHOICE, log 69). -/
def State.carry (s : State) (src dst : Node) (vc : Nat) (packet : List Byte) (n : Nat) : State :=
  ((cutFlits (packet.length + 1) packet).zipIdx).foldl (fun a p => a.meshGo src ⟨vc, p.1, if p.2 = 0 then n else 0, dst⟩) s

/-- A control message (10 R223): one flit on channel 7 with its kind, 0 a tick action, 1 LAUNCH, 2 an abort, 3 quiescence, and what it names. It
is all header, so that no byte of it is counted (DESIGN CHOICE, log 69: the spec lays out no control flit). -/
def controlFlit (kind arg : Nat) : List Byte := leBytes 1 kind ++ leBytes 8 arg

/-- A control message between a tile and the hub. -/
def State.control (s : State) (src dst : Node) (kind arg : Nat) : State := s.carry src dst 7 (controlFlit kind arg) 0

/-- A control broadcast of the hub: one flit on the bundle of every column of a list, as 16 × die + column, which then moves south along it
(10 R223, R224). -/
def State.broadcast (s : State) (cols : List Nat) (kind arg : Nat) : State :=
  s.forEach cols (fun a c => a.control .hub (.site (c / 16) 9 (c % 16)) kind arg)

/-- The next action that fires (03 R58), when it is of a type and meets a test, and the state without it: its broadcast leaves on every bundle of
the hub (R59). -/
def State.takeDue (s : State) (type : Nat) (f : Act → Bool := fun _ => true) : Option (Act × State) :=
  match s.tb.due with
  | [] => none
  | a :: l =>
    if a.type = type ∧ f a = true then some (a, ({ s with tb := { s.tb with due := l } } : State).broadcast (List.range 128) 0 type) else none

/-- The columns in which a list of tiles stands. -/
def State.columnsOf (s : State) (l : List Nat) : List Nat := (l.map (fun t => s.site t / 160 * 16 + s.site t % 16)).eraseDups

/-- The pieces of a range: at most 256 bytes, never across a 256-byte boundary (04 R71, 13 R285). -/
def cut256 : Nat → Nat → Nat → List (Nat × Nat)
  | 0, _, _ => []
  | f + 1, a, n =>
    if n = 0 then [] else
      let m := min n (256 - a % 256)
      (a, m) :: cut256 f (a + m) (n - m)

/-! Where things are. -/

/-- The site of logical tile `t`. -/
def State.tileNode (s : State) (t : Nat) : Node :=
  let w := s.site t
  .site (w / 160) (w % 160 / 16) (w % 16)

/-- The entry site of vault station `k` (09). -/
def stationNode (k : Nat) : Node := .site (k / 8) 0 (2 * (k % 8))

/-- The controller of a pseudo-channel (10 R224). -/
def pcNode (pc : Nat) : Node := .stack (pc / 64) (pc % 64 / 4)

/-- Where bytes at local address `a` are. Registers outside the TILE_ pages are taken to be on the hub (DEDUCED, log 69). -/
def State.addrNode (s : State) (a n : Nat) : Node :=
  match s.target a n with
  | .hbm r => pcNode (s.image.place r a).1
  | .spad t _ => s.tileNode t
  | .reg off => (match regPlace off with
    | .tile t _ => s.tileNode t
    | _ => .hub)
  | _ => .hub

/-- Where a request comes from: its tile, or the hub for all others and for what a link brought. -/
def State.reqNode (s : State) (r : Req) : Node :=
  if r.via.isNone && r.src.toNat == s.devId && r.tile.toNat < 1200 then s.tileNode r.tile.toNat else .hub

/-- Bytes that a unit of the hub reads (channels 0 and 2) or writes (channel 1) at local addresses, piece by piece between the hub and their
places (10 R223, R224). -/
def State.hubCarry (s : State) (write : Bool) (a : Nat) (data : List Byte) : State :=
  (cut256 (data.length / 256 + 2) a data.length).foldl (fun b p =>
    let d := sub data (p.1 - a) p.2
    if write then b.carry .hub (b.addrNode p.1 p.2) 1 d p.2 else b.carry (b.addrNode p.1 p.2) .hub 2 d p.2) s

end Sys2Proof.Machine
end

