-- ==== Sys2Proof/Machine/LinkOps.lean ====
section
/-! DEFINITION. Packets and the egress of a link port (15 R322 to R330): how a packet is laid out, routed, queued and sent. -/

namespace Sys2Proof.Machine

/-- The 32-byte header and data of a packet (15 R327). -/
def mkPacket (type vc src dst tile tag : Nat) (fields data : List Byte) (flags : Nat := 0) : List Byte :=
  let d := data ++ List.replicate ((4 - data.length % 4) % 4) 0
  leBytes 1 type ++ leBytes 1 (vc + 8 * flags) ++ leBytes 2 (32 + d.length) ++ leBytes 2 src ++ leBytes 2 dst ++
  leBytes 1 0 ++ leBytes 1 0 ++ leBytes 2 tile ++ leBytes 4 tag ++ (fields ++ List.replicate (16 - fields.length) 0) ++ d

def pktType (b : List Byte) : Nat := le b 0 1
def pktVc (b : List Byte) : Nat := le b 1 1 % 8
def pktFlags (b : List Byte) : Nat := le b 1 1 / 8
def pktLen (b : List Byte) : Nat := le b 2 2
def pktSrc (b : List Byte) : Nat := le b 4 2
def pktDst (b : List Byte) : Nat := le b 6 2
def pktHops (b : List Byte) : Nat := le b 8 1
def pktTile (b : List Byte) : Nat := le b 10 2
def pktTag (b : List Byte) : Nat := le b 12 4
/-- CTRL subtype. -/
def pktSub (b : List Byte) : Nat := le b 16 1

/-- The packet with hops raised by one: all a forwarding device changes (15 R327). -/
def pktHop (b : List Byte) : List Byte := b.take 8 ++ leBytes 1 (pktHops b + 1) ++ b.drop 9

/-- The status codes of a LAND_ACK or SIG_STATUS, and of a READ_RESP (15 R327). -/
def ackCode : Status → Nat
  | .ok => 0 | .denied => 1 | .unmapped => 2 | .dropped => 3 | .ecc => 4
def respCode : Status → Nat
  | .ok => 0 | .denied => 1 | .unmapped => 2 | .ecc => 3 | .dropped => 4

/-- A global stop holds the device from its stop instant until resume (03 R61). -/
def State.stopped (s : State) : Bool := s.on F.TB_STOP_STATUS_stopped
/-- FENCED (15 R338). -/
def State.fenced (s : State) : Bool := s.rd F.HUB_GRP_STATUS_state == 2

/-- The tag of a packet holds the issuer's tag and the launch epoch (10 R220; DESIGN CHOICE, log 13). -/
def tagEpoch (tag epoch : Nat) : Nat := tag % 2 ^ 24 + 2 ^ 24 * (epoch % 256)

def writePacket (src dst : Nat) (r : Req) (lc : Nat) (data : List Byte) : List Byte :=
  mkPacket 1 1 src dst r.tile.toNat (tagEpoch r.tag.toNat r.epoch.toNat)
    (leBytes 8 r.addr.toNat ++ leBytes 1 lc ++ leBytes 1 0 ++ leBytes 2 data.length) data
def readPacket (src dst : Nat) (r : Req) (n : Nat) : List Byte :=
  mkPacket 2 0 src dst r.tile.toNat (tagEpoch r.tag.toNat r.epoch.toNat) (leBytes 8 r.addr.toNat ++ leBytes 2 n) []
def respPacket (src dst tile tag epoch : Nat) (st : Status) (data : List Byte) : List Byte :=
  mkPacket 3 2 src dst tile (tagEpoch tag epoch) (leBytes 1 (respCode st) ++ List.replicate 7 0 ++ leBytes 2 data.length)
    (if st = .ok then data else [])
def signalPacket (src dst : Nat) (r : Req) (ctr n : Nat) : List Byte :=
  mkPacket 4 6 src dst r.tile.toNat (tagEpoch r.tag.toNat r.epoch.toNat) (leBytes 8 r.addr.toNat ++ leBytes 4 n ++ leBytes 1 ctr) []
def ackPacket (src dst tile tag epoch : Nat) (st : Status) (lc n : Nat) : List Byte :=
  mkPacket 9 3 src dst tile (tagEpoch tag epoch) (leBytes 1 4 ++ leBytes 1 (ackCode st) ++ leBytes 1 lc ++ leBytes 1 0 ++ leBytes 2 n) []
def sigPacket (src dst tile tag epoch : Nat) (st : Status) : List Byte :=
  mkPacket 9 3 src dst tile (tagEpoch tag epoch) (leBytes 1 5 ++ leBytes 1 (ackCode st)) []
def unreachPacket (src dst tile tag reason lost : Nat) : List Byte :=
  mkPacket 9 3 src dst tile tag (leBytes 1 6 ++ leBytes 1 reason ++ leBytes 1 lost) []
def reducePacket (src dst kind fmt id round row : Nat) (data : List Byte) : List Byte :=
  mkPacket 5 (if kind = 0 then 4 else 5) src dst 0x7FF 0
    (leBytes 1 kind ++ leBytes 1 fmt ++ leBytes 2 id ++ leBytes 2 round ++ leBytes 1 row) data
def tickPacket (src tn off depth : Nat) (hold : Bool) : List Byte :=
  mkPacket 6 7 src 0xFFFF 0x7FF 0 (leBytes 8 tn ++ leBytes 4 off ++ leBytes 1 depth ++ leBytes 1 (b2n hold)) []
def memberPacket (src period digest : Nat) (fenced : Bool) : List Byte :=
  mkPacket 8 7 src 0xFFFF 0x7FF 0 (leBytes 8 period ++ leBytes 8 digest) [] (b2n fenced)
/-- A CTRL packet to the neighbour: HELLO, DELAY_REQ, DELAY_RESP, STOP, STOP_DONE. -/
def ctrlPacket (src sub : Nat) (fields data : List Byte) : List Byte :=
  mkPacket 9 7 src 0xFFFF 0x7FF 0 (leBytes 1 sub ++ List.replicate 7 0 ++ fields) data

/-! Ports. -/

/-- LNK_STATUS.state is UP. -/
def State.portUp (s : State) (p : Nat) : Bool := (s.port p).rd F.LNK_STATUS_state == 3

/-- Flits that a packet takes at most: 244 payload bytes each, from the start of one. -/
def flitsOf (len : Nat) : Nat := (len + 243) / 244
/-- 64-byte credits a packet takes on its channel (15 R325). -/
def creditsOf (len : Nat) : Nat := (len + 63) / 64
/-- Full credit of a channel. -/
def fullCredit (vc : Nat) : Nat := if vc = 1 ∨ vc = 2 ∨ vc = 4 ∨ vc = 5 then 3584 else 512
/-- A port's full credits on every channel (15 R325). -/
def fullCredits : KMap Nat := (List.range 8).map (fun v => (v, fullCredit v))

/-- The 256 bytes of a link flit (15 R322). -/
def mkFlit (seq ftype ack vc credits start : Nat) (payload : List Byte) : List Byte :=
  let b := leBytes 2 (seq % 4096 + 4096 * ftype) ++ leBytes 2 (ack % 4096) ++ leBytes 1 vc ++ leBytes 1 credits ++
    leBytes 1 start ++ leBytes 1 0 ++ payload ++ List.replicate (244 - payload.length) 0
  b ++ leBytes 4 (crc32 b).toNat

/-- The highest sequence number received in order. -/
def Port.ack (x : Port) : Nat := (x.expect + 4095) % 4096

/-- The packets that always start at byte 8 of a new data flit (15 R326). -/
def pktAligned (b : List Byte) : Bool := pktType b == 6 || pktType b == 8 || (pktType b == 9 && [1, 2, 3, 7].contains (pktSub b))

/-- The STOP marker (03 R66). -/
def isStop (b : List Byte) : Bool := pktType b == 9 && pktSub b == 7

/-- A packet that leaves at `now`, queued at `queued`: the times it carries are those of its first bit on the wire (15 R326), a DELAY_REQ's t1 and
a DELAY_RESP's t3, and a token's departure offset from the edge at which it was queued (03 R50, R51). -/
def stampPkt (now queued : Nat) (b : List Byte) : List Byte :=
  if pktType b = 6 then b.take 24 ++ leBytes 4 (psOf (now - queued)) ++ b.drop 28
  else if pktType b = 9 ∧ pktSub b = 2 then b.take 24 ++ leBytes 8 (psOf now) ++ b.drop 32
  else if pktType b = 9 ∧ pktSub b = 3 then b.take 40 ++ leBytes 8 (le b 40 8 + psOf (now - queued)) ++ b.drop 48
  else b

/-- Packets laid as one stream into the payloads of successive data flits (15 R322). `seq`: the number of the flit being filled, `cur` its
payload so far, `start` the word where its first packet starts. The flits, and each packet with the number of the flit that it ends in; the last
flit ends in zeros (log 14). -/
def framePkts (ack : Nat) : List (List Byte) → Nat → List Byte → Nat → List (Nat × List Byte) × List (Nat × List Byte)
  | [], seq, cur, start => (if cur.isEmpty then [] else [(seq % 4096, mkFlit seq 1 ack 0 0 start cur)], [])
  | b :: l, seq, cur, start =>
    let cut := pktAligned b && !cur.isEmpty
    let sq := if cut then seq + 1 else seq
    let have_ := if cut then [] else cur
    let st := if cut || start == 0xFF then have_.length / 4 else start
    let body := have_ ++ b
    let k := body.length / 244
    let full := (List.range k).map (fun i =>
      ((sq + i) % 4096, mkFlit (sq + i) 1 ack 0 0 (if i = 0 then st else 0xFF) (sub body (244 * i) 244)))
    let rest := body.drop (244 * k)
    let r := framePkts ack l (sq + k) rest (if k = 0 then st else 0xFF)
    ((if cut then [(seq % 4096, mkFlit seq 1 ack 0 0 start cur)] else []) ++ full ++ r.1,
      ((if rest.isEmpty then sq + k - 1 else sq + k) % 4096, b) :: r.2)

/-- A packet holds its credits and fits the store beside `used` flits (15 R323, R325). -/
def Port.fits (x : Port) (used : Nat) (b : List Byte) : Bool :=
  creditsOf b.length ≤ kget x.credits (pktVc b) 0 && x.store.length + used + flitsOf b.length ≤ 768

/-- The head packet of each channel that may leave (15 R326). -/
def Port.ready (x : Port) (used : Nat) : List (Nat × List Byte) :=
  ((List.range 8).filterMap (fun v => x.egress.find? (fun e => pktVc e.2 == v))).filter (fun e => x.fits used e.2)

/-- The entry of lowest channel rank. -/
def lowestRank (l : List (Nat × List Byte)) : Option (Nat × List Byte) :=
  l.foldl (fun a e => match a with
    | none => some e
    | some b => if vcRank (pktVc e.2) < vcRank (pktVc b.2) then some e else some b) none

/-- The next packet of the egress (15 R326): a STOP overtakes all (03 R66), then one that waited `aged` cycles, then by rank. -/
def Port.pick (x : Port) (now aged used : Nat) : Option (Nat × List Byte) :=
  match x.egress.find? (fun e => isStop e.2 && x.fits used e.2) with
  | some e => some e
  | none =>
    match lowestRank ((x.ready used).filter (fun e => aged ≤ now - e.1)) with
    | some e => some e
    | none => lowestRank (x.ready used)

/-- 64 flit times in cycles (15 R318, R320 to R322, R326): a flit takes 1.28 ns on an E port, twice that on an O port or at half width, and twice
that again on an O port whose engine runs slow. -/
def State.agedAfter (s : State) (p : Nat) : Nat :=
  if p < 16 then (if (s.port p).rd F.LNK_STATUS_half = 1 then 394 else 197) else if (s.oe (24 ≤ p)).slow then 787 else 394

/-- The packets that leave now, in order, and the port without them. -/
def Port.choose (x : Port) (now aged : Nat) : Nat → Nat → List (Nat × List Byte) × Port
  | 0, _ => ([], x)
  | f + 1, used =>
    match x.pick now aged used with
    | none => ([], x)
    | some e =>
      let vc := pktVc e.2
      let y := { x with egress := x.egress.erase e, credits := kput x.credits vc (kget x.credits vc 0 - creditsOf e.2.length) }
      let r := y.choose now aged f (used + flitsOf e.2.length)
      (e :: r.1, r.2)

/-- A flit that carries no sequence number: idle (0), NAK (2) or retrain request (3), with `ack` and credits (15 R322). -/
def State.sendCtl (s : State) (p ftype ack vc credits : Nat) : State := s.sends (.flit p (mkFlit 0 ftype ack vc credits 0xFF []))

/-- A packet has left the egress of port `q`: where it was forwarded, it no longer takes the receive buffer of the port that brought it, whose
credits return (15 R325). -/
def State.freed (s : State) (q : Nat) (b : List Byte) : State :=
  match s.relayed.find? (fun e => e.2.1 == q && e.2.2 == b) with
  | none => s
  | some e => ({ s with relayed := s.relayed.erase e } : State).sendCtl e.1 0 (s.port e.1).ack (pktVc b) (creditsOf b.length)

/-- The egress of an UP port sends what it can: the packets become data flits of the store, on the wire in order. -/
def State.egressDrain (s : State) (p : Nat) : State :=
  let x := s.port p
  let r := x.choose s.time (s.agedAfter p) x.egress.length 0
  if !s.portUp p || r.1.isEmpty then s
  else
    let fr := framePkts x.ack (r.1.map (fun e => stampPkt s.time e.1 e.2)) x.nextSeq [] 0xFF
    let y := { r.2 with store := r.2.store ++ fr.1, owners := r.2.owners ++ fr.2, nextSeq := (r.2.nextSeq + fr.1.length) % 4096 }
    let s1 := ((s.setPort p y).sendAll (fr.1.map (fun q => .flit p q.2))).count (73 + 2 * p) ((r.1.map (·.2.length)).foldl (· + ·) 0)
    r.1.foldl (fun a e => a.freed p e.2) s1

/-- A packet queued at port `p`. -/
def State.egressPut (s : State) (p : Nat) (b : List Byte) : State :=
  (s.setPort p { s.port p with egress := (s.port p).egress ++ [(s.time, b)] }).egressDrain p

/-- The port a packet leaves by (15 R329); otherwise reason 1 of R330, no route: no range, or none with a port UP. The port charged with the
drop is the range's primary, or port 0 when there is none (DESIGN CHOICE, log 15). -/
def State.routeOf (s : State) (dst : Nat) : Option Nat × Nat × Nat :=
  match s.image.ranges.find? (fun r => r.lo ≤ dst && dst ≤ r.hi) with
  | none => (none, 1, 0)
  | some r =>
    if s.portUp r.primary then (some r.primary, 0, r.primary)
    else if r.alternate < 32 && s.portUp r.alternate then (some r.alternate, 0, r.alternate)
    else (none, 1, r.primary)

/-- A packet issued after the stop instant: no egress takes it until the stop ends (03 R61). -/
def State.holdPkt (s : State) (b : List Byte) : State := { s with stop := { s.stop with held := s.stop.held ++ [b] } }

/-- A drop of a packet that no UNREACHABLE answers: counted only (15 R330). -/
def State.countDrop (s : State) (p reason : Nat) : State :=
  s.setPort p ((s.port p).bump (if reason = 3 then F.LNK_DROPS_hop_limit else if reason = 4 then F.LNK_DROPS_stall else F.LNK_DROPS_no_route))

/-- An UNREACHABLE for a dropped WRITE, READ, SIGNAL or RELAY, to its src and tile (15 R330); one without a route is dropped and counted. -/
def State.unreach (s : State) (b : List Byte) (reason : Nat) : State :=
  if pktType b = 1 ∨ pktType b = 2 ∨ pktType b = 4 ∨ pktType b = 7 then
    if pktSrc b = s.devId then
      s.sends (.unreachable (pktTile b) (pktTag b % 2 ^ 24) (pktTag b / 2 ^ 24) reason (pktType b))
    else
      let n := unreachPacket s.devId (pktSrc b) (pktTile b) (pktTag b) reason (pktType b)
      if s.stopped then s.holdPkt n
      else
        match s.routeOf (pktSrc b) with
        | (some p, _) => s.egressPut p n
        | (none, why, p) => s.countDrop p why
  else s

/-- A drop counted at port `p` and answered (15 R330). -/
def State.dropPkt (s : State) (p reason : Nat) (b : List Byte) : State :=
  (s.countDrop p reason).unreach b reason

/-- A packet that this device originates or forwards, routed or dropped (15 R329, R330); held back during a global stop (03 R61). -/
def State.sendPkt (s : State) (b : List Byte) : State :=
  if s.stopped then s.holdPkt b
  else
  match s.routeOf (pktDst b) with
  | (some p, _) => s.egressPut p b
  | (none, reason, p) => s.dropPkt p reason b

/-! Requests and responses: on this device over the mesh, to another device as a packet (04 R68). -/

/-- The device a global address names. -/
def devOf (addr : Nat) : Nat := addr / 2 ^ 48

/-- A request's way over the mesh (10 R223, R224): from where it is issued to its target, or to the hub when the target is another
device's. -/
def State.carryReq (s : State) (r : Req) (n vc : Nat) (packet : List Byte) (payload : Nat) : State :=
  s.carry (s.reqNode r) (if devOf r.addr.toNat = s.devId then s.addrNode (r.addr.toNat % 2 ^ 48) n else .hub) vc packet payload
/-- A tile's request enters the mesh as it is sent; one of the hub, or that a link brought, as its command takes it. -/
def State.carryOut (s : State) (r : Req) (n vc : Nat) (packet : List Byte) (payload : Nat) : State :=
  if s.reqNode r = .hub then s else s.carryReq r n vc packet payload
def State.carryIn (s : State) (r : Req) (n vc : Nat) (packet : List Byte) (payload : Nat) : State :=
  if s.reqNode r = .hub then s.carryReq r n vc packet payload else s
/-- An answer's way back, from the target to the requester (10 R224). -/
def State.carryResp (s : State) (r : Req) (n vc : Nat) (packet : List Byte) (payload : Nat) : State :=
  s.carry (s.addrNode (r.addr.toNat % 2 ^ 48) n) (s.reqNode r) vc packet payload

def State.sendWrite (s : State) (r : Req) (lc : Nat) (data : List Byte) : State :=
  let b := writePacket s.devId (devOf r.addr.toNat) r lc data
  let s1 := s.carryOut r data.length 1 b data.length
  if devOf r.addr.toNat = s.devId then s1.sends (.write r lc data) else s1.sendPkt b
def State.sendRead (s : State) (r : Req) (n : Nat) : State :=
  let b := readPacket s.devId (devOf r.addr.toNat) r n
  let s1 := s.carryOut r (max n 1) 0 b 0
  if devOf r.addr.toNat = s.devId then s1.sends (.read r n) else s1.sendPkt b
def State.sendSignal (s : State) (r : Req) (ctr n : Nat) : State :=
  let b := signalPacket s.devId (devOf r.addr.toNat) r ctr n
  let s1 := s.carryOut r 1 6 b 0
  if devOf r.addr.toNat = s.devId then s1.sends (.signal r ctr n) else s1.sendPkt b
def State.sendResp (s : State) (r : Req) (st : Status) (data : List Byte) (cacheable : Bool := false) : State :=
  let b := respPacket s.devId r.src.toNat r.tile.toNat r.tag.toNat r.epoch.toNat st data
  let s1 := s.carryResp r (max data.length 1) 2 b (if st = .ok then data.length else 0)
  if r.src.toNat = s.devId then s1.sends (.readResp s.devId r.tile.toNat r.tag.toNat r.epoch.toNat st data cacheable) else s1.sendPkt b
def State.sendAck (s : State) (r : Req) (st : Status) (lc n : Nat) : State :=
  let b := ackPacket s.devId r.src.toNat r.tile.toNat r.tag.toNat r.epoch.toNat st lc n
  let s1 := s.carryResp r (max n 1) 3 b 0
  if r.src.toNat = s.devId then s1.sends (.landAck s.devId r.tile.toNat r.tag.toNat r.epoch.toNat st lc n) else s1.sendPkt b
def State.sendSigStatus (s : State) (r : Req) (st : Status) : State :=
  let b := sigPacket s.devId r.src.toNat r.tile.toNat r.tag.toNat r.epoch.toNat st
  let s1 := s.carryResp r 1 3 b 0
  if r.src.toNat = s.devId then s1.sends (.sigStatus s.devId r.tile.toNat r.tag.toNat r.epoch.toNat st) else s1.sendPkt b

end Sys2Proof.Machine
end

