-- ==== Sys2Proof/Machine/TileOps.lean ====
section
/-! DEFINITION. What the engines of a tile share: event rings (20 R418 to R422), sync and landing counters and their waiters
(12 R253 to R262, 11 R237, R238), fences (11 R240 to R242), the outstanding remote writes, and the abort of a task (08 R183 to R186). -/

namespace Sys2Proof.Machine

/-- Engine numbers of the rings and waiting bits: 0 M, 1 V, 2 S, 3 D. -/
def engNo : Engine → Nat
  | .m => 0 | .v => 1 | .s => 2 | .d => 3

/-! Event rings. -/

/-- Whether an event is recorded (20 R420): classes 0 and 1 under TILE_EVT_CFG.mask. -/
def Tile.records (x : Tile) (code : Nat) : Bool :=
  if code = 2 ∨ code = 4 then bitOf (x.rd F.TILE_EVT_CFG_mask) 0
  else if code = 3 ∨ code = 5 then bitOf (x.rd F.TILE_EVT_CFG_mask) 1
  else true

/-- The page offset of entry k of ring e. -/
def ringEntry (e k : Nat) : Nat := 0x4000 + 0x1000 * e + 16 * (k % 256)

/-- One entry written at the ring's next place (20 R418, R419), before the pair of a MANUAL_SET of the same cycle when its code is lower (R421). -/
def Tile.putEvent (x : Tile) (tn cyc e code arg : Nat) : Tile :=
  let n := x.rd (F.TILE_EVT_PTR_next e)
  let stamp := BitVec.ofNat 64 (tn % 2 ^ 40 + 2 ^ 40 * (cyc % 2 ^ 22))
  let what := BitVec.ofNat 64 (code + 2 ^ 16 * (arg % 2 ^ 48))
  let last := rget x.regs (ringEntry e (n + 255) + 8)
  let r0 := rput x.regs (ringEntry e n) stamp
  let r :=
    if code < 7 && rget x.regs (ringEntry e (n + 255)) == stamp && last.toNat % 2 ^ 16 == 0xFF then
      rput (rput (rput r0 (ringEntry e n + 8) last) (ringEntry e (n + 255) + 8) (rget x.regs (ringEntry e (n + 254) + 8)))
        (ringEntry e (n + 254) + 8) what
    else rput r0 (ringEntry e n + 8) what
  ({ x with regs := r } : Tile).wrs [(F.TILE_EVT_PTR_next e, n + 1), (F.TILE_EVT_PTR_wrapped e, if n = 255 then 1 else x.rd (F.TILE_EVT_PTR_wrapped e)),
    (F.TILE_EVT_PTR_total e, x.rd (F.TILE_EVT_PTR_total e) + 1)]

/-- An event of engine `e`: recorded, or counted as lost while the ring is frozen (20 R420, R422). -/
def Tile.event (x : Tile) (tn cyc e code arg : Nat) : Tile :=
  if !x.records code then x
  else if x.rd (F.TILE_EVT_PTR_frozen e) = 1 then x.bump (F.TILE_EVT_PTR_lost e)
  else x.putEvent tn cyc e code arg

/-- A ring freezes for a reason, first recording FREEZE; a frozen ring stays as it is (20 R422). -/
def Tile.freeze (x : Tile) (tn cyc e reason : Nat) : Tile :=
  if x.rd (F.TILE_EVT_PTR_frozen e) = 1 then x
  else (x.putEvent tn cyc e 0xF reason).wrs [(F.TILE_EVT_PTR_frozen e, 1), (F.TILE_EVT_PTR_reason e, reason)]

/-- A ring thaws; lost becomes 0 (20 R422). `only`: thaw rings frozen for this reason alone. -/
def Tile.thaw (x : Tile) (e : Nat) (only : Option Nat) : Tile :=
  if x.rd (F.TILE_EVT_PTR_frozen e) = 1 && (match only with | none => true | some r => x.rd (F.TILE_EVT_PTR_reason e) == r) then
    x.wrs [(F.TILE_EVT_PTR_frozen e, 0), (F.TILE_EVT_PTR_lost e, 0)]
  else x

/-- The four rings, in engine order. -/
def Tile.onRings (x : Tile) (f : Tile → Nat → Tile) : Tile := [0, 1, 2, 3].foldl f x

/-- An event of engine `e` of tile `t`, stamped with the present tick and cycle. -/
def State.event (s : State) (t e code arg : Nat) : State := s.setTile t ((s.tile t).event s.tn s.sinceEdge e code arg)

/-! Tile states (08 R184). -/

def Tile.state (x : Tile) : Nat := x.rd F.TILE_S_STATUS_state
def Tile.running (x : Tile) : Bool := x.state == 1
/-- RUNNING or HALTED: a task is on the tile. -/
def Tile.live (x : Tile) : Bool := x.state == 1 || x.state == 2
def Tile.aborting (x : Tile) : Bool := x.state == 3 || x.state == 4

/-! Sync and landing counters. -/

/-- (c − t) mod 2³² < 2³¹ (12 R255, 11 R238). -/
def satisfies (c t : Nat) : Bool := (c + 2 ^ 32 - t % 2 ^ 32) % 2 ^ 32 < 2 ^ 31

def Tile.ctr (x : Tile) (c : Nat) : Nat := x.rd (F.TILE_SYNC_count c)
/-- A counter takes a value; tn_low holds the TN of the change. -/
def Tile.setCtr (x : Tile) (tn c v : Nat) : Tile := x.wrs [(F.TILE_SYNC_count c, v), (F.TILE_SYNC_tn_low c, tn)]
/-- The waiting bit of engine `e` on counter `c`. -/
def Tile.setWaiting (x : Tile) (c e : Nat) (b : Bool) : Tile :=
  x.wr (F.TILE_SYNC_waiting c) ((x.rd (F.TILE_SYNC_waiting c)) / 2 ^ (e + 1) * 2 ^ (e + 1) + b2n b * 2 ^ e + x.rd (F.TILE_SYNC_waiting c) % 2 ^ e)

/-- Fields of a command header (06 R138). -/
def Cmd.op (c : Cmd) : Nat := le c.bytes 0 1
def Cmd.flags (c : Cmd) : Nat := le c.bytes 1 1
def Cmd.sigEn (c : Cmd) : Bool := bitOf c.flags 0
def Cmd.waitEn (c : Cmd) : Bool := bitOf c.flags 1
def Cmd.sigCtr (c : Cmd) : Nat := le c.bytes 2 1
def Cmd.waitCtr (c : Cmd) : Nat := le c.bytes 3 1
def Cmd.sigN (c : Cmd) : Nat := le c.bytes 4 2
def Cmd.waitThr (c : Cmd) : Nat := le c.bytes 8 4
/-- Reserved bits of the header are 0. -/
def Cmd.headOk (c : Cmd) : Bool := c.flags < 4 && allZero (sub c.bytes 6 2) && allZero (sub c.bytes 12 4)
/-- The argument of CMD_START and CMD_DONE (20 R420). -/
def Cmd.evArg (c : Cmd) : Nat := c.op + 256 * (c.pc % 2 ^ 24)

/-- The queue of engine `e`: M, V or D. -/
def Tile.q (x : Tile) (e : Nat) : List Cmd := if e = 0 then x.mq else if e = 1 then x.vq else x.dq
/-- Another queue for engine `e`, with TILE_S_QSTATUS in step (08 R176). -/
def Tile.setQ (x : Tile) (e : Nat) (l : List Cmd) : Tile :=
  if e = 0 then ({ x with mq := l } : Tile).wr F.TILE_S_QSTATUS_m_free (32 - l.length)
  else if e = 1 then ({ x with vq := l } : Tile).wr F.TILE_S_QSTATUS_v_free (32 - l.length)
  else ({ x with dq := l } : Tile).wr F.TILE_S_QSTATUS_d_free (64 - l.length)
/-- Places of a queue. -/
def qSize (e : Nat) : Nat := if e = 3 then 64 else 32

/-- The first look at a queue's head (06 R138, 12 R256): a command with no header wait, or whose wait is satisfied, may start; another
begins its wait, with WAIT_BEGIN and its waiting bit. -/
def Tile.lookHead (x : Tile) (tn cyc e : Nat) : Tile :=
  match x.q e with
  | [] => x
  | c :: l =>
    if c.seen then x
    else if !c.waitEn || satisfies (x.ctr c.waitCtr) c.waitThr then x.setQ e ({ c with seen := true, rel := true } :: l)
    else ((x.setQ e ({ c with seen := true } :: l)).setWaiting c.waitCtr e true).event tn cyc e 5 (c.waitCtr + 1024 * c.waitThr)

/-- A waiting head whose counter now satisfies its threshold is released, and stays so (12 R256). -/
def Tile.pollHead (x : Tile) (tn cyc e : Nat) : Tile :=
  match x.q e with
  | [] => x
  | c :: l =>
    if c.seen && !c.rel && satisfies (x.ctr c.waitCtr) c.waitThr then
      ((x.setQ e ({ c with rel := true } :: l)).setWaiting c.waitCtr e false).event tn cyc e 3 (c.waitCtr + 1024 * x.ctr c.waitCtr)
    else x

/-- S no longer waits. -/
def Tile.unstall (x : Tile) : Tile := ({ x with swait := .none } : Tile).wr F.TILE_S_STATUS_stall 0
/-- S waits, for the reason TILE_S_STATUS.stall gives (08). -/
def Tile.stallFor (x : Tile) (now kind : Nat) (w : SWait) : Tile :=
  ({ x with swait := w, stallAt := if x.rd F.TILE_S_STATUS_stall = kind then x.stallAt else now } : Tile).wr F.TILE_S_STATUS_stall kind

/-- An acquire (11 R243): every line of the data cache is invalid, and no fill in flight is kept. -/
def Tile.acquire (x : Tile) : Tile :=
  { x with dcache := [], loads := x.loads.map (fun l => if l.kind = 1 then { l with keep := false } else l) }

/-- S's own wait tested: TAKE first (12 R261 step 5), then WAIT or LWAIT; an acquiring wait invalidates the data cache (11 R243). -/
def Tile.pollS (x : Tile) (tn cyc : Nat) : Tile :=
  match x.swait with
  | .counter c thr take acq =>
    let v := x.ctr c
    if satisfies v thr then
      let y := (if take then x.setCtr tn c ((v + 2 ^ 32 - thr % 2 ^ 32) % 2 ^ 32) else x)
      let z := (y.setWaiting c 2 false).unstall.event tn cyc 2 3 (c + 1024 * v)
      if acq then z.acquire else z
    else x
  | .landing c thr acq =>
    let v := x.rd (F.TILE_LC_count c)
    if satisfies v thr then
      let z := x.unstall.event tn cyc 2 3 (c + 256 + 1024 * v)
      if acq then z.acquire else z
    else x
  | _ => x

/-- Every waiter of the tile tested, after a counter changed (12 R261, R262): S's TAKE, then every WAIT. -/
def Tile.poll (x : Tile) (tn cyc : Nat) : Tile :=
  [0, 1, 3].foldl (fun y e => y.pollHead tn cyc e) (x.pollS tn cyc)

/-- The cycle in which counters last changed ends: the waiters are tested on its end-of-cycle value (12 R256, R261). -/
def Tile.endCycle (x : Tile) : Tile :=
  match x.opened with
  | none => x
  | some o => ({ x with opened := none } : Tile).poll o.tn o.cyc
def State.endCycle (s : State) (t : Nat) : State :=
  match (s.tile t).opened with
  | none => s
  | some _ => s.setTile t (s.tile t).endCycle

/-- The steps of 12 R261 that S takes: one a cycle (R262). -/
def stepOfS (r : Nat) : Bool := r == 7 || r == 9 || r == 11

/-- Whether an update at step `r` can still fall in the tile's open cycle: at the same time, after its last step, S with one operation. -/
def State.sameCycle (s : State) (t r : Nat) : Bool :=
  match (s.tile t).opened with
  | none => false
  | some o => o.time == s.time && decide (o.step < r) && !(o.byS && stepOfS r)

/-- A change of a counter at step `r` of 12 R261. Whether it falls in the cycle of the change before it, where it can, is a free choice: one
time of the model may be several cycles (log 71). -/
def State.sync (s : State) (t r : Nat) (f : Tile → Tile) : State :=
  let same := s.sameCycle t r && Config.freeChoice s.free % 2 == 1
  let s1 := if s.sameCycle t r then s.draw.2 else s
  let x := if same then s1.tile t else (s1.tile t).endCycle
  let byS := stepOfS r || (same && (x.opened.map (·.byS)).getD false)
  s1.setTile t { f x with opened := some ⟨r, s.time, s.tn, s.sinceEdge, byS⟩ }

/-- A SIGNAL of n on counter c (12 R253, R254). -/
def Tile.signal (x : Tile) (tn c n : Nat) : Tile := x.setCtr tn c ((x.ctr c + n) % 2 ^ 32)

/-- A local signal at tile `t`, at its step of R261. -/
def State.signalLocal (s : State) (t step c n : Nat) : State := s.sync t step (fun x => x.signal s.tn c n)

/-- The port by which a flit from `src` reaches a site's router (10 R222, R224; 12 R261): 0 west, 1 east, 2 north, 3 south. A station's and
everything that comes through the hub: 2, but for what runs along the row. -/
def State.arrivalPort (s : State) (src dst : Node) : Nat :=
  match src.entry, dst.entry with
  | some (d, r, c), some (d', r', c') =>
    if d / 4 ≠ d' / 4 ∨ (d ≠ d' ∧ (bridgesAlong d d' r).all (fun b => !s.bundleDown b) = false) then 2
    else if r < r' then 2
    else if r' < r then 3
    else if d < d' ∨ d = d' ∧ c < c' then 0
    else if d' < d ∨ c' < c then 1
    else 2
  | _, _ => 2

/-- A remote signal from `src` at tile `t` (12 R254, R261, R266): dropped and counted at an ABORTING or QUIESCENT tile. -/
def State.signalRemote (s : State) (src : Node) (t c n : Nat) : State :=
  if (s.tile t).aborting then s.setTile t ((s.tile t).bump F.TILE_SYNC_STATUS_dropped)
  else s.signalLocal t (s.arrivalPort src (s.tileNode t)) c n

/-- An LWAIT of S tested. -/
def Tile.pollLanding (x : Tile) (tn cyc : Nat) : Tile :=
  match x.swait with
  | .landing _ _ _ => x.pollS tn cyc
  | _ => x

/-- A landing of n bytes on counter lc of tile `t` (11 R237), and the LWAIT it may release (R238); the waiters on sync counters are tested when their
cycle ends (12 R256, R261). -/
def State.land (s : State) (t lc n : Nat) : State :=
  let x := s.tile t
  s.setTile t ((x.wrs [(F.TILE_LC_count lc, x.rd (F.TILE_LC_count lc) + n), (F.TILE_LC_writes lc, x.rd (F.TILE_LC_writes lc) + 1)]).pollLanding
    s.tn s.sinceEdge)

/-! Scratchpad (00 R1). -/

/-- Size of a scratchpad: 3 MiB. -/
def spadSize : Nat := 0x300000
/-- The byte counter of tile `t`'s scratchpads read (0) or written (1) (20 R434). -/
def State.countSpad (s : State) (t rw n : Nat) : State := s.count (136 + 2 * (t / 150) + rw) n
/-- The bytes of a string by address. -/
def places (a : Nat) (l : List Byte) : List (Nat × Byte) := ((List.range l.length).zip l).map (fun p => (a + p.1, p.2))

/-- Bytes written into tile `t`'s scratchpad. -/
def State.spadWrite (s : State) (t off : Nat) (data : List Byte) : State :=
  let x := s.tile t
  (s.setTile t { x with
    spad := x.spad.write off data
    mmaRun := x.mmaRun.map (fun r => { r with was := r.was ++ places off (x.spad.read off data.length) }) }).countSpad t 1 data.length

/-- The global address of byte `o` of tile `t`'s scratchpad (04 R68, R69). -/
def State.spadAddr (s : State) (t o : Nat) : Nat := s.global (s.image.spadBase + t * 0x400000 + o)

/-- A corrected word at offset `o` of tile `t`'s scratchpad (17 R367, R381, R382): the record, and the word's ageing. -/
def State.spadCorrected (s : State) (t o : Nat) : State :=
  (s.record { s.recOfTile 1 3 0 t with addr := s.spadAddr t o }).age (s.site t) 0 (o / 8 * 8)

/-- A corrected word that the read meets is noted. -/
def State.eccNoted (s : State) (t : Nat) (e : Ecc) (a n : Nat) : State :=
  match e with
  | .corrected w => if eccHits e a n then s.spadCorrected t w else s
  | _ => s

/-- What a list of writes puts into single bytes, in order. -/
def singleBytes (q : List (Nat × List Byte)) : List (Nat × Byte) := (q.map (fun e => places e.1 e.2)).flatten

/-- Of writes that nothing orders, those that have landed, as free choices from number `g` on say for each byte, and those that are still to
land: none to a place that a later one has reached (log 29). -/
def landed : Nat → List (Nat × Byte) → List (Nat × Byte) × List (Nat × Byte)
  | _, [] => ([], [])
  | g, e :: l =>
    let r := landed (g + 1) l
    if Config.freeChoice g % 2 = 1 then (e :: r.1, r.2)
    else if r.1.any (·.1 == e.1) then r
    else (r.1, e :: r.2)

/-- Bytes of tile `t`'s DRAIN written: `now`; `rest` is still to be. -/
def State.drainLand (s : State) (t : Nat) (now rest : List (Nat × List Byte)) : State :=
  let s1 := now.foldl (fun a e => a.spadWrite t e.1 e.2) (s.setTile t { s.tile t with drainQ := rest })
  if rest.isEmpty then s1.twr t F.TILE_M_STATUS_drain_full (b2n (s1.tile t).drain.isSome) else s1

/-- All of them. -/
def State.drainAll (s : State) (t : Nat) : State :=
  if (s.tile t).drainQ.isEmpty then s else s.drainLand t (s.tile t).drainQ []

/-- Before a read of tile `t`'s scratchpad: some bytes of them, as free choices say, since nothing orders the read after a DRAIN that has not
completed (06 R129; 11 R235, R245; log 29). -/
def State.drainSome (s : State) (t : Nat) : State :=
  if (s.tile t).drainQ.isEmpty then s
  else
    let l := singleBytes (s.tile t).drainQ
    let r := landed s.free l
    (s.draws l.length).drainLand t (r.1.map (fun p => (p.1, [p.2]))) (r.2.map (fun p => (p.1, [p.2])))

/-- The bits in error of a word (17 R367). -/
def flips (e : BurstErr) : Nat := (e.syms.map (fun p => ((List.range 8).filter (fun i => p.2.getLsbD i)).length)).foldl (· + ·) 0

/-- Errors given by bursts of 32 bytes as errors of 8-byte words: the line of the first symbol names the word of the burst. -/
def wordErrs (errs : List BurstErr) : List BurstErr :=
  errs.map (fun e => { e with burst := 4 * e.burst + ((e.syms.head?.map (·.1)).getD 0) % 4 })

/-- A read of `n` bytes at offset `o` of tile `t`'s scratchpad from outside the tile, whose words meet `errs` (17 R367): single bits are corrected
and recorded; the first word with more has no data. -/
def State.spadRead (s : State) (t o n : Nat) (errs : List BurstErr) : State × Except Nat (List Byte) :=
  let s1 := (s.drainSome t).countSpad t 0 n
  let es := errs.filter (fun e => e.burst < (o % 8 + n + 7) / 8)
  let s2 := es.foldl (fun a e => if flips e = 1 then a.spadCorrected t (o / 8 * 8 + 8 * e.burst) else a) s1
  match es.find? (fun e => 1 < flips e) with
  | some e => (s2, .error (o / 8 * 8 + 8 * e.burst))
  | none => (s2, .ok ((s2.tile t).spad.read o n))

/-! Outstanding remote writes (11 R233, R241). -/

/-- The next request tag of a tile. -/
def Tile.takeTag (x : Tile) : Nat × Tile := (x.nextTag, { x with nextTag := x.nextTag + 1 })

/-- A request of tile `t`'s engine `e`, under its bay's master code and launch epoch (04 R79, R84; 10 R220). -/
def State.reqOf (s : State) (t : Nat) (e : Engine) (exec : Bool) (tag addr : Nat) : Req :=
  { master := .bay (Fin.ofNat 64 ((s.bayOf t).getD 0)), eng := some e, exec := exec, src := BitVec.ofNat 16 s.devId,
    tile := BitVec.ofNat 11 t, tag := BitVec.ofNat 32 tag, epoch := BitVec.ofNat 8 ((s.tile t).rd F.TILE_D_STATUS_epoch),
    addr := BitVec.ofNat 64 addr, via := none }

/-- The bytes of a local request entering the mesh at its die (20 R434). -/
def State.countMesh (s : State) (t n : Nat) : State := s.count (t / 150) n

/-- The landing counter a write names for R242 (11 R233): its lc when the target is a scratchpad window, else 0xFF. On this device the
map tells, and so does the fixed range of every device (04 R69); what another device's SPACE places at an address is that device's (a free
value, log 16). -/
def State.lcNamed (s : State) (addr n lc : Nat) : Nat :=
  if devOf addr = s.devId then
    (match s.target (addr % 2 ^ 48) n with | .spad _ _ => lc | _ => 0xFF)
  else if addr % 2 ^ 48 < 0xFFF000000000 && Config.farWindow (devOf addr) (addr % 2 ^ 48) then lc
  else 0xFF

/-- Whether bytes at a global address lie in tile `t`'s own scratchpad window (11 R232). -/
def State.ownWindow (s : State) (t addr n : Nat) : Bool :=
  devOf addr == s.devId && (match s.target (addr % 2 ^ 48) n with | .spad u _ => u == t | _ => false)

/-- The read request of a load of S. -/
def State.sendLoad (s : State) (t : Nat) (l : Load) : State :=
  if l.kind = 1 then s.sendRead (s.reqOf t .s false l.tag (l.addr / 64 * 64)) 64 else s.sendRead (s.reqOf t .s false l.tag l.addr) 4

/-- A write request issued (11 R232, R241): a remote write is counted; each is remembered until its acknowledgement, and sent, unless it
waits for loads of S. -/
def State.issueWrite (s : State) (t : Nat) (e : Engine) (pc addr lc : Nat) (data : List Byte) (wait : List Nat := []) : State × Nat :=
  let (tag, x) := (s.tile t).takeTag
  let own := s.ownWindow t addr data.length
  let st : Store :=
    { tag := tag, engine := engNo e, pc := pc, addr := addr, lc := s.lcNamed addr data.length lc, bytes := data.length, time := s.time,
      signal := false, own := own, wait := wait, data := if wait.isEmpty then [] else data }
  let y := if own then x else x.wr F.TILE_MM_ISSUED_bytes (x.rd F.TILE_MM_ISSUED_bytes + data.length)
  let s1 := (s.setTile t { y with stores := y.stores ++ [st] }).countMesh t data.length
  (if wait.isEmpty then s1.sendWrite (s1.reqOf t e false tag addr) lc data else s1, tag)

/-- The access of S with tag `g` is over: what waited for it alone leaves the tile (11 R235). -/
def State.unhold (s : State) (t g : Nat) : State :=
  let x := s.tile t
  let due := fun (w : List Nat) => w.contains g && (w.erase g).isEmpty
  let ls := x.loads.filter (fun l => due l.wait)
  let ws := x.stores.filter (fun w => due w.wait)
  if x.live then
    let s1 := s.setTile t { x with loads := x.loads.map (fun l => { l with wait := l.wait.erase g }),
                                   stores := x.stores.map (fun w => { w with wait := w.wait.erase g }) }
    ws.foldl (fun a w => a.sendWrite (a.reqOf t .s false w.tag w.addr) w.lc w.data) (ls.foldl (fun a l => a.sendLoad t l) s1)
  else s

/-- Bytes acknowledged. -/
def Tile.acked (x : Tile) (n : Nat) : Tile := x.wr F.TILE_MM_ACKED_bytes (x.rd F.TILE_MM_ACKED_bytes + n)

/-! Abort (08 R183 to R186). -/

/-- The bytes of D's writes not yet acknowledged. -/
def Tile.dWriteBytes (x : Tile) : Nat := ((x.reqs.filter (·.phase != 0)).map (·.n)).foldl (· + ·) 0

/-- What an abort clears in a tile (08 R185, R186; 06 R139; 07 R142; 10 R217, R220; 20 R430): M and V stop and discard their commands, M
its accumulators and buffers, V its registers; D issues nothing more and its streams are disarmed; slots being added to are incomplete. -/
def Tile.abortClear (x : Tile) : Tile :=
  let slots := (List.range 16).foldl
    (fun (y : Tile) n => if y.rd (F.TILE_DIG_STATUS_busy n) = 1 then
      y.wrs [(F.TILE_DIG_STATUS_incomplete n, 1), (F.TILE_DIG_STATUS_busy n, 0)] else y) x
  let y := ((slots.setQ 0 []).setQ 1 []).setQ 3 []
  ({ y with loads := y.loads.filter (fun l => l.wait.isEmpty), stores := y.stores.filter (fun w => w.wait.isEmpty), drainQ := [], mmaRun := none, mRun := [], vRun := [], dRun := [], acc := [], rowChk := [], colChk := [], blockSat := false, drain := none, chainIn := [], chainHeld := [],
            vregs := [], streams := [], swait := .none, hold := false, gateReq := false } : Tile).wrs
    [(F.TILE_M_STATUS_seeded, 0), (F.TILE_M_STATUS_busy, 0), (F.TILE_M_STATUS_drain_full, 0), (F.TILE_V_STATUS_busy, 0),
     (F.TILE_V_STATUS_mv_busy, 0), (F.TILE_D_STATUS_busy, 0), (F.TILE_D_STATUS_ahead, 0), (F.TILE_D_STREAMS_armed, 0),
     (F.TILE_D_STREAMS_running, 0), (F.TILE_S_STATUS_stall, 0), (F.TILE_RED_STATUS_in_blocks, 0), (F.TILE_RED_STATUS_hop_wait, 0),
     (F.TILE_MM_STATUS_fence_local, 0), (F.TILE_MM_STATUS_fence_remote, 0),
     (F.TILE_D_ABORT_BYTES_issued, x.dWriteBytes), (F.TILE_D_ABORT_BYTES_abandoned, 0), (F.TILE_D_STATUS_quiescent, 0)]

/-- Clears every waiting bit. -/
def Tile.clearWaiting (x : Tile) : Tile :=
  { x with regs := x.regs.filterMap (fun e =>
      if 0x2000 ≤ e.1 && e.1 < 0x2800 then
        (let w := putBits e.2 32 4 0; if w = 0 then none else some (e.1, w)) else some e) }

/-- D is quiescent once its request table is empty (10 R220). -/
def Tile.dQuiet (x : Tile) (tn cyc abandoned : Nat) : Tile :=
  if x.state = 3 && x.reqs.isEmpty && x.rd F.TILE_D_STATUS_quiescent = 0 then
    (x.wr F.TILE_D_STATUS_quiescent 1).event tn cyc 3 0xC abandoned
  else x

/-- A tile's task is aborted (08 R184, R185): its record, the ABORT event on every ring, the state ABORTING. -/
def Tile.abort (x : Tile) (tn cyc now cause origin pc trap : Nat) : Tile :=
  let y := (x.endCycle.abortClear.clearWaiting).wrs [(F.TILE_S_ABORT_cause, cause), (F.TILE_S_ABORT_origin, origin), (F.TILE_S_ABORT_valid, 1),
    (F.TILE_S_ABORT_tn_low, tn), (F.TILE_S_ABORT_INFO_pc, pc), (F.TILE_S_ABORT_INFO_trap_code, trap), (F.TILE_S_STATUS_state, 3)]
  (({ y with abortAt := now } : Tile).onRings (fun z e => z.event tn cyc e 0xA (cause + 256 * origin))).dQuiet tn cyc 0

/-- A tile aborted with a cause that came from elsewhere; a tile without a task is left as it is (08 R184). -/
def State.abortTile (s : State) (t cause origin : Nat) : State :=
  if (s.tile t).live then
    let s1 := s.drainSome t
    s1.setTile t ((s1.tile t).abort s.tn s.sinceEdge s.time cause origin 0 0)
  else s

/-- The safety class of a cause that a tile raises as an engine fault (17 R367, R375), if it is one. `spadEcc`: the scratchpad offset of a word with
two bits in error. -/
def faultClass (cause : Nat) (spadEcc : Option Nat) : Option Nat :=
  if cause = 0x16 then some 1 else if cause = 0x08 then some 2 else if spadEcc.isSome then some 4 else none

/-- A fault in engine `e` of tile `t` (08 R183, R184): the FAULT event, the abort, the message to the hub; and for a dangerous failure
the CONTAINED record and the SUSPECT mark of its site (17 R375, R376). -/
def State.tileFault (s : State) (t : Nat) (e : Engine) (cause pc : Nat) (trap : Nat := 0) (spadEcc : Option Nat := none) : State :=
  if !(s.tile t).live then s
  else
    let s0 := s.drainSome t
    let y := ((s0.tile t).endCycle.event s.tn s.sinceEdge (engNo e) 9 cause).abort s.tn s.sinceEdge s.time cause t pc trap
    let s1 := (s0.setTile t y).sends (.tileAbort t)
    match faultClass cause spadEcc with
    | some c => (s1.suspect (s.site t)).record
        { s1.recOfTile 2 c cause t with addr := match spadEcc with | some o => s.spadAddr t (o / 8 * 8) | none => 0 }
    | none => s1

/-- Every live tile of a bay aborted with one cause and origin (08 R185). -/
def State.abortBay (s : State) (b cause origin : Nat) : State :=
  s.forEach (s.bayTiles b) (fun a t => a.abortTile t cause origin)

/-! Completion, finish and fences. -/

/-- Every pushed command has completed. -/
def Tile.idleEngines (x : Tile) : Bool :=
  x.mq.isEmpty && x.vq.isEmpty && x.dq.isEmpty && x.mRun.isEmpty && x.vRun.isEmpty && x.dRun.isEmpty && x.drain.isNone

/-- A failing write noted, the first recorded (11 R242, TILE_MM_FENCE_ERR). -/
def Tile.noteFail (x : Tile) (tn : Nat) (st : Store) (cause lcAcked bytesAcked : Nat) : Tile :=
  if !x.fails.isEmpty then { x with fails := x.fails ++ [st.tag] }
  else ({ x with fails := [st.tag] } : Tile).wrs
    [(F.TILE_MM_FENCE_ERR_cause, cause), (F.TILE_MM_FENCE_ERR_engine, st.engine), (F.TILE_MM_FENCE_ERR_lc_sent, st.lc),
     (F.TILE_MM_FENCE_ERR_lc_acked, lcAcked), (F.TILE_MM_FENCE_ERR_bytes_sent, st.bytes), (F.TILE_MM_FENCE_ERR_bytes_acked, bytesAcked),
     (F.TILE_MM_FENCE_ERR_tn_low, tn), (F.TILE_MM_FENCE_ADDR_addr, st.addr)]

/-- S's issued accesses have been performed (11 R240, R251): its loads, and its stores into the own window, which are no remote writes. -/
def Tile.accessesDone (x : Tile) : Bool := x.loads.all (·.kind == 2) && x.stores.all (fun w => !(w.own && w.engine == 2))

/-- Every remote write with a tag before `upTo` has been acknowledged, a loft write by its flush (11 R241). -/
def Tile.writesDone (x : Tile) (upTo : Nat) : Bool := x.stores.all (fun w => w.own || w.signal || upTo ≤ w.tag)

/-- The fence S waits on, tested (11 R240, R241, R242): a covered failing write aborts the task with S_FENCE; otherwise the fence ends
when its condition holds. -/
def State.pollFence (s : State) (t : Nat) : State :=
  let x := s.tile t
  match x.swait with
  | .fenceLocal =>
    if x.accessesDone && x.idleEngines then s.setTile t (x.unstall.wr F.TILE_MM_STATUS_fence_local 0) else s
  | .fenceRemote issued upTo =>
    if x.fails.any (fun g => decide (g < upTo)) then
      (s.setTile t (x.wr F.TILE_MM_STATUS_fence_failed 1)).tileFault t .s 0x0A (x.rd F.TILE_S_PC_pc - 4)
    else if (x.rd F.TILE_MM_ACKED_bytes + 2 ^ 64 - issued) % 2 ^ 64 < 2 ^ 63 && x.writesDone upTo then
      s.setTile t (x.unstall.wr F.TILE_MM_STATUS_fence_remote 0)
    else s
  | _ => s

/-- A place freed in engine `e`'s queue takes the command that stalled S (08 R176). -/
def Tile.pushWaiting (x : Tile) (tn cyc e : Nat) : Tile :=
  match x.swait with
  | .queueFull e' c =>
    if e = e' && (x.q e).length < qSize e then ((x.unstall.setQ e (x.q e ++ [c])).lookHead tn cyc e) else x
  | _ => x

/-- The head command of engine `e` that may start: released, RUNNING or HALTED tile, no global stop, a die whose issue is not halted, and in
PK1 ordering no earlier operation incomplete (06 R138, 03 R61, 18 R396, R398, 11 R251). -/
def State.headReady (s : State) (t e : Nat) : Option Cmd :=
  let x := s.tile t
  match x.q e with
  | [] => none
  | c :: _ =>
    if c.rel && x.live && !s.stopped && s.rd (F.PWR_DIE_halted (t / 150)) == 0 then
      (if x.rd F.TILE_MM_STATUS_pk1 = 1 &&
          !(x.accessesDone && ((x.mq ++ x.vq ++ x.dq ++ x.mRun ++ x.vRun ++ x.dRun.map (·.cmd)).all (fun d => c.seq ≤ d.seq))) then none
       else some c)
    else none

/-- The head leaves its queue as it starts (08 R176): CMD_START, the next head looked at, S's waiting push taken. -/
def State.startHead (s : State) (t e : Nat) (c : Cmd) : State :=
  let x := s.tile t
  let y := ((x.setQ e ((x.q e).drop 1)).event s.tn s.sinceEdge e 4 c.evArg).lookHead s.tn s.sinceEdge e
  s.setTile t (y.pushWaiting s.tn s.sinceEdge e)

/-- The step of 12 R261 at which engine `e` signals. -/
def stepOf (e : Nat) : Nat := if e = 0 then 4 else if e = 1 then 6 else 8

/-- A command's completion (11 R236): CMD_DONE, then its signal, then S's fence. The cycle in which counters last changed is over, unless this signal
can fall in it (12 R256; 20 R421). -/
def State.completeCmd (s0 : State) (t e : Nat) (c : Cmd) : State :=
  let s := if c.sigEn && s0.sameCycle t (stepOf e) then s0 else s0.endCycle t
  let s1 := s.setTile t ((s.tile t).event s.tn s.sinceEdge e 2 c.evArg)
  (if c.sigEn then s1.signalLocal t (stepOf e) c.sigCtr c.sigN else s1).pollFence t

/-- A numeric flag set in TILE_NUM_FLAGS (05 R109, R110): `fl` the five flag bits, `v` true for V's. -/
def Tile.raise (x : Tile) (tn : Nat) (v : Bool) (fl : Nat) : Tile :=
  if fl % 32 = 0 then x
  else
    let o := 0x0F00
    let w := rget x.regs o
    let y := if bits w 0 13 = 0 then setFld x.regs F.TILE_NUM_FLAGS_first_tn_low tn else x.regs
    { x with regs := rput y o (rget y o ||| (BitVec.ofNat 64 (fl % 32) <<< (if v then 8 else 0))) }

end Sys2Proof.Machine
end

