-- ==== Sys2Proof/Machine/Launch.lean ====
section
/-! DEFINITION. What a LAUNCH does to a tile (08 R180) and what a bay reset does (13 R297); the memory that the hub's own requests reach. -/

namespace Sys2Proof.Machine

/-! Tiles. -/

/-- Registers outside the range [lo, hi). -/
def dropRegs (r : Regs) (lo hi : Nat) : Regs := r.filter (fun e => e.1 < lo || hi ≤ e.1)

/-- A digest slot emptied: its next index is its base, its statistics at their reset values (20 R424). -/
def Tile.emptySlot (x : Tile) (n : Nat) : Tile :=
  let o := 0x3000 + 0x100 * n
  let r := dropRegs x.regs (o + 8) (o + 0x100)
  ({ x with regs := rput (rput (rput r (o + 0x20) 0x7FC0000000) (o + 0x28) 0x7FC0000000) (o + 0x30) 0x7FC0000000 } : Tile).wr
    (F.TILE_DIG_STATUS_next n) (x.rd (F.TILE_DIG_CFG_base n))

/-- Every sync and landing counter 0 (11 R237, 12 R253). -/
def Tile.clearCounters (x : Tile) : Tile :=
  let r := dropRegs x.regs (F.TILE_SYNC_count 0).off ((F.TILE_SYNC_count 255).off + 8)
  { x with regs := dropRegs r (F.TILE_LC_count 0).off ((F.TILE_LC_count 63).off + 8) }

/-- The reduction registers of a tile (09: LAUNCH sets TILE_RED_CHAIN and every TILE_RED_RXs to reset values). -/
def Tile.clearRed (x : Tile) : Tile :=
  let r := dropRegs x.regs (F.TILE_RED_RX_addr 0).off ((F.TILE_RED_RX_addr 63).off + 8)
  { x with regs := rput (rput r F.TILE_RED_CHAIN_addr.off 0) F.TILE_RED_STATUS_in_blocks.off 0 }

/-- What a LAUNCH says to each tile of its bay. -/
structure LaunchInfo where
  bay    : Nat
  count  : Nat
  dev    : Nat
  base   : Nat
  entry  : Nat
  args   : Nat
  mode   : Nat
  pk1    : Bool
  deriving DecidableEq, Repr

/-- The general registers at cycle 0 (08 R180); a register not listed is 0. -/
def launchRegs (l : LaunchInfo) (t rank : Nat) : KMap Word :=
  [(1, t), (2, rank), (3, l.count), (4, l.args % 2 ^ 32), (5, l.args / 2 ^ 32), (6, l.bay), (7, l.dev)].foldl
    (fun m e => if e.2 = 0 then m else kput m e.1 (BitVec.ofNat 32 e.2)) []

/-- The tile's volatile engine state: engines idle, queues and caches empty. -/
def Tile.blankEngines (x : Tile) : Tile :=
  { ((x.setQ 0 []).setQ 1 []).setQ 3 [] with
    loads := [], stores := [], swait := .none, icache := [], dcache := [], stage := [], mRun := [], vRun := [], dRun := [],
    acc := [], rowChk := [], colChk := [], blockSat := false, drain := none, chainIn := [], chainHeld := [], vregs := [], streams := [], reqs := [],
    hold := false, gateReq := false, fails := [], drainQ := [], mmaRun := none, opened := none, pushes := 0, pcOut := false }

/-- LAUNCH at one tile (08 R180; 10 R217, R220; 11 R237, R251; 12 R253; 20 R418, R422, R424). -/
def Tile.launch (x : Tile) (l : LaunchInfo) (t rank tn cyc : Nat) : Tile :=
  let ep := (x.rd F.TILE_D_STATUS_epoch + 1) % 256
  let y := ((List.range 16).foldl Tile.emptySlot x.blankEngines.clearCounters.clearRed).wrs
    [(F.TILE_M_STATUS_mode, l.mode), (F.TILE_M_STATUS_seeded, 0), (F.TILE_M_STATUS_busy, 0), (F.TILE_M_STATUS_drain_full, 0),
     (F.TILE_V_STATUS_busy, 0), (F.TILE_V_STATUS_mv_busy, 0), (F.TILE_S_STATUS_state, 1), (F.TILE_S_STATUS_stall, 0),
     (F.TILE_S_PC_pc, l.entry), (F.TILE_S_CODE_BASE_base, l.base), (F.TILE_S_ABORT_cause, 0), (F.TILE_S_ABORT_origin, 0),
     (F.TILE_S_ABORT_valid, 0), (F.TILE_S_ABORT_tn_low, 0), (F.TILE_S_ABORT_INFO_pc, 0), (F.TILE_S_ABORT_INFO_trap_code, 0),
     (F.TILE_D_STATUS_epoch, ep), (F.TILE_D_STATUS_outstanding, 0), (F.TILE_D_STATUS_ahead, 0), (F.TILE_D_STATUS_busy, 0),
     (F.TILE_D_STREAMS_armed, 0), (F.TILE_D_STREAMS_running, 0), (F.TILE_MM_STATUS_pk1, b2n l.pk1), (F.TILE_MM_STATUS_fence_local, 0),
     (F.TILE_MM_STATUS_fence_remote, 0), (F.TILE_MM_STATUS_fence_failed, 0), (F.TILE_MM_ISSUED_bytes, 0), (F.TILE_MM_ACKED_bytes, 0),
     (F.TILE_MM_FENCE_ERR_cause, 0), (F.TILE_MM_FENCE_ERR_engine, 0), (F.TILE_MM_FENCE_ERR_lc_sent, 0),
     (F.TILE_MM_FENCE_ERR_lc_acked, 0), (F.TILE_MM_FENCE_ERR_bytes_sent, 0), (F.TILE_MM_FENCE_ERR_bytes_acked, 0),
     (F.TILE_MM_FENCE_ERR_tn_low, 0), (F.TILE_MM_FENCE_ADDR_addr, 0)]
  let z := { y with g := launchRegs l t rank }
  (z.onRings (fun w e => w.thaw e none)).onRings (fun w e => w.event tn cyc e 1 (l.bay + 64 * ep))

/-- The first cycle of a bay reset at one tile (13 R297): commands, requests and counters cleared, the epoch advanced, IDLE; the
scratchpad and what D's abort counted stay. -/
def Tile.hubReset (x : Tile) : Tile :=
  let y := x.abortClear
  { y.blankEngines.clearCounters.wrs
    [(F.TILE_S_STATUS_state, 0), (F.TILE_S_STATUS_stall, 0), (F.TILE_D_STATUS_epoch, (x.rd F.TILE_D_STATUS_epoch + 1) % 256),
     (F.TILE_D_STATUS_outstanding, 0), (F.TILE_D_STATUS_quiescent, x.rd F.TILE_D_STATUS_quiescent),
     (F.TILE_D_ABORT_BYTES_issued, x.rd F.TILE_D_ABORT_BYTES_issued),
     (F.TILE_D_ABORT_BYTES_abandoned, x.rd F.TILE_D_ABORT_BYTES_abandoned)] with g := [] }

/-! Requests of the hub's own units under the CPC's master code (13 R273, R285). -/

/-- A request by the CPC. -/
def State.cpcReq (s : State) (addr : Nat) : Req :=
  { master := .cpc, eng := none, exec := false, src := BitVec.ofNat 16 s.devId, tile := 0x7FF#11, tag := 0, epoch := 0,
    addr := BitVec.ofNat 64 addr, via := none }

/-- The host bus address behind offset `o` of the loft aperture (10 R227). -/
def State.loftBus (s : State) (o : Nat) : Nat := 2 ^ 12 * s.rd F.HUB_LOFT_HOST_bus + o

/-- A read of host memory: what the world returned, none when its completion reports an error or the link is down. -/
def State.hostRead (s : State) (bus n : Nat) (ext : Option (List Byte)) : State × Option (List Byte) :=
  if s.linkUp then
    let s1 := (s.sends (.hostRead bus n)).count 68 n
    match ext with
    | some d => (s1, some (d.take n))
    | none => (s1.badCompletion.1, none)
  else (s, none)

/-- Why a loft request cannot leave (10 R230): the code of HUB_LOFT_STATUS.last_err, 4 not enabled, 3 link down. -/
def State.loftBlock (s : State) : Option Nat :=
  if !s.on F.HUB_LOFT_CTRL_enable then some 4 else if s.linkUp then none else some 3

/-- A failed loft request (10 R230). -/
def State.loftFail (s : State) (code : Nat) : State :=
  (s.wrs [(F.HUB_LOFT_STATUS_error, 1), (F.HUB_LOFT_STATUS_last_err, code)]).bump F.HUB_LOFT_STATUS_errors

/-- A loft read of the CPC (10 R228, R230): requests of at most 256 bytes. A poisoned completion is Completer Abort (22 R451). -/
def State.loftRead (s : State) (bus n : Nat) (ext : Option (List Byte)) : State × Option (List Byte) :=
  match s.loftBlock, ext with
  | some c, _ => (s.loftFail c, none)
  | none, none =>
    let c := ((s.sendAll ((cut256 (n / 256 + 2) bus n).map (fun p => .hostRead p.1 p.2))).count 68 n).badCompletion
    (c.1.loftFail (min 2 (c.2 + 1)), none)
  | none, some d => ((s.sendAll ((cut256 (n / 256 + 2) bus n).map (fun p => .hostRead p.1 p.2))).count 68 n, some (d.take n))

/-- A posted write of host memory, with its confirming read unless a later one confirms it (10 R229, 11 R248): 1 while it waits, 2 when the link
is down. -/
def State.hostWrite (s : State) (bus : Nat) (data : List Byte) (confirm : Bool := true) : State × Nat :=
  if s.linkUp then
    ((s.sendAll (.hostWrite bus data :: (if confirm then [.hostRead (bus + data.length - 1) 0] else []))).count 69 data.length, 1)
  else (s, 2)

/-- The errors that a partial write of a hub unit meets: a free value (DESIGN CHOICE, log 111). -/
def State.freeErrs (s : State) : List BurstErr := (Config.symbolErrors s.free).map (fun e => { burst := e.1, syms := e.2 })

/-- A write by one of the hub's units: 0 performed, 1 confirmed later, 2 failed. -/
def State.hubWrite (s : State) (space addr : Nat) (data : List Byte) (confirm : Bool := true) : State × Nat :=
  if space = 1 then s.hostWrite addr data confirm
  else if devOf addr ≠ s.devId then (s.sendWrite (s.cpcReq addr) 0xFF data, 1)
  else
    match s.check .cpc (addr % 2 ^ 48) data.length 2 false with
    | (s1, .ok (.hbm r)) =>
      let w := (s1.draw.2.hubCarry true (addr % 2 ^ 48) data).hbmWrite r (addr % 2 ^ 48) addr data s1.freeErrs
      (w.1, if w.2 = data.length then 0 else 2)
    | (s1, .ok (.spad t o)) => ((s1.hubCarry true (addr % 2 ^ 48) data).spadWrite t o data, 0)
    | (s1, .ok (.loft o)) =>
      match s1.loftBlock with
      | some c => (s1.loftFail c, 2)
      | none => s1.hostWrite (s1.loftBus o) data confirm
    | (s1, .ok _) => (s1.sendWrite (s1.cpcReq addr) 0xFF data, 1)
    | (s1, _) => (s1, 2)

end Sys2Proof.Machine
end

