-- ==== Sys2Proof/Machine/FrontOps.lean ====
section
/-! DEFINITION. The command front end's shared operations (13): packets and their check, fences, retirement, guilt (R289 to R292), bays and
their release, the destroy of a queue (R296). -/

namespace Sys2Proof.Machine

/-! Queues. -/

def Queue.state (x : Queue) : Nat := x.rd F.FE_Q_STATE_state
/-- A queue's state changed, with the counts of FE_STATUS. -/
def State.qState (s : State) (q st : Nat) : State :=
  let o := (s.queue q).state
  let s1 := s.setQueue q ((s.queue q).wr F.FE_Q_STATE_state st)
  s1.wrs [(F.FE_STATUS_active, s.rd F.FE_STATUS_active + b2n (st == 1) - b2n (o == 1)),
          (F.FE_STATUS_guilty, s.rd F.FE_STATUS_guilty + b2n (st == 2) - b2n (o == 2))]

/-- head: the low 32 bits of the retired count (13 R271). -/
def Queue.head (x : Queue) : Nat := x.retired % 2 ^ 32
def Queue.tail (x : Queue) : Nat := x.rd F.FE_Q_PTR_tail
/-- The queue with another retired count. -/
def Queue.retire (x : Queue) (n : Nat) : Queue :=
  let r := (x.retired + n) % 2 ^ 63
  ({ x with retired := r } : Queue).wr F.FE_Q_PTR_head r
/-- Ring entries. -/
def Queue.entries (x : Queue) : Nat := 2 ^ x.rd F.FE_Q_CFG_log2_size / 64
def Queue.base (x : Queue) : Nat := x.rd F.FE_Q_BASE_base * 4096

/-- Dispatchers start packets (13 R288, 18 R400 to R402, 21 R445): the device is ON or ENTERING, no global stop, no firmware activation. -/
def State.feReady (s : State) : Bool := s.pwrOn && !s.stopped && !s.fw.active

/-! Packets (13 R278, R279). -/

def Pkt.type (p : Pkt) : Nat := le p.bytes 0 1
def Pkt.async (p : Pkt) : Bool := bitOf (le p.bytes 1 1) 0
def Pkt.fence (p : Pkt) : Bool := bitOf (le p.bytes 1 1) 1
def Pkt.irq (p : Pkt) : Bool := bitOf (le p.bytes 1 1) 2
/-- Bytes [a, b) are 0. -/
def Pkt.zero (p : Pkt) (a b : Nat) : Bool := allZero (sub p.bytes a (b - a))

/-- The check made when a packet starts (13 R279). -/
def Pkt.ok (p : Pkt) : Bool :=
  let b := p.bytes
  let head := b.length == 64 && le b 1 1 < 8 && p.zero 2 8
  let rest :=
    if p.type = 1 then p.zero 8 64
    else if p.type = 2 then
      le b 8 1 < 64 && p.zero 9 16 && le b 16 8 % 64 == 0 && le b 24 4 < 2 ^ 24 && le b 24 4 % 4 == 0 && p.zero 28 32 &&
      le b 40 8 % 8 < 2 && p.zero 56 64
    else if p.type = 3 then le b 8 1 < 4 && p.zero 9 16 && 1 ≤ le b 32 4 && p.zero 36 64
    else if p.type = 4 then le b 8 1 < 2 && p.zero 9 16 && le b 16 8 % 8 == 0 && p.zero 32 64
    else if p.type = 5 then
      le b 8 1 < 4 && p.zero 9 10 && (le b 10 2 < 32768 || le b 10 2 == 0xFFFF) && p.zero 12 16 && le b 16 8 % 8 == 0 &&
      le b 24 8 < 2 ^ 63 && p.zero 32 64
    else if p.type = 6 then p.zero 8 16 && p.zero 24 64
    else if p.type = 7 then p.zero 8 16 && p.zero 28 64
    else if p.type = 8 then le b 8 1 < 2 && p.zero 9 16 && le b 16 8 % 16 == 0 && p.zero 24 64
    else if p.type = 9 then
      !p.inJump && le b 8 1 < 2 && p.zero 9 16 && le b 16 8 % 64 == 0 && 1 ≤ le b 24 4 && le b 24 4 ≤ 262144 && p.zero 28 64
    else false
  head && rest

/-- The place of the JUMP whose buffer is being fetched: the last that has started (13 R286). -/
def Queue.fetching (x : Queue) : Option Nat :=
  if x.jump.isSome then (x.pkts.reverse.findIdx? (fun p => p.type == 9 && p.started && !p.done)).map (fun i => x.pkts.length - 1 - i) else none

/-- Whether the k-th packet may start (13 R275): after the packet before it has completed, or started when async; FENCE_SIGNAL,
SNAPSHOT_CUT and TIMESTAMP after every earlier one has completed. A JUMP counts as started once its buffer's packets have. -/
def Queue.mayStart (x : Queue) (k : Nat) (p : Pkt) : Bool :=
  let before := x.pkts.take k
  if p.type = 4 ∨ p.type = 7 ∨ p.type = 8 then before.all (·.done)
  else
    match before.getLast? with
    | none => true
    | some r => if p.async then r.started && x.fetching != some (k - 1) else r.done

/-- The next packet to start, with its place. -/
def Queue.next? (x : Queue) : Option (Nat × Pkt) :=
  let k := (x.pkts.takeWhile (·.started)).length
  match x.pkts[k]? with
  | none => none
  | some p => if x.mayStart k p then some (k, p) else none

/-- The queue's dispatcher. -/
def Queue.disp (x : Queue) : Nat := x.rd F.FE_Q_CFG_prio

/-- Whether dispatcher `d`'s copy unit works. -/
def State.copying (s : State) (d : Nat) : Bool := (kget s.disp d {}).queue.isSome

/-- A queue is ready (13 R274): ACTIVE, with a packet that may start; a COPY waits for its dispatcher's unit, and no LAUNCH starts while
the device enters mothball (18 R400). -/
def State.ready (s : State) (q : Nat) : Bool :=
  let x := s.queue q
  x.state == 1 && (match x.next? with
    | none => false
    | some (_, p) => (p.type != 3 || !s.copying x.disp) && (p.type != 2 || s.rd F.PWR_STATUS_state == 1))

/-- The queue that its dispatcher serves next: round robin in ascending number after the one served last (13 R274). -/
def State.served (s : State) (q : Nat) : Bool :=
  let d := (s.queue q).disp
  let last := s.rd (F.FE_DISP_last_queue d)
  let dist := fun (k : Nat) => (k + 32767 - last) % 32768
  s.feReady && s.ready q && s.queues.all (fun e => !(s.ready e.1) || e.2.disp != d || dist q ≤ dist e.1)

/-- The k-th packet of a queue replaced. -/
def Queue.setPkt (x : Queue) (k : Nat) (p : Pkt) : Queue := { x with pkts := x.pkts.set k p }

/-- A packet starts: marked, and counted by its dispatcher. -/
def State.startPkt (s : State) (q k : Nat) (p : Pkt) : State :=
  let d := (s.queue q).disp
  (s.setQueue q ((s.queue q).setPkt k { p with started := true })).wrs
    [(F.FE_DISP_last_queue d, q), (F.FE_DISP_started d, s.rd (F.FE_DISP_started d) + 1)]

/-! Timers (13 R287). -/

/-- A self-test of the bay is in progress or waits for its grant (17 R370, R373). -/
def State.underTest (s : State) (b : Nat) : Bool :=
  !(s.bay b).testing.isEmpty || !(s.bay b).testSt.isEmpty ||
  s.pwr.waiting.any (fun e => e.2.any (fun w => w.1 == 2 && s.bayOf w.2 == some b))

/-- A started packet that keeps no timer running: a TICK_WAIT that waits, a LAUNCH that waits for a bay another queue holds or that a
self-test uses (17 R373). -/
def State.waitsOnly (s : State) (q : Nat) (p : Pkt) : Bool :=
  (p.type == 6 && p.stage == 1) ||
  (p.type == 2 && p.stage == 1 &&
    (match p.bay with
     | none => false
     | some b => (match (s.bay b).holder with | some h => h != q | none => s.underTest b)))

/-- Whether the timer runs. -/
def State.timerRuns (s : State) (q : Nat) : Bool :=
  let x := s.queue q
  s.feReady && x.state == 1 && (match x.pkts.find? (fun p => !p.done) with | none => false | some p => p.started) &&
  x.pkts.any (fun p => p.started && !p.done && !s.waitsOnly q p)

/-- The timer started, held or left as it is. -/
def State.timing (s : State) (q : Nat) : State :=
  let x := s.queue q
  match x.timerAt with
  | none => if s.timerRuns q then s.setQueue q { x with timerAt := some s.time } else s
  | some t => if s.timerRuns q then s else s.setQueue q { x with timerAt := none, timerAcc := x.timerAcc + (s.time - t) }

/-! What a queue waits for (FE_Q_STATE, 13 R293). -/

/-- The queue that `q` is blocked on. -/
def State.blockedOn (s : State) (q : Nat) : Option Nat :=
  let x := s.queue q
  if x.state ≠ 1 then none
  else
    x.pkts.findSome? (fun p =>
      if p.started && !p.done && p.stage == 1 then
        if p.type = 5 then (if le p.bytes 10 2 = 0xFFFF ∨ le p.bytes 10 2 = q then none else some (le p.bytes 10 2))
        else if p.type = 2 then (p.bay.bind (fun b => (s.bay b).holder)).bind (fun h => if h = q then none else some h)
        else none
      else none)

/-- wait_kind, blocked and blocked_on follow the packets. -/
def State.showWait (s : State) (q : Nat) : State :=
  let x := s.queue q
  let kind := (x.pkts.findSome? (fun p =>
    if p.started && !p.done && p.stage == 1 then
      (if p.type = 5 then some 1 else if p.type = 6 then some 2 else if p.type = 2 then some 3 else none) else none)).getD 0
  let on := s.blockedOn q
  s.setQueue q (x.wrs [(F.FE_Q_STATE_wait_kind, kind), (F.FE_Q_STATE_blocked, b2n on.isSome), (F.FE_Q_STATE_blocked_on, on.getD 0)])

/-- The walk of R294: whether the blocked-on chain from `p` returns to `q` within `n` hops. -/
def State.walk (s : State) (q : Nat) : Nat → Nat → Bool
  | 0, _ => false
  | n + 1, p => if p = q then true else match s.blockedOn p with
    | none => false
    | some r => s.walk q n r

/-! Guilt and release. -/

/-- Bays that a queue's LAUNCHes hold, ascending. -/
def State.baysOf (s : State) (q : Nat) : List Nat := (s.bays.filter (fun e => e.2.holder == some q)).map (·.1)

/-- RED_DROPPED, once per round (09 R203). -/
def State.redDropped (s : State) (k round : Nat) : State :=
  let v := s.vault k
  if v.drops.contains round then s
  else (s.setVault k { v with drops := v.drops ++ [round] }).logs .RED_DROPPED [k, round]

/-- The stations assigned to a bay, ascending. -/
def State.stationsOf (s : State) (b : Nat) : List Nat := (List.range 64).filter (fun k => (s.image.vaults.getD k {}).bay == b)

/-- A station's banks, row counts and forwarders emptied (09 R203). -/
def State.stationEmpty (s : State) (k : Nat) : State :=
  (s.setVault k { (s.vault k) with vals := [], flags := [], rows := [], fwd := [], rets := [] }).wrs
    [(F.HUB_VST_STATUS_state k, 0), (F.HUB_VST_STATUS_forwarders k, 0), (F.HUB_VST_ROWS_rows k, 0)]

/-- A bay's stations empty and drop what arrives until the next LAUNCH, and what credit held back (09 R203). -/
def State.stationsOff (s : State) (b : Nat) : State :=
  s.forEach (s.stationsOf b) (fun a k =>
    let e := a.stationEmpty k
    ((e.vault k).held.map (·.2.1)).foldl (fun c r => c.redDropped k r) (e.setVault k { e.vault k with live := false, held := [] }))

/-- A dump of the bay is cancelled and its tiles released, with error ABORTED (20 R433). -/
def State.dumpAbort (s : State) (b : Nat) : State :=
  if (s.rd F.HUB_DUMP_STATUS_state = 1 ∨ s.rd F.HUB_DUMP_STATUS_state = 2) ∧ s.dump.bay = b then
    (({ s with dump := {} } : State).forEach s.dump.held (fun a t => a.setTile t { a.tile t with hold := false })).wrs
      [(F.HUB_DUMP_STATUS_state, 5), (F.HUB_DUMP_STATUS_error, 1), (F.HUB_DUMP_STATUS_held, 0)]
  else s

/-- The hub's abort of a bay (08 R185): every live tile records the cause, which is broadcast in their columns (10 R223); stations and dump
follow; the bay is releasing. -/
def State.hubAbort (s : State) (b cause origin : Nat) : State :=
  if (s.bay b).aborted then s
  else
    let s1 := (((s.abortBay b cause origin).broadcast (s.columnsOf (s.bayTiles b)) 2 b).stationsOff b).dumpAbort b
    (s1.setBay b { s1.bay b with aborted := true, abortAt := s.time }).wr (F.FE_BAY_releasing b) (b2n (s.bay b).holder.isSome)

/-- What a fence write of a queue reports (Queue.confirm): 0 a packet's own write, 1 a completion fence with irq, 2 one without, 3 a start
fence, 4 the GUILTY sequence, 5 a destroy, 6 a packet that is cancelled: nothing. -/
def State.fenceTo (s : State) (q code space addr value : Nat) : State × Nat :=
  let r := s.hubWrite space addr (leBytes 8 value)
  if r.2 = 1 then (r.1.setQueue q { r.1.queue q with confirm := (r.1.queue q).confirm ++ [code] }, 1) else r

/-- The queue's completion fence written with a value. -/
def State.completionFence (s : State) (q code value : Nat) : State × Nat :=
  let x := s.queue q
  s.fenceTo q code (x.rd F.FE_Q_CFG_fence_space) (x.rd F.FE_Q_FENCE_addr * 8) value

/-- The queue's MSI-X message. -/
def State.qMsix (s : State) (q : Nat) : State := s.msix ((s.queue q).rd F.FE_Q_CFG_vector)

/-- The last steps of the GUILTY sequence (13 R291): the message, then every packet discarded. -/
def State.guiltyEnd (s : State) (q : Nat) : State :=
  let s1 := s.qMsix q
  let x := s1.queue q
  let n := (x.tail + 2 ^ 32 - x.head) % 2 ^ 32
  s1.setQueue q (({ x.retire n with pkts := [], fetchedTo := x.tail, jump := none, seqStep := 3 } : Queue).wr F.FE_Q_STATE_reset_done 1)

/-- The GUILTY sequence goes on once no bay of the queue is held. -/
def State.guiltyStep (s : State) (q : Nat) : State :=
  let x := s.queue q
  if x.state = 2 && x.seqStep = 1 && (s.baysOf q).isEmpty then
    match (s.setQueue q { x with seqStep := 2 }).completionFence q 4 (2 ^ 63 + x.retired) with
    | (s1, 1) => s1
    | (s1, _) => s1.guiltyEnd q
  else s

/-- A queue's waiting LAUNCHes and COPY given up. -/
def State.cancelWork (s : State) (q : Nat) : State :=
  let s1 := { s with
    bays := s.bays.map (fun (e : Nat × Bay) => (e.1, { e.2 with waiting := e.2.waiting.filter (· != q) }))
    disp := s.disp.map (fun (e : Nat × Disp) => (e.1, if e.2.queue = some q then ({} : Disp) else e.2)) }
  let d := (s.queue q).disp
  let s2 := if (kget s.disp d {}).queue = some q then s1.wr (F.FE_DISP_busy d) 0 else s1
  s2.setQueue q { (s2.queue q).wrs [(F.FE_Q_STATE_wait_kind, 0), (F.FE_Q_STATE_blocked, 0), (F.FE_Q_STATE_blocked_on, 0)] with
    pkts := [], jump := none, timerAt := none, timerAcc := 0,
    confirm := (s2.queue q).confirm.map (fun c => if c = 0 ∨ c = 3 then 6 else c) }

/-- The order of the causes that arise for one queue in one hub cycle (13 R290). -/
def guiltRank (cause : Nat) : Nat :=
  if cause < 0x80 then 0
  else match cause with
    | 0x86 => 1 | 0x87 => 2 | 0x8A => 3 | 0x81 => 4 | 0x85 => 5 | 0x80 => 6 | c => c

/-- A cause after the queue left ACTIVE. It can fall in the hub cycle of the cause before it, which it then replaces when it ranks before that one
(13 R290), or in that of DESTROY, and is then recorded before the destroy (R298); where it can, a free choice tells, since one time of the
model may be several cycles (log 71). -/
def State.laterCause (s : State) (q cause origin : Nat) : State :=
  let x := s.queue q
  let old := x.rd F.FE_Q_GUILT_cause
  if x.state ≠ 0 && x.seqAt == s.time && (if x.state = 2 then decide (guiltRank cause < guiltRank old) else old == 0) then
    if Config.freeChoice s.free % 2 = 1 then
      let s1 := s.draw.2.setQueue q (x.wrs [(F.FE_Q_GUILT_cause, cause), (F.FE_Q_GUILT_origin, origin)])
      if x.state = 2 then s1
      else ((s1.setQueue q ((s1.queue q).wr F.FE_Q_GUILT_packet x.head)).bump F.FE_COUNTS_guilty_events).logs .QUEUE_GUILTY [q, cause, origin]
    else s.draw.2
  else s

/-- A cause for the queue that holds a bay already being aborted. -/
def State.bayCause (s : State) (b cause origin : Nat) : State :=
  match (s.bay b).holder with
  | some q => s.laterCause q cause origin
  | none => s

/-- A cause arrives at a queue (13 R289 to R291): an ACTIVE queue becomes GUILTY, fetching stops, waits are cancelled, its bays are
aborted with FE_ABORT, and the sequence begins. -/
def State.markGuilty (s : State) (q cause origin : Nat) : State :=
  let x := s.queue q
  if x.state ≠ 1 then s.laterCause q cause origin
  else
    let s1 := (s.qState q 2).setQueue q
      ({ x with seqStep := 1, seqAt := s.time } : Queue)
    let s2 := s1.setQueue q ((s1.queue q).wrs [(F.FE_Q_STATE_state, 2), (F.FE_Q_GUILT_cause, cause), (F.FE_Q_GUILT_origin, origin),
      (F.FE_Q_GUILT_packet, x.head), (F.FE_Q_STATE_reset_done, 0)])
    let s3 := ((s2.bump F.FE_COUNTS_guilty_events).logs .QUEUE_GUILTY [q, cause, origin]).cancelWork q
    (s3.forEach (s3.baysOf q) (fun a b => a.hubAbort b 0x41 0x7FF)).guiltyStep q

/-- A fence write that failed (13 R281): WRITE_FAULT, except in the GUILTY sequence and in a destroy. -/
def State.writeFault (s : State) (q : Nat) : State := s.markGuilty q 0x8C 0x7FF

/-- One packet retired (13 R275, R286): the count, the completion fence, the message. -/
def State.retireOne (s : State) (q : Nat) (p : Pkt) : State :=
  let x := s.queue q
  let y := (if p.inJump then x else x.retire 1)
  let s1 := s.setQueue q { y with pkts := x.pkts.drop 1 }
  if p.fence then
    match s1.completionFence q (if p.irq then 1 else 2) y.retired with
    | (s2, 0) => if p.irq then s2.qMsix q else s2
    | (s2, 1) => s2
    | (s2, _) => s2.writeFault q
  else if p.irq then s1.qMsix q else s1

/-- Completed packets at the front retire, in order. -/
def State.retireAll (s : State) (q : Nat) : Nat → State
  | 0 => s
  | f + 1 =>
    match (s.queue q).pkts with
    | [] => s
    | p :: _ => if p.done then (s.retireOne q p).retireAll q f else s

/-- The packets of the buffer of the JUMP at place `k` that have not retired, which stand before it, have completed. -/
def Queue.bufferDone (x : Queue) (k : Nat) : Bool := ((x.pkts.take k).reverse.takeWhile (·.inJump)).all (·.done)

/-- A JUMP completes when its whole buffer has been fetched and its packets have completed (13 R286). -/
def Queue.jumpDone (x : Queue) : Queue :=
  { x with pkts := x.pkts.mapIdx (fun k p =>
      if p.type == 9 && p.started && !p.done && x.fetching != some k && x.bufferDone k then { p with done := true } else p) }

/-- The walk of a queue that is blocked (13 R294): with fence_cycle it is made, and a cycle marks it. -/
def State.blockWalk (s : State) (q : Nat) : State :=
  match s.blockedOn q with
  | none => s
  | some p => if s.on F.HUB_PKG_CAP_fence_cycle && s.walk q 16 p then s.markGuilty q 0x81 0x7FF else s

/-- The queue that FE_Q_STATE shows as the one blocked on. -/
def Queue.shownOn (x : Queue) : Option Nat := if x.rd F.FE_Q_STATE_blocked = 1 then some (x.rd F.FE_Q_STATE_blocked_on) else none

/-- What a queue waits for shown anew; one that has become blocked is walked. Of several waits, the oldest packet's counts (DESIGN CHOICE,
log 112). -/
def State.reblock (s : State) (q : Nat) : State :=
  if s.blockedOn q = (s.queue q).shownOn then s.showWait q else (s.showWait q).blockWalk q

/-- After anything changed in a queue: JUMPs, retirement, what it waits for, its timer. -/
def State.settle (s : State) (q : Nat) : State :=
  let x := s.queue q
  (((s.setQueue q x.jumpDone).retireAll q (x.pkts.length + 1)).reblock q).timing q

/-- A packet completes: the timer restarts, then the queue settles. -/
def State.completePkt (s : State) (q k : Nat) : State :=
  let x := s.queue q
  let y := { x with pkts := x.pkts.modify k (fun p => { p with done := true, started := true, stage := 2 }), timerAcc := 0,
                    timerAt := x.timerAt.map (fun _ => s.time) }
  (s.setQueue q y).settle q

/-! Bays. -/

/-- The same elements, in whatever order. -/
def sameSet {α : Type} [BEq α] (a b : List α) : Bool := a.all b.contains && b.all a.contains

/-- Whether a bay is affected by the change from one image to another (02 R43). -/
def Image.affected (i j : Image) (b : Nat) : Bool :=
  i.bay? b != j.bay? b || !sameSet (i.chains.filter (·.bay == b)) (j.chains.filter (·.bay == b)) ||
  (List.range 64).any (fun k => i.vaults.getD k {} != j.vaults.getD k {} && ((i.vaults.getD k {}).bay == b || (j.vaults.getD k {}).bay == b)) ||
  (((i.bay? b).map (·.tiles)).getD [] ++ ((j.bay? b).map (·.tiles)).getD []).any
    (fun t => i.row (t / 150) (t % 150 / 15) != j.row (t / 150) (t % 150 / 15))

/-- A committed stowage swap affects the bay (13 R276). -/
def State.swapHolds (s : State) (b : Nat) : Bool :=
  (s.tb.pend.any (fun a => a.type == 4 && a.arg % 256 == 0 && s.committed a) ||
   s.tb.due.any (fun a => a.type == 4 && a.arg % 256 == 0)) &&
  (match s.stow.staged with | none => false | some j => s.image.affected j b)

/-- A bay stopped by the safety monitor (17 R372, R375, R376; 02 R46): an UNCONTAINED failure, a failed self-test's 1 ms, a site that is
not GOOD, or a failed station. -/
def State.bayStopped (s : State) (b : Nat) : Bool :=
  (s.bay b).uncont || s.time < (s.bay b).stopUntil || (s.bayTiles b).any (fun t => s.siteState (s.site t) != 0) ||
  (List.range 64).any (fun k => (s.image.vaults.getD k {}).bay == b && bitOf (s.rd F.SAFE_STATION_FAILED_failed) k)

/-- A bay that no LAUNCH may name (13 R276): no BAYS entry, no present tile, or no image in force. -/
def State.badBay (s : State) (b : Nat) : Bool := s.image?.isNone || (s.image.bay? b).isNone || (s.bayTiles b).isEmpty

/-- A LAUNCH to the bay may be issued. -/
def State.launchable (s : State) (b : Nat) : Bool :=
  (s.bay b).holder.isNone && !s.underTest b && !s.swapHolds b && !s.bayStopped b && s.rd F.PWR_STATUS_state == 1

/-- The stations of a bay empty and open at its LAUNCH (09 R203). -/
def State.stationsOn (s : State) (b : Nat) : State :=
  s.forEach (s.stationsOf b) (fun a k =>
    let e := a.stationEmpty k
    (e.setVault k { e.vault k with live := true, drops := [] }).wr (F.HUB_VST_STATUS_round k) 0)

/-- A LAUNCH is issued (13 R276, R277; 08 R180): the bay is held, every present tile starts, and the start fence is written. -/
def State.issue (s : State) (q k b : Nat) (p : Pkt) : State :=
  let tiles := s.bayTiles b
  let info : LaunchInfo :=
    { bay := b, count := tiles.length, dev := s.devId, base := le p.bytes 16 8, entry := le p.bytes 24 4, args := le p.bytes 32 8,
      mode := ((s.image.bay? b).map (·.accMode)).getD 0, pk1 := (s.queue q).rd F.FE_Q_CFG_pk1 == 1 }
  let s1 := (s.setBay b { s.bay b with
      holder := some q
      waiting := (s.bay b).waiting.erase q
      finished := []
      aborted := false }).wrs
    [(F.FE_BAY_queue b, q), (F.FE_BAY_held b, 1), (F.FE_BAY_releasing b, 0)]
  let s2 := s1.setQueue q ((s1.queue q).setPkt k { p with started := true, stage := 2, bay := some b })
  let s3 := ((s2.stationsOn b).broadcast (s.columnsOf tiles) 1 b).forEach (List.range tiles.length)
    (fun a i => a.setTile (tiles.getD i 0) ((a.tile (tiles.getD i 0)).launch info (tiles.getD i 0) i a.tn a.sinceEdge))
  let f := le p.bytes 40 8
  if f = 0 then s3
  else
    match s3.fenceTo q 3 (f % 2) (f / 8 * 8) (le p.bytes 48 8) with
    | (s4, 2) => s4.writeFault q
    | (s4, _) => s4

/-- The first LAUNCH that waits for the bay is issued when it may be; where the image no longer has the bay, every one is a BAD_BAY. The queue of
the one issued. -/
def State.launchFirst (s : State) (b : Nat) : State × List Nat :=
  match (s.bay b).waiting with
  | [] => (s, [])
  | q :: rest =>
    if s.launchable b && s.feReady then
      if s.badBay b then (s.forEach (q :: rest) (fun a r => a.markGuilty r 0x8B 0x7FF), [])
      else
        match (s.queue q).pkts.findIdx? (fun p => p.type == 2 && p.started && !p.done && p.stage == 1 && p.bay == some b) with
        | none => (s.setBay b { s.bay b with waiting := rest }, [])
        | some k => (s.issue q k b ((s.queue q).pkts.getD k { bytes := [] }), [q])
    else (s, [])

/-- A number put among ascending ones. -/
def ascInsert (n : Nat) : List Nat → List Nat
  | [] => [n]
  | m :: l => if n < m then n :: m :: l else if n = m then m :: l else m :: ascInsert n l

/-- The queues `l`, and those whose LAUNCHes wait for one of the bays, settled in ascending order: those that have become blocked are walked in
that order (13 R287, R293, R294). -/
def State.settleWaiting (s : State) (bs : List Nat) (l : List Nat := []) : State :=
  s.forEach ((l ++ (bs.map (fun b => (s.bay b).waiting)).flatten).foldl (fun l q => ascInsert q l) []) State.settle

/-- Each of the bays may have come free: its next LAUNCH, then the queues concerned. -/
def State.launchAt (s : State) (bs : List Nat) : State :=
  let r := bs.foldl (fun (a : State × List Nat) b => ((a.1.launchFirst b).1, a.2 ++ (a.1.launchFirst b).2)) (s, [])
  r.1.settleWaiting bs r.2

/-- Bay b may have come free. -/
def State.launchNext (s : State) (b : Nat) : State := s.launchAt [b]

/-- Every bay that has LAUNCHes waiting. -/
def State.launchAll (s : State) : State := s.launchAt (s.bays.map (·.1))

/-- The next step of a destroy (13 R296): ABORTING → FENCING once every D of its bays is quiescent; CLOSING → DISABLED once every bay is
released. -/
def State.destroyEnd (s : State) (q : Nat) : State :=
  let x := s.queue q
  if x.state = 6 && (s.baysOf q).isEmpty then
    ((s.qState q 0).setQueue q (((s.qState q 0).queue q).wrs
      [(F.FE_Q_STATE_destroyed, 1), (F.FE_Q_DESTROY_elapsed, min ((s.time - x.seqAt) / (2 * usCycles)) 127)])).qMsix q
  else s

/-- FENCING → CLOSING: the fence is confirmed, or failed, which a destroy ignores; then its message. -/
def State.destroyFenced (s : State) (q : Nat) : State := ((s.qState q 6).qMsix q).destroyEnd q

/-- Whether D of every tile of a bay is quiescent. -/
def State.bayDQuiet (s : State) (b : Nat) : Bool :=
  (s.bayTiles b).all (fun t => (s.tile t).state == 0 || (s.tile t).rd F.TILE_D_STATUS_quiescent == 1)

/-- The sum of a field over the tiles of a bay. -/
def State.sumTiles (s : State) (b : Nat) (f : Fld) : Nat := (s.bayTiles b).foldl (fun n t => n + (s.tile t).rd f) 0

/-- TILE_D_ABORT_BYTES of a bay added to the FE_Q_DESTROY of the queue that held it (13 R296). -/
def State.tallyBay (s : State) (q b : Nat) : State :=
  let x := s.queue q
  let ab := s.sumTiles b F.TILE_D_ABORT_BYTES_abandoned
  s.setQueue q (x.wrs
    [(F.FE_Q_DESTROY_landed_bytes, x.rd F.FE_Q_DESTROY_landed_bytes + (s.sumTiles b F.TILE_D_ABORT_BYTES_issued - ab)),
     (F.FE_Q_DESTROY_abandoned_bytes, x.rd F.FE_Q_DESTROY_abandoned_bytes + ab)])

/-- The steps from STOPPING on; they wait for resume during a global stop (13 R298). -/
def State.destroyStep (s : State) (q : Nat) : State :=
  let x := s.queue q
  if s.stopped then s
  else if x.state = 3 ∨ x.state = 4 then
    let bs := s.baysOf q
    let s1 := (s.qState q 4).forEach bs (fun a b => a.hubAbort b 0x41 0x7FF)
    if bs.all (fun b => s1.bayDQuiet b) then
      let s2 := (s1.qState q 5).forEach bs (fun a b => a.tallyBay q b)
      match s2.completionFence q 5 (2 ^ 63 + (s2.queue q).retired) with
      | (s3, 1) => s3
      | (s3, _) => s3.destroyFenced q
    else s1
  else s.destroyEnd q

/-- A destroy past its 200 µs with no bay held takes the steps it has not reached: one that waits for the fence's confirmation closes (13 R296, R297). -/
def State.destroyForce (s : State) (q : Nat) : State :=
  let x := s.queue q
  if x.state = 5 && (s.baysOf q).isEmpty && !s.stopped then (s.setQueue q (x.wr F.FE_Q_DESTROY_escalated 1)).destroyFenced q else s

/-- The queue that held a bay goes on after the bay's release: its GUILTY sequence or its destroy. -/
def State.afterRelease (s : State) (q : Nat) : State :=
  if (s.queue q).state = 2 then s.guiltyStep q
  else if 3 ≤ (s.queue q).state then s.destroyStep q
  else s

/-- The hub releases a bay (13 R276, R291, R297; 17 R381): its tiles are IDLE, ageing's marks take effect, its queue goes on and the next
LAUNCH that waits is issued. -/
def State.releaseBay (s : State) (b : Nat) : State :=
  let x := s.bay b
  let s1 := s.forEach (s.bayTiles b) (fun a t =>
    if (a.tile t).state = 4 then a.setTile t ((a.tile t).wr F.TILE_S_STATUS_state 0) else a)
  let s2 := (s1.setBay b { x with holder := none, finished := [], aborted := false, resetAt := none, marks := [] }).wrs
    [(F.FE_BAY_held b, 0), (F.FE_BAY_releasing b, 0)]
  let s3 := s2.forEach x.marks (fun a k => a.suspect k)
  let s4 := match x.holder with
    | some q => (if (s3.queue q).state = 3 ∨ (s3.queue q).state = 4 then s3.tallyBay q b else s3).afterRelease q
    | none => s3
  s4.launchNext b

/-! The safety monitor's stops (17 R375). -/

/-- A bay stopped by the safety monitor: SAFETY_STOP on every tile, the holding queue GUILTY with that cause. -/
def State.safetyStop (s : State) (b origin : Nat) : State :=
  if (s.bay b).aborted then s.bayCause b 0x42 origin
  else
    let h := (s.bay b).holder
    let s1 := (s.hubAbort b 0x42 origin).logs .SAFETY_STOP [b]
    match h with
    | some q => s1.markGuilty q 0x42 origin
    | none => s1

/-- A scratchpad word with two bits in error that a read from outside the tile meets (17 R367, R375, R376): the record, the mark, and the stop of
the tile's bay, unless an engine of that bay reads it, whose own fault is the stop. -/
def State.spadBad (s : State) (t o : Nat) (m : Master) : State :=
  let s1 := (s.suspect (s.site t)).record { s.recOfTile 2 4 0 t with addr := s.spadAddr t o }
  match s.bayOf t with
  | none => s1
  | some b => if (match m with | .bay k => k.val == b | _ => false) then s1 else s1.safetyStop b t

/-- A read from outside the tile under a master code: the bytes, or none when a word is uncorrectable. -/
def State.spadServe (s : State) (m : Master) (t o n : Nat) (errs : List BurstErr) : State × Option (List Byte) :=
  match s.spadRead t o n errs with
  | (s1, .ok b) => (s1, some b)
  | (s1, .error w) => (s1.spadBad t w m, none)

/-- A read by one of the hub's units: of a host bus address (`space` 1) or a global address. Memory of this device answers itself; what
another device, a register or the host returns is `ext`. -/
def State.hubRead (s : State) (space addr n : Nat) (ext : Option (List Byte)) (errs : List BurstErr) : State × Option (List Byte) :=
  if space = 1 then s.hostRead addr n ext
  else if devOf addr ≠ s.devId then (s.sendRead (s.cpcReq addr) n, ext)
  else
    match s.check .cpc (addr % 2 ^ 48) n 1 false with
    | (s1, .ok (.hbm r)) =>
      match s1.hbmRead r (addr % 2 ^ 48) n addr errs with
      | (s2, some d) => (s2.hubCarry false (addr % 2 ^ 48) d, some d)
      | (s2, none) => (s2, none)
    | (s1, .ok (.spad t o)) =>
      match s1.spadServe .cpc t o n (wordErrs errs) with
      | (s2, some d) => ((s2.countMesh t n).hubCarry false (addr % 2 ^ 48) d, some d)
      | (s2, none) => (s2, none)
    | (s1, .ok (.loft o)) => s1.loftRead (s1.loftBus o) n ext
    | (s1, .ok _) => (s1.sendRead (s1.cpcReq addr) n, ext)
    | (s1, _) => (s1, none)

/-- An UNCONTAINED failure's reaction: every bay with a tile on the dies is stopped, and stays so until a warm start. -/
def State.stopDies (s : State) (dies : List Nat) : State :=
  s.forEach (s.image.bays.map (·.id)) (fun a b =>
    if (a.bayTiles b).any (fun t => dies.contains (t / 150)) then (a.setBay b { a.bay b with uncont := true }).safetyStop b 0x7FF else a)

end Sys2Proof.Machine
end

