-- ==== Sys2Proof/Machine/FrontEnd.lean ====
section
/-! DEFINITION. The commands of the front end (13): doorbells and fetches, the nine packet types, fences' confirmation, timeouts, queue
operations, and the hub's part in a bay's finish, abort and reset (08 R182 to R185, 13 R297). -/

namespace Sys2Proof.Machine

/-- The start of queue `q`'s next packet, of a type that `f` admits: BAD_PACKET when malformed (13 R279), otherwise its meaning. -/
def State.start (s : State) (q : Nat) (f : Nat → Bool) (g : State → Nat → Pkt → State) : State :=
  match (s.queue q).next? with
  | none => s
  | some (k, p) =>
    if s.served q && f p.type then
      let s1 := s.startPkt q k p
      if p.ok then (g s1 k { p with started := true }).settle q else s1.markGuilty q 0x82 0x7FF
    else s

/-- A packet that waits: stage 1. -/
def State.waitPkt (s : State) (q k : Nat) (p : Pkt) : State := s.setQueue q ((s.queue q).setPkt k { p with stage := 1 })

/-- The place of the oldest started packet, not complete, that satisfies a test. -/
def Queue.busyPkt (x : Queue) (f : Pkt → Bool) : Option Nat := x.pkts.findIdx? (fun p => p.started && !p.done && f p)

/-- The queue marked GUILTY with a cause of the front end's own. -/
def State.feCause (s : State) (q cause : Nat) : State := s.markGuilty q cause 0x7FF

/-- A fenced device marks a queue that becomes ACTIVE (15 R339). -/
def State.partitionCheck (s : State) (q : Nat) : State := if s.fenced then s.feCause q 0x8A else s

/-- The window offsets of a queue's registers and of its doorbell. -/
def queueOff (q o : Nat) : Nat := 0xA00000 + 64 * q + o
def doorbellOff (q : Nat) : Nat := 0xC00000 + 8 * q

/-- What an accepted or refused doorbell does (13 R271, R298). -/
def State.doorbell (s : State) (q t : Nat) : State :=
  let x := s.queue q
  if x.state = 1 ∨ x.state = 2 then
    let a := (x.tail + 2 ^ 32 - x.head) % 2 ^ 32
    let b := (t + 2 ^ 32 - x.head) % 2 ^ 32
    if a ≤ b ∧ b ≤ x.entries then s.setQueue q (x.wr F.FE_Q_PTR_tail t) else s.feCause q 0x84
  else s.logs .FE_DB_IGNORED [q]

/-- DOORBELL (13 R271). -/
def execDoorbell (m : Master) (q : Fin 32768) (tail : Word) (s : State) : Res :=
  ok (s.guarded m (doorbellOff q) (fun a => a.doorbell q tail.toNat))

/-- How many ring packets the next fetch reads: up to 16, within 16 of head (13 R272, R273). -/
def Queue.fetchCount (x : Queue) : Nat :=
  let ahead := (x.fetchedTo + 2 ^ 32 - x.head) % 2 ^ 32
  let avail := (x.tail + 2 ^ 32 - x.fetchedTo) % 2 ^ 32
  min avail (16 - ahead)

/-- The ring slots of `n` packets from index `i`, read one by one; `ext` what the host returned for all of them. -/
def State.fetchRing (s : State) (q : Nat) (ext : Option (List Byte)) (errs : List BurstErr) : Nat → Nat → Nat → State × Option (List Pkt)
  | 0, _, _ => (s, some [])
  | n + 1, i, j =>
    let x := s.queue q
    let r := s.hubRead (x.rd F.FE_Q_CFG_ring_space) (x.base + 64 * (i % x.entries)) 64 (ext.map (fun d => sub d (64 * j) 64))
      ((errs.filter (fun e => e.burst / 2 == j)).map (fun e => { e with burst := e.burst % 2 }))
    match r.2 with
    | none => (r.1, none)
    | some b =>
      let (s1, l) := r.1.fetchRing q ext errs n ((i + 1) % 2 ^ 32) (j + 1)
      (s1, l.map (fun ps => { bytes := b } :: ps))

/-- The `n` packets of an indirect buffer with `left` to go, behind its JUMP (13 R286). -/
def State.takeJump (s : State) (q n space addr left : Nat) (b : List Byte) : State :=
  let y := s.queue q
  let k := y.fetching.getD 0
  let new := (List.range n).map (fun i => ({ bytes := sub b (64 * i) 64, inJump := true } : Pkt))
  s.setQueue q { y with
    pkts := y.pkts.take k ++ new ++ y.pkts.drop k
    jump := if left ≤ n then none else some (space, addr + 64 * n, left - n) }

/-- Packets of the ring at the end of those held, up to index `e` (13 R272, R273). -/
def State.takeRing (s : State) (q e : Nat) (l : List Pkt) : State :=
  s.setQueue q { s.queue q with pkts := (s.queue q).pkts ++ l, fetchedTo := e }

/-- Up to 16 packets of an indirect buffer fetched; RING_READ_ERR when they cannot be read. -/
def State.fetchJump (s : State) (q space addr left : Nat) (hostData : Option (List Byte)) (errs : List BurstErr) : State :=
  let n := min 16 left
  match s.hubRead space addr (64 * n) hostData errs with
  | (s1, none) => s1.feCause q 0x83
  | (s1, some b) => (s1.takeJump q n space addr left b).settle q

/-- `n` packets of the ring fetched from index `i`; RING_READ_ERR when they cannot be read. -/
def State.fetchNext (s : State) (q n i : Nat) (hostData : Option (List Byte)) (errs : List BurstErr) : State :=
  match s.fetchRing q hostData errs n i 0 with
  | (s1, none) => s1.feCause q 0x83
  | (s1, some l) => (s1.takeRing q ((i + n) % 2 ^ 32) l).settle q

/-- RING_FETCH: up to 16 packets of the indirect buffer in progress, or of the ring (13 R272, R273, R286). -/
def execRingFetch (q : Fin 32768) (hostData : Option (List Byte)) (errs : List BurstErr) (s : State) : Res :=
  if (s.queue q).state ≠ 1 ∨ s.feReady = false then ok s
  else
    match (s.queue q).jump with
    | some (space, addr, left) => ok (s.fetchJump q space addr left hostData errs)
    | none => ok (s.fetchNext q (s.queue q).fetchCount (s.queue q).fetchedTo hostData errs)

/-- NOP: completes at once. A packet of a type that the table does not list starts here too, and is malformed (13 R279; log 22). -/
def execNop (q : Fin 32768) (s : State) : Res :=
  ok (s.start q (fun t => t == 1 || t == 0 || 9 < t) (fun a k _ => a.completePkt q k))

/-- LAUNCH (13 R276, R277): BAD_BAY, the issue, or the wait for the bay. -/
def execLaunch (q : Fin 32768) (s : State) : Res :=
  ok (s.start q (· == 2) (fun a k p =>
    let b := le p.bytes 8 1
    if a.badBay b then a.feCause q 0x8B
    else if (a.bay b).waiting.isEmpty && a.launchable b then a.issue q k b p
    else
      (a.setQueue q ((a.queue q).setPkt k { p with stage := 1, bay := some b })).setBay b
        { a.bay b with waiting := (a.bay b).waiting ++ [q.val] }))

/-- COPY: the dispatcher's copy unit takes it (13 R285). -/
def execCopy (q : Fin 32768) (s : State) : Res :=
  ok (s.start q (· == 3) (fun a k p =>
    let d := (a.queue q).disp
    ((a.waitPkt q k { p with stage := 1 }).wr (F.FE_DISP_busy d) 1 |> fun b =>
      { b with disp := kput b.disp d
                  { queue := some q.val, src := le p.bytes 16 8, dst := le p.bytes 24 8, len := le p.bytes 32 4, space := le p.bytes 8 1 } })))

/-- The bursts given for one piece of a longer range. -/
def errsFrom (errs : List BurstErr) (a0 a n : Nat) : List BurstErr :=
  (errs.filter (fun e => (a / 32 - a0 / 32) ≤ e.burst && e.burst ≤ ((a + n - 1) / 32 - a0 / 32))).map
    (fun e => { e with burst := e.burst - (a / 32 - a0 / 32) })

/-- The bytes of a range read piece by piece, up to the first piece that fails. -/
def State.copyRead (s : State) (space a0 : Nat) (ext : Option (List Byte)) (errs : List BurstErr) :
    List (Nat × Nat) → State × List Byte × Bool
  | [] => (s, [], true)
  | (a, n) :: l =>
    match s.hubRead space a n (ext.map (fun d => sub d (a - a0) n)) (errsFrom errs a0 a n) with
    | (s1, none) => (s1, [], false)
    | (s1, some b) =>
      let (s2, rest, good) := s1.copyRead space a0 ext errs l
      (s2, b ++ rest, good)

/-- The bytes written piece by piece, the last one confirmed: 0 all performed, 1 confirmations outstanding, 2 a piece fails, and the rest is not written. -/
def State.copyWrite (s : State) (space a0 : Nat) (data : List Byte) : List (Nat × Nat) → State × Nat
  | [] => (s, 0)
  | (a, n) :: l =>
    if data.length ≤ a - a0 then (s, 0)
    else
      match s.hubWrite space a (sub data (a - a0) n) l.isEmpty with
      | (s1, 2) => (s1, 2)
      | (s1, r) =>
        let o := s1.copyWrite space a0 data l
        (o.1, max r o.2)

/-- The bytes of a copy whose source and destination ranges overlap: a destination byte that lies in the source keeps its old value or takes the
copied one, by a free choice of its own (13 R285; log 3). -/
def overlapped (choice src dst : Nat) (data : List Byte) : List Byte :=
  ((List.range data.length).zip data).map (fun p =>
    if src ≤ dst + p.1 && dst + p.1 < src + data.length && choice.testBit p.1 then data.getD (dst + p.1 - src) p.2 else p.2)

/-- What a COPY writes: the bytes it read, mixed with the old ones where both ranges lie in one space and overlap (13 R285). -/
def State.copyData (s : State) (c : Disp) (data : List Byte) : State × List Byte :=
  if c.space % 2 = c.space / 2 % 2 ∧ c.src < c.dst + c.len ∧ c.dst < c.src + c.len then
    (s.draw.2, overlapped (Config.freeChoice s.free) c.src c.dst data)
  else (s, data)

/-- COPY_UNIT_DONE: the copy of dispatcher `d` performed (13 R285); `hostData` is what a source outside the device's memory returned, none when a
completion reports an error; `confirmed`: every write outside it was performed, and its confirmation shows no error. -/
def execCopyUnitDone (d : Fin 4) (hostData : Option (List Byte)) (errs : List BurstErr) (s : State) (confirmed : Bool := true) : Res :=
  let c := kget s.disp d {}
  match c.queue with
  | none => ok s
  | some q =>
    let (s1, data, good) := s.copyRead (c.space % 2) c.src hostData errs (cut256 (c.len / 256 + 2) c.src c.len)
    let o := s1.copyData c data
    let (s2, wrote) := o.1.copyWrite (c.space / 2 % 2) c.dst o.2 (cut256 (c.len / 256 + 2) c.dst c.len)
    let s3 := ({ s2 with disp := kput s2.disp d ({} : Disp) } : State).wr (F.FE_DISP_busy d) 0
    if good && (wrote == 0 || wrote == 1 && confirmed) then
      match (s3.queue q).busyPkt (fun p => p.type == 3) with
      | some k => ok (s3.completePkt q k)
      | none => ok s3
    else ok ((s3.confirmed (wrote != 1 || confirmed)).feCause q 0x88)

/-- The outcome of a packet's own fence or record write (13 R281). -/
def State.ownWrite (s : State) (q k space addr : Nat) (data : List Byte) : State :=
  match s.hubWrite space addr data with
  | (s1, 0) => s1.completePkt q k
  | (s1, 1) => s1.setQueue q { (s1.queue q) with confirm := (s1.queue q).confirm ++ [0] }
  | (s1, _) => s1.writeFault q

/-- FENCE_SIGNAL (13 R281). -/
def execFenceSignal (q : Fin 32768) (s : State) : Res :=
  ok (s.start q (· == 4) (fun a k p => a.ownWrite q k (le p.bytes 8 1) (le p.bytes 16 8) (sub p.bytes 24 8)))

/-- One read of a waited fence (13 R273, R280). -/
def State.fenceRead (s : State) (q k : Nat) (p : Pkt) (hostValue : Option Dword) (errs : List BurstErr) : State :=
  match s.hubRead (le p.bytes 8 1 % 2) (le p.bytes 16 8) 8 (hostValue.map (fun v => leBytes 8 v.toNat)) errs with
  | (s1, none) => s1.feCause q 0x83
  | (s1, some b) =>
    let v := leNat b
    if 2 ^ 63 ≤ v ∧ le p.bytes 8 1 / 2 = 1 then s1.feCause q 0x85
    else if le p.bytes 24 8 ≤ v % 2 ^ 63 then s1.completePkt q k
    else if p.stage = 1 then s1
    else s1.waitPkt q k p

/-- FENCE_WAIT: the first read (13 R280). -/
def execFenceWait (q : Fin 32768) (hostValue : Option Dword) (errs : List BurstErr) (s : State) : Res :=
  ok (s.start q (· == 5) (fun a k p => a.fenceRead q k p hostValue errs))

/-- The place of the `n`-th packet, from 0, that satisfies a test. -/
def nthIdx (f : Pkt → Bool) : List Pkt → Nat → Option Nat
  | [], _ => none
  | p :: l, n => if f p then (if n = 0 then some 0 else (nthIdx f l (n - 1)).map (· + 1)) else (nthIdx f l n).map (· + 1)

/-- FENCE_POLL: a later read by one of the queue's waiting FENCE_WAITs, the `n`-th from the oldest (13 R280; log 23). -/
def execFencePoll (q : Fin 32768) (hostValue : Option Dword) (errs : List BurstErr) (s : State) (n : Nat := 0) : Res :=
  if s.feReady then
    match nthIdx (fun p => p.started && !p.done && p.type == 5 && p.stage == 1) (s.queue q).pkts n with
    | some k => ok ((s.fenceRead q k ((s.queue q).pkts.getD k { bytes := [] }) hostValue errs).settle q)
    | none => ok s
  else ok s

/-- TICK_WAIT (13 R282). -/
def execTickWait (q : Fin 32768) (s : State) : Res :=
  ok (s.start q (· == 6) (fun a k p => if le p.bytes 16 8 ≤ a.tn then a.completePkt q k else a.waitPkt q k p))

/-- TICK_WAIT_EXPIRY: a waited tick number has come (13 R282, R288). -/
def execTickWaitExpiry (q : Fin 32768) (s : State) : Res :=
  if s.stopped then ok s
  else
    match (s.queue q).busyPkt (fun p => p.type == 6 && p.stage == 1 && le p.bytes 16 8 ≤ s.tn) with
    | some k => ok (s.completePkt q k)
    | none => ok s

/-- SNAPSHOT_CUT as a packet (13 R283): an action entered through the CPC's bank. -/
def execSnapshotCutPacket (q : Fin 32768) (s : State) : Res :=
  ok (s.start q (· == 7) (fun a k p =>
    let e := a.enterAct (le p.bytes 16 8) 2 (le p.bytes 24 4) 1
    let s1 := e.1.actResult 1 e.2.1 (if e.2.1 = 0 then some e.2.2 else none)
    if e.2.1 = 0 then s1.setQueue q ((s1.queue q).setPkt k { p with stage := 1, left := e.2.2 }) else s1.feCause q 0x89))

/-- The SNAPSHOT_CUT packet that entered an action slot: it completes when the action fires, and its queue is GUILTY when the action
is dropped (13 R283). -/
def State.cutEnds (s : State) (slot : Nat) (fired : Bool) : State :=
  match s.queues.find? (fun e => e.2.pkts.any (fun p => p.type == 7 && p.started && !p.done && p.stage == 1 && p.left == slot)) with
  | none => s
  | some (q, x) =>
    match x.busyPkt (fun p => p.type == 7 && p.stage == 1 && p.left == slot) with
    | none => s
    | some k => if fired then s.completePkt q k else s.feCause q 0x89

/-- TIMESTAMP (13 R284). -/
def execTimestamp (q : Fin 32768) (s : State) : Res :=
  ok (s.start q (· == 8) (fun a k p =>
    a.ownWrite q k (le p.bytes 8 1) (le p.bytes 16 8) (leBytes 8 a.tn ++ leBytes 4 (a.sinceEdge * 5 / 12) ++ leBytes 4 0)))

/-- JUMP: its buffer is fetched next (13 R286). -/
def execJump (q : Fin 32768) (s : State) : Res :=
  ok (s.start q (· == 9) (fun a _ p =>
    a.setQueue q { a.queue q with jump := some (le p.bytes 8 1, le p.bytes 16 8, le p.bytes 24 4) }))

/-- FENCE_WRITE_CONFIRM: the oldest fence or record write that waits is confirmed, or fails (13 R281, R291, R296). -/
def execFenceWriteConfirm (q : Fin 32768) (good : Bool) (s : State) : Res :=
  let x := s.queue q
  match x.confirm with
  | [] => ok s
  | c :: l =>
    let s1 := (s.setQueue q { x with confirm := l }).confirmed good
    if c = 4 then ok (if x.state = 2 then s1.guiltyEnd q else s1)
    else if c = 5 then ok (if x.state = 5 then s1.destroyFenced q else s1)
    else if c = 6 then ok s1
    else if good = false then ok (s1.writeFault q)
    else if c = 0 then
      match x.busyPkt (fun p => p.type == 4 || p.type == 8) with
      | some k => ok (s1.completePkt q k)
      | none => ok s1
    else ok (if c = 1 then s1.qMsix q else s1)

/-- QUEUE_TIMEOUT: the running timer has passed timeout_ms (13 R287). -/
def execQueueTimeout (q : Fin 32768) (s : State) : Res := ok (if s.timerRuns q then s.feCause q 0x80 else s)

/-! Bays. -/

/-- Whether a tile has met R182: HALTED, its engines done, every remote write acknowledged. -/
def Tile.mayFinish (x : Tile) : Bool :=
  x.state == 2 && x.idleEngines && x.stores.all (fun e => e.signal || e.own) && x.fails.isEmpty && x.dRun.isEmpty && x.reqs.isEmpty

/-- TILE_FINISH (08 R182): the tile is IDLE and reports; with the last present tile the LAUNCH completes and the bay is released. -/
def execTileFinish (t : Fin 1200) (s : State) : Res :=
  let x := s.tile t
  match s.bayOf t with
  | none => ok s
  | some b =>
    if x.mayFinish && !s.stopped then
      let s1 := (s.setTile t (x.wr F.TILE_S_STATUS_state 0)).sends (.tileFinished t)
      let fin := (s.bay b).finished ++ [t.val]
      let s2 := s1.setBay b { s.bay b with finished := fin }
      if (s.bayTiles b).all (fun u => fin.contains u) then
        match (s.bay b).holder with
        | none => ok (s2.releaseBay b)
        | some q =>
          match (s2.queue q).busyPkt (fun p => p.type == 2 && p.stage == 2 && p.bay == some b) with
          | some k => ok ((s2.completePkt q k).releaseBay b)
          | none => ok (s2.releaseBay b)
      else ok s2
    else ok s

/-- BAY_ABORT (08 R185): the hub receives tile `t`'s abort; the first of its bay goes to every tile and to the front end, and a cause that the hub meets
after its own abort of the bay goes to the queue's record (13 R290, R298). -/
def execBayAbort (t : Fin 1200) (s : State) : Res :=
  let x := s.tile t
  match s.bayOf t with
  | none => ok s
  | some b =>
    let cause := x.rd F.TILE_S_ABORT_cause
    if x.aborting && cause < 0x40 then
      let s0 := s.control (s.tileNode t) .hub 2 t
      if (s.bay b).aborted then ok (s0.bayCause b cause t)
      else
      let h := (s.bay b).holder
      let s1 := s0.hubAbort b 0x40 t
      match h with
      | some q => ok (s1.markGuilty q cause t)
      | none => ok s1
    else ok s

/-- TILE_QUIESCENT (08 R184, 20 R422): M, V and S stopped and D quiescent; the rings freeze; the hub learns of it. -/
def execTileQuiescent (t : Fin 1200) (s : State) : Res :=
  let x := s.tile t
  if x.state = 3 ∧ x.rd F.TILE_D_STATUS_quiescent = 1 then
    let y := (x.wr F.TILE_S_STATUS_state 4).onRings (fun z e => z.freeze s.tn s.sinceEdge e 2)
    let s1 := ((s.setTile t y).sends (.tileQuiescent t)).control (s.tileNode t) .hub 3 t
    match (s.bayOf t).bind (fun b => (s.bay b).holder) with
    | some q => ok (if (s1.queue q).state = 4 then s1.destroyStep q else s1)
    | none => ok s1
  else ok s

/-- BAY_RELEASE: every present tile of an aborted bay is QUIESCENT, or had no task (08 R185; log 24). -/
def execBayRelease (b : Fin 64) (s : State) : Res :=
  if (s.bay b).aborted ∧ (s.bay b).resetAt = none ∧ (s.bayTiles b).all (fun t => (s.tile t).state == 0 || (s.tile t).state == 4) = true then
    ok (s.releaseBay b)
  else ok s

/-- BAY_RESET: 200 µs without release (13 R297). `queue`: the queue whose destroy holds no bay, for which the 200 µs have passed (R296). -/
def execBayReset (b : Fin 64) (s : State) (queue : Option (Fin 32768) := none) : Res :=
  match queue with
  | some q => ok (s.destroyForce q)
  | none =>
  let x := s.bay b
  match x.holder with
  | none => ok s
  | some q =>
    if x.aborted ∧ x.resetAt = none ∧ s.stopped = false then
      let s1 := s.forEach (s.bayTiles b) (fun a t => a.setTile t (a.tile t).hubReset)
      let s2 := (((s1.setBay b { x with resetAt := some s.time }).wr (F.FE_BAY_reset_escalated b) 1).bump F.FE_COUNTS_bay_resets).logs
        .BAY_RESET [b]
      ok (if 3 ≤ (s2.queue q).state then (s2.setQueue q ((s2.queue q).wr F.FE_Q_DESTROY_escalated 1)).destroyStep q else s2)
    else ok s

/-- BAY_RESET_END: the tiles leave reset and the hub releases the bay (13 R297); a destroy that still waits for its fence closes. -/
def execBayResetEnd (b : Fin 64) (s : State) : Res :=
  ok (if (s.bay b).resetAt.isSome then
      (match (s.bay b).holder with
       | some q => (s.releaseBay b).destroyForce q
       | none => s.releaseBay b)
    else s)

/-! Queue operations (13 R292, R296, R299). -/

/-- FE_Q_CFG and FE_Q_BASE are valid. -/
def Queue.cfgOk (x : Queue) : Bool :=
  12 ≤ x.rd F.FE_Q_CFG_log2_size && x.rd F.FE_Q_CFG_log2_size ≤ 24 && 1 ≤ x.rd F.FE_Q_CFG_timeout_ms &&
  x.rd F.FE_Q_CFG_timeout_ms ≤ 3600000 && x.base % 2 ^ x.rd F.FE_Q_CFG_log2_size == 0

/-- CREATE. -/
def State.create (s : State) (q : Nat) : State :=
  let x := s.queue q
  if x.state ≠ 0 then s.logs .FE_Q_BUSY [q]
  else if !x.cfgOk then s.logs .FE_Q_BADCFG [q]
  else
    let r := rput (rput (rput x.regs 0x18 0) 0x30 0x7FF00) 0x38 0
    let y : Queue := { regs := r }
    ((s.setQueue q (y.wrs [(F.FE_Q_STATE_destroyed, 0), (F.FE_Q_STATE_reset_done, 0)])).qState q 1).partitionCheck q

/-- DESTROY. -/
def State.destroy (s : State) (q : Nat) : State :=
  let x := s.queue q
  if x.state = 1 ∨ x.state = 2 then
    let s1 := (s.qState q 3).cancelWork q
    (s1.setQueue q { s1.queue q with seqAt := s.time, seqStep := 0 }).destroyStep q
  else s.logs .FE_Q_BUSY [q]

/-- RESUME. -/
def State.resume (s : State) (q : Nat) : State :=
  let x := s.queue q
  if x.state = 2 ∧ x.rd F.FE_Q_STATE_reset_done = 1 then
    let y := ({ x with regs := rput x.regs 0x30 0x7FF00 } : Queue).retire ((x.tail + 2 ^ 32 - x.head) % 2 ^ 32)
    let s1 := s.setQueue q (({ y with pkts := [], fetchedTo := x.tail, seqStep := 0 } : Queue).wr F.FE_Q_STATE_reset_done 0)
    (s1.qState q 1).partitionCheck q
  else s.logs .FE_Q_BUSY [q]

/-- FE_Q_CTRL op CREATE. -/
def execCreate (m : Master) (q : Fin 32768) (s : State) : Res := ok (s.guarded m (queueOff q 0x28) (fun a => a.create q))
/-- FE_Q_CTRL op DESTROY. -/
def execDestroy (m : Master) (q : Fin 32768) (s : State) : Res := ok (s.guarded m (queueOff q 0x28) (fun a => a.destroy q))
/-- FE_Q_CTRL op RESUME. -/
def execResume (m : Master) (q : Fin 32768) (s : State) : Res := ok (s.guarded m (queueOff q 0x28) (fun a => a.resume q))
/-- FE_CTRL.clear_counts. -/
def execFeClearCounts (m : Master) (s : State) : Res :=
  ok (s.guarded m 0x800010 (fun a => a.wrs [(F.FE_COUNTS_guilty_events, 0), (F.FE_COUNTS_bay_resets, 0)]))

end Sys2Proof.Machine
end

