-- ==== Sys2Proof/Machine/Flags.lean ====
section
/-! DEFINITION. The five sticky flags of 05 R109, as bits in the order of TILE_NUM_FLAGS: every flag computation of the device ends here. -/

namespace Sys2Proof.Machine

/-- A set of sticky flags: bit 0 invalid, 1 saturate, 2 overflow, 3 underflow, 4 nan_in. -/
abbrev Flags := Nat

def fInvalid : Flags := 1
def fSaturate : Flags := 2
def fOverflow : Flags := 4
def fUnderflow : Flags := 8
def fNanIn : Flags := 16

/-- The flag `f` when `b` holds. -/
def flagIf (b : Bool) (f : Flags) : Flags := if b then f else 0

/-- The union of a list of flag sets. -/
def flagsOf (l : List Flags) : Flags := l.foldl (· ||| ·) 0

/-- A result with the flags that making it set. -/
structure Res1 (α : Type) where
  val   : α
  flags : Flags
  deriving DecidableEq, Repr

/-- The values and the union of the flags of a list of results. -/
def collect {α : Type} (l : List (Res1 α)) : Res1 (List α) := ⟨l.map (·.val), flagsOf (l.map (·.flags))⟩

end Sys2Proof.Machine
end

