-- ==== Sys2Proof/Machine/Operands.lean ====
section
/-! DEFINITION. The number formats (05): every operand form is read as an exact value, computed on without rounding, and rounded once to
its destination (R96). -/

namespace Sys2Proof.Machine

/-- The formats that hold one number in a word (05 R86, R89, R90). -/
inductive Fmt where
  | h16 | s32 | x40
  deriving DecidableEq, Repr

/-- Width in bits, fraction bits, and the exponent of the smallest positive value. -/
def Fmt.width : Fmt → Nat
  | .h16 => 16 | .s32 => 32 | .x40 => 40
def Fmt.frac : Fmt → Nat
  | .h16 => 10 | .s32 => 23 | .x40 => 31
def Fmt.low : Fmt → Int
  | .h16 => -24 | .s32 => -149 | .x40 => -157
/-- Bytes of a value in memory (00 R4, 05 R90). -/
def Fmt.bytes (f : Fmt) : Nat := f.width / 8
/-- The code of +∞ and of NaN; H16 has no infinity, and its largest finite code stands there (05 R86, R88). -/
def Fmt.inf : Fmt → Nat
  | .h16 => 0x7FFF | .s32 => 0x7F800000 | .x40 => 0x7F80000000
def Fmt.nan : Fmt → Nat
  | .h16 => 0x8000 | .s32 => 0x7FC00000 | .x40 => 0x7FC0000000
/-- The format of a command's fmt field: 0 X40, 1 S32, 2 H16 (06 R140). -/
def Fmt.ofCode (c : Nat) : Fmt := if c = 0 then .x40 else if c = 1 then .s32 else .h16

/-- An exact value: NaN, an infinity, or (−1)^neg × m × 2^e. A zero keeps its sign. -/
inductive Val where
  | nan
  | inf (neg : Bool)
  | num (neg : Bool) (m : Nat) (e : Int)
  deriving DecidableEq, Repr

def Val.isNan : Val → Bool
  | .nan => true | _ => false
def Val.isInf : Val → Bool
  | .inf _ => true | _ => false
def Val.isNum : Val → Bool
  | .num _ _ _ => true | _ => false
def Val.isZero : Val → Bool
  | .num _ m _ => m == 0 | _ => false
def Val.neg? : Val → Bool
  | .nan => false | .inf n => n | .num n _ _ => n
/-- +0. -/
def Val.zero : Val := .num false 0 0
/-- The value with the other sign. -/
def Val.minus : Val → Val
  | .nan => .nan | .inf n => .inf (!n) | .num n m e => .num (!n) m e
/-- The magnitude. -/
def Val.abs : Val → Val
  | .nan => .nan | .inf _ => .inf false | .num _ m e => .num false m e
/-- The value times 2^k. -/
def Val.scale (v : Val) (k : Int) : Val :=
  match v with
  | .num n m e => .num n m (e + k)
  | v => v

/-- A word of a format read as a value (05 R86, R89, R90): every code has one meaning. -/
def Val.decode (f : Fmt) (w : Nat) : Val :=
  let s := decide (2 ^ (f.width - 1) ≤ w % 2 ^ f.width)
  let c := w % 2 ^ (f.width - 1)
  let e := c >>> f.frac
  let m := c % 2 ^ f.frac
  match f with
  | .h16 => if s && c == 0 then .nan else if e = 0 then .num s m f.low else .num s (2 ^ f.frac + m) (f.low + ((e - 1 : Nat) : Int))
  | _ =>
    if e = 255 then (if m = 0 then .inf s else .nan)
    else if e = 0 then .num s m f.low
    else .num s (2 ^ f.frac + m) (f.low + ((e - 1 : Nat) : Int))

/-- The word with a sign and a code. -/
def Fmt.word (f : Fmt) (neg : Bool) (c : Nat) : Nat := c + b2n neg * 2 ^ (f.width - 1)

/-- m × 2^e in units of 2^u: quotient, and the part below as (remainder, divisor). -/
def split (m : Nat) (e u : Int) : Nat × Nat × Nat :=
  if u ≤ e then (m <<< (e - u).toNat, 0, 1)
  else
    let k := (u - e).toNat
    (m >>> k, m % 2 ^ k, 2 ^ k)

/-- The exponent of the unit of the last place of m × 2^e in a format with an unbounded upper exponent (05 R98 ulp). -/
def Fmt.ulp (f : Fmt) (m : Nat) (e : Int) : Int := max (e + (Nat.log2 m : Int) - f.frac) f.low

/-- q units of 2^u as a finished word (05 R88, R97, R98 finish): saturation or infinity beyond the largest finite value. `tiny`: the exact
value lies below the smallest normal one; `moved`: rounding changed it (R100). -/
def Fmt.finish (f : Fmt) (neg : Bool) (q : Nat) (u : Int) (tiny moved : Bool) : Res1 Nat :=
  let c := if q = 0 then 0 else (u - f.low).toNat * 2 ^ f.frac + q
  let under := flagIf (tiny && moved) fUnderflow
  match f with
  | .h16 =>
    if 0x7FFF < c then ⟨f.word neg 0x7FFF, fSaturate⟩
    else if c = 0 then ⟨0, under⟩
    else ⟨f.word neg c, under⟩
  | _ => if f.inf ≤ c then ⟨f.word neg f.inf, fOverflow⟩ else ⟨f.word neg c, under⟩

/-- Whether m × 2^e is not 0 and lies below the smallest normal magnitude (05 R100). -/
def Fmt.tiny (f : Fmt) (m : Nat) (e : Int) : Bool := m != 0 && decide (e + (Nat.log2 m : Int) < f.low + f.frac)

/-- An infinity in a format: ±131,008 and saturate in H16 (05 R95, R98 round_special). -/
def Fmt.infinite (f : Fmt) (neg : Bool) : Res1 Nat :=
  match f with
  | .h16 => ⟨f.word neg 0x7FFF, fSaturate⟩
  | _ => ⟨f.word neg f.inf, 0⟩

/-- Round-to-nearest-even (05 R97). A NaN is the format's NaN; its flag is the operation's. -/
def Fmt.rne (f : Fmt) : Val → Res1 Nat
  | .nan => ⟨f.nan, 0⟩
  | .inf n => f.infinite n
  | .num n m e =>
    if m = 0 then f.finish n 0 f.low false false
    else
      let u := f.ulp m e
      let (q, r, d) := split m e u
      f.finish n (if d < 2 * r ∨ (2 * r = d ∧ q % 2 = 1) then q + 1 else q) u (f.tiny m e) (r != 0)

/-- Stochastic rounding with draw `r` (05 R98). A result that rounds to 0 is +0. -/
def Fmt.sr (f : Fmt) (draw : Nat) : Val → Res1 Nat
  | .nan => ⟨f.nan, 0⟩
  | .inf n => f.infinite n
  | .num n m e =>
    if m = 0 then ⟨0, 0⟩
    else
      let u := f.ulp m e
      let (q, r, d) := split m e u
      let q' := if draw < r * 65536 / d then q + 1 else q
      f.finish (n && q' != 0) q' u (f.tiny m e) (r != 0)

/-- Truncation of a product towards zero to 34 significant bits (05 R103). -/
def Val.trunc34 : Val → Val
  | .num n m e => let k := Nat.log2 m - 33; .num n (m >>> k) (e + (k : Int))
  | v => v

/-! Exact arithmetic, with the flags of special operands (05 R108). -/

/-- A signed number in units of 2^u; u at or below its exponent. -/
def Val.units (u : Int) : Val → Int
  | .num n m e => let k : Int := (m <<< (e - u).toNat : Nat); if n then -k else k
  | _ => 0

/-- The value of an integer number of units; an exact zero is +0. -/
def Val.ofUnits (u k : Int) : Val := .num (decide (k < 0)) k.natAbs u

def Val.exp : Val → Int
  | .num _ _ e => e | _ => 0

/-- The exact sum of a list of terms: NaN of a NaN term, NaN of opposed infinities, otherwise the sum; a zero sum is −0 only when every
term is −0. -/
def Val.sum (l : List Val) : Res1 Val :=
  if l.any Val.isNan then ⟨.nan, fNanIn⟩
  else if l.any (fun v => v.isInf && v.neg?) && l.any (fun v => v.isInf && !v.neg?) then ⟨.nan, fInvalid⟩
  else
    match l.find? Val.isInf with
    | some v => ⟨v, 0⟩
    | none =>
      let u := l.foldl (fun a v => if v.isZero then a else min a v.exp) (match l.find? (fun v => !v.isZero) with | some v => v.exp | none => 0)
      let k := l.foldl (fun a v => if v.isZero then a else a + v.units u) (0 : Int)
      if k = 0 then ⟨.num (!l.isEmpty && l.all (fun v => v.isZero && v.neg?)) 0 0, 0⟩ else ⟨Val.ofUnits u k, 0⟩

/-- a + b. -/
def Val.add (a b : Val) : Res1 Val := Val.sum [a, b]
/-- a − b. -/
def Val.diff (a b : Val) : Res1 Val := Val.sum [a, b.minus]

/-- The exact product; 0 × ∞ is NaN (05 R108). -/
def Val.mul (a b : Val) : Res1 Val :=
  match a, b with
  | .nan, _ => ⟨.nan, fNanIn⟩
  | _, .nan => ⟨.nan, fNanIn⟩
  | .inf n, b => if b.isZero then ⟨.nan, fInvalid⟩ else ⟨.inf (n != b.neg?), 0⟩
  | a, .inf n => if a.isZero then ⟨.nan, fInvalid⟩ else ⟨.inf (n != a.neg?), 0⟩
  | .num n m e, .num n' m' e' => ⟨.num (n != n') (m * m') (e + e'), 0⟩

/-- Comparison of two values that are not NaN, the zeros equal: −1, 0 or 1. -/
def Val.cmp (a b : Val) : Int :=
  match a, b with
  | .inf n, .inf n' => if n = n' then 0 else if n then -1 else 1
  | .inf n, _ => if n then -1 else 1
  | _, .inf n => if n then 1 else -1
  | a, b =>
    let d := (Val.diff a b).val
    if d.isZero then 0 else if d.neg? then -1 else 1

/-- The larger or smaller of two values; of equal ones the second, but of zeros +0 as maximum and −0 as minimum; NaN with nan_in of a NaN
operand (05 R108). -/
def Val.maxMin (max : Bool) (a b : Val) : Res1 Val :=
  if a.isNan || b.isNan then ⟨.nan, fNanIn⟩
  else
    let c := a.cmp b
    if c = 0 then (if a.neg? = max then ⟨b, 0⟩ else ⟨a, 0⟩)
    else if (decide (0 < c)) = max then ⟨a, 0⟩ else ⟨b, 0⟩

/-! Conversions (05 R91, R105 to R107). -/

/-- The flag of a conversion's or an operation's NaN operand. -/
def nanIn (v : Val) : Flags := flagIf v.isNan fNanIn

/-- A word converted from one format to another; `draw` none for RNE. The same format is no conversion. -/
def convert (src dst : Fmt) (draw : Option Nat) (w : Nat) : Res1 Nat :=
  if src = dst then ⟨w, 0⟩
  else
    let v := Val.decode src w
    let r := match draw with
      | none => dst.rne v
      | some d => dst.sr d v
    ⟨r.val, r.flags ||| nanIn v⟩

/-- binary16 to H16 (05 R106). -/
def fromBinary16 (w : Nat) : Res1 Nat :=
  if w % 0x8000 < 0x7C00 then ⟨if w = 0x8000 then 0 else w, 0⟩
  else if w % 0x8000 = 0x7C00 then ⟨if w < 0x8000 then 0x7FFF else 0xFFFF, fSaturate⟩
  else ⟨0x8000, fNanIn⟩

/-- H16 to binary16 (05 R107). -/
def toBinary16 (w : Nat) : Res1 Nat :=
  if w = 0x8000 then ⟨0x7E00, fNanIn⟩
  else if w % 0x8000 < 0x7C00 then ⟨w, 0⟩
  else ⟨if w < 0x8000 then 0x7C00 else 0xFC00, fOverflow⟩

/-- Signed 32-bit integer to S32 (05 R105). -/
def fromInt32 (w : Nat) : Res1 Nat := Fmt.s32.rne (Val.ofUnits 0 (signed 32 w))

/-- S32 to a signed 32-bit integer, RNE, saturating (05 R105). -/
def toInt32 (w : Nat) : Res1 Nat :=
  let sat := fun (n : Bool) => (⟨if n then 0x80000000 else 0x7FFFFFFF, fSaturate⟩ : Res1 Nat)
  match Val.decode .s32 w with
  | .nan => ⟨0, fInvalid ||| fNanIn⟩
  | .inf n => sat n
  | .num n m e =>
    let (q, r, d) := split m e 0
    let k := if d < 2 * r ∨ (2 * r = d ∧ q % 2 = 1) then q + 1 else q
    if k < 2 ^ 31 then ⟨if n then (2 ^ 32 - k) % 2 ^ 32 else k, 0⟩
    else if n && k == 2 ^ 31 then ⟨2 ^ 31, 0⟩
    else sat n

/-! The vault format (05 R92 to R95). -/

/-- The side flags of a vault: bit 0 pos_inf, 1 neg_inf, 2 nan. -/
abbrev Side := BitVec 3

/-- A vault that is NaN (05 R93). -/
def sideNan (f : Side) : Bool := f.getLsbD 2 || (f.getLsbD 0 && f.getLsbD 1)

/-- The value of a 320-bit integer and its side flags. -/
def vaultVal (v : BitVec 320) (f : Side) : Val :=
  if sideNan f then .nan else if f.getLsbD 0 then .inf false else if f.getLsbD 1 then .inf true else Val.ofUnits (-160) v.toInt

/-- −2³¹⁸ ≤ integer < 2³¹⁸: in range (05 R92). -/
def vaultInRange (k : Int) : Bool := decide (-(2 ^ 318) ≤ k) && decide (k < 2 ^ 318)

/-- A term added to a vault (05 R93, R109): the integer, the side flags, the sticky flags, and whether the sum left the range. -/
def vaultAdd (v : BitVec 320) (f : Side) (t : Val) : (BitVec 320 × Side) × Flags × Bool :=
  match t with
  | .nan => ((v, f ||| 4#3), fNanIn, false)
  | .inf n =>
    let g := f ||| (if n then 2#3 else 1#3)
    ((v, g), flagIf (g.getLsbD 0 && g.getLsbD 1 && !(f.getLsbD 0 && f.getLsbD 1)) fInvalid, false)
  | t =>
    let k := v.toInt + t.units (-160)
    if vaultInRange k then ((BitVec.ofInt 320 k, f), 0, false)
    else ((v, f ||| 4#3), flagIf (!sideNan f) fInvalid, true)

/-- The raw export of a vault (05 R94). -/
def vaultExport (v : BitVec 320) (f : Side) : BitVec 320 :=
  if f = 0 then v
  else BitVec.ofNat 320 (2 ^ 319 + (if sideNan f then 3 else if f.getLsbD 0 then 1 else 2))

/-- A raw pattern imported (05 R94): the integer and side flags, and the flags set. -/
def vaultImport (w : BitVec 320) : (BitVec 320 × Side) × Flags :=
  if w = BitVec.ofNat 320 (2 ^ 319 + 1) then ((0, 1#3), 0)
  else if w = BitVec.ofNat 320 (2 ^ 319 + 2) then ((0, 2#3), 0)
  else if w = BitVec.ofNat 320 (2 ^ 319 + 3) then ((0, 4#3), 0)
  else if w.getMsbD 0 == w.getMsbD 1 then ((w, 0), 0)
  else ((0, 4#3), fInvalid)

/-- A vault read out with one rounding (05 R95). -/
def vaultRead (f : Fmt) (v : BitVec 320) (g : Side) : Res1 Nat := f.rne (vaultVal v g)

/-! Elements in memory. -/

/-- The words of `n` consecutive elements of a format in a byte string. -/
def elems (f : Fmt) : Nat → List Byte → List Nat
  | 0, _ => []
  | n + 1, b => leNat (b.take f.bytes) :: elems f n (b.drop f.bytes)

/-- The bytes of a list of words. -/
def elemBytes (f : Fmt) (l : List Nat) : List Byte := (l.map (leBytes f.bytes)).flatten

end Sys2Proof.Machine
end

