-- ==== Sys2Proof/Machine/Draw.lean ====
section
/-! DEFINITION. The random generator (07 R156 to R160), the three functions of 07 R150, softmax statistics (06 R130) and tensor digests
(20 R424 to R431). -/

namespace Sys2Proof.Machine

/-! The generator. -/

/-- The four words of the generator's state. -/
structure Mix where
  x0 : Word
  x1 : Word
  x2 : Word
  x3 : Word
  deriving DecidableEq, Repr

/-- One round, with the round's key words (07 R156). -/
def Mix.round (s : Mix) (k0 k1 : Word) : Mix :=
  let a0 := s.x0 + s.x1
  let a3 := (s.x3 ^^^ a0).rotateLeft 11
  let a2 := s.x2 + a3
  let a1 := (s.x1 ^^^ a2).rotateLeft 5
  let b0 := a0 + a1
  let b3 := (a3 ^^^ b0).rotateLeft 19
  let b2 := a2 + b3
  let b1 := (a1 ^^^ b2).rotateLeft 9
  ⟨b0 + k0, b1, b2 + k1, b3⟩

/-- `n` rounds. -/
def Mix.rounds : Nat → Mix → Word → Word → Mix
  | 0, s, _, _ => s
  | n + 1, s, k0, k1 => Mix.rounds n (s.round (k0 + 0x9E3779B9#32) (k1 + 0x9E3779B9#32)) (k0 + 0x9E3779B9#32) (k1 + 0x9E3779B9#32)

/-- draw(key, ctr): 128 bits (07 R156). -/
def draw (key ctr : Nat) : Nat :=
  let k0 := BitVec.ofNat 32 key
  let k1 := BitVec.ofNat 32 (key >>> 32)
  let s := Mix.rounds 10 ⟨BitVec.ofNat 32 ctr, BitVec.ofNat 32 (ctr >>> 32), k0, k1⟩ k0 k1
  s.x0.toNat + 2 ^ 32 * s.x1.toNat + 2 ^ 64 * s.x2.toNat + 2 ^ 96 * s.x3.toNat

/-- stream_draw (07 R158). -/
def streamDraw (key step tag group : Nat) : Nat :=
  draw (key ^^^ (step >>> 24)) ((step % 2 ^ 24) * 2 ^ 40 + (tag % 2 ^ 16) * 2 ^ 24 + group % 2 ^ 24)

/-- r of element j of a group (05 R99). -/
def drawBits (d j : Nat) : Nat := bitsOf d (16 * j) 16

/-! The functions. Each gives an exact value, or one that lies strictly between the same two neighbours of every format as the exact result,
so that rounding it rounds the exact result (07 R150). -/

/-- The integer square root, from bit `n` down. -/
def isqrtFrom : Nat → Nat → Nat → Nat
  | 0, v, r => if (r + 1) * (r + 1) ≤ v then r + 1 else r
  | n + 1, v, r => isqrtFrom n v (if (r + 2 ^ (n + 1)) * (r + 2 ^ (n + 1)) ≤ v then r + 2 ^ (n + 1) else r)

/-- ⌊√v⌋. -/
def isqrt (v : Nat) : Nat := isqrtFrom (Nat.log2 v / 2 + 1) v 0

/-- 1 / √(m × 2^e), m ≠ 0. -/
def rsqrtVal (m : Nat) (e : Int) : Val :=
  let m' := if e % 2 = 0 then m else 2 * m
  let h := (if e % 2 = 0 then e else e - 1) / 2
  let k : Nat := 64
  let q := isqrt (2 ^ (2 * k) / m')
  if q * q * m' = 2 ^ (2 * k) then .num false q (-(k : Int) - h) else .num false (2 * q + 1) (-(k : Int) - h - 1)

/-- The enclosed values of X40: an interval's inner ends round alike. -/
def sameX40 (neg : Bool) (lo hi : Nat) (u : Int) : Bool :=
  (Fmt.x40.rne (.num neg (2 * lo + 1) (u - 1))).val == (Fmt.x40.rne (.num neg (2 * hi - 1) (u - 1))).val

/-- The bits of log2 of z × 2^(−w), 1 ≤ z × 2^(−w) < 2, by squaring: `p` of them. -/
def logBits : Nat → Nat → Nat → Nat → Nat
  | 0, _, _, acc => acc
  | p + 1, w, z, acc =>
    let y := (z * z) >>> w
    if 2 ^ (w + 1) ≤ y then logBits p w (y / 2) (2 * acc + 1) else logBits p w y (2 * acc)

/-- log2 of m × 2^e to `p` bits: m not a power of two. -/
def logAt (p m : Nat) (e : Int) : Int × Int :=
  let l := Nat.log2 m
  let w := p + 34
  let f := logBits p w (m <<< (w - l)) 0
  let a : Int := (e + (l : Int)) * (2 ^ p : Nat) + (f : Nat)
  (a, a + 2)

/-- The first precision of a list at which an enclosure decides. -/
def decideAt (f : Nat → Bool × Nat × Nat × Int) : List Nat → Val
  | [] => .nan
  | [p] => let (n, lo, _, u) := f p; .num n (2 * lo + 1) (u - 1)
  | p :: l => let (n, lo, hi, u) := f p; if sameX40 n lo hi u then .num n (2 * lo + 1) (u - 1) else decideAt f l

/-- The precisions tried. -/
def precisions : List Nat := [80, 160, 320, 640]

/-- log2(m × 2^e), m ≠ 0. -/
def log2Val (m : Nat) (e : Int) : Val :=
  if m = 2 ^ Nat.log2 m then Val.ofUnits 0 (e + (Nat.log2 m : Int))
  else
    decideAt (fun p =>
      let (a, b) := logAt p m e
      if a < 0 then (true, (-b).natAbs, a.natAbs, -(p : Int)) else (false, a.natAbs, b.natAbs, -(p : Int))) precisions

/-- 2^f in units of 2^(−w), from below, for the bits of f = n × 2^(−b) that `p` roots reach: s the present root of 2. -/
def expBits : Nat → Nat → Nat → Nat → Nat → Nat → Nat
  | 0, _, _, _, _, acc => acc
  | p + 1, w, n, b, s, acc =>
    let r := isqrt (s <<< w)
    let hit := b != 0 && n.testBit (b - 1)
    expBits p w n (b - 1) r (if hit then (acc * r) >>> w else acc)

/-- 2^v for v = ±m × 2^e, v not an integer and |v| below 4,096. -/
def expFrac (neg : Bool) (m : Nat) (e : Int) : Val :=
  let b := (-e).toNat
  let k : Int := if neg then -(m : Nat) else (m : Nat)
  let fl := k / ((2 ^ b : Nat) : Int)
  let n := (k % ((2 ^ b : Nat) : Int)).toNat
  decideAt (fun p =>
    let w := p + 16
    let r := expBits p w n b (2 ^ (w + 1)) (2 ^ w)
    (false, r, r + 2 ^ 18, fl - (w : Int))) precisions

/-- 2^v of a finite value. Beyond ±4,096 the bound stands for it: no format reaches so far. -/
def exp2Val (v : Val) : Val :=
  match v with
  | .num neg m e =>
    if m = 0 then .num false 1 0
    else if 12 ≤ e + (Nat.log2 m : Int) then .num false 1 (if neg then -4096 else 4096)
    else
      let z := if 0 ≤ e then m <<< e.toNat else m >>> (-e).toNat
      if 0 ≤ e ∨ z <<< (-e).toNat = m then .num false 1 (if neg then -(z : Nat) else (z : Nat))
      else expFrac neg m e
  | v => v

/-- A function's finite result in a format (07 R150): to X40, then to the format; overflow, saturation and underflow are the
destination's. -/
def Fmt.finite (f : Fmt) (v : Val) : Res1 Nat :=
  let w := Val.decode .x40 (Fmt.x40.rne v).val
  let r := f.rne w
  let big := if w.isInf then (if f = .h16 then fSaturate else fOverflow) else r.flags &&& (fSaturate ||| fOverflow)
  let moved := (Val.decode f r.val).cmp v != 0
  ⟨r.val, big ||| flagIf (moved && (match v with | .num _ m e => f.tiny m e | _ => false)) fUnderflow⟩

/-- V.EXP2 of a value (07 R150, 05 R108). -/
def Fmt.exp2 (f : Fmt) : Val → Res1 Nat
  | .nan => ⟨f.nan, fNanIn⟩
  | .inf true => ⟨0, 0⟩
  | .inf false => f.infinite false
  | v => f.finite (exp2Val v)

/-- An infinite result of a finite operand: overflow, or saturate in H16 (05 R108). -/
def Fmt.pole (f : Fmt) (neg : Bool) : Res1 Nat := ⟨(f.infinite neg).val, if f = .h16 then fSaturate else fOverflow⟩

/-- V.LOG2. -/
def Fmt.log2 (f : Fmt) : Val → Res1 Nat
  | .nan => ⟨f.nan, fNanIn⟩
  | .inf n => if n then ⟨f.nan, fInvalid⟩ else f.infinite false
  | .num n m e => if m = 0 then f.pole true else if n then ⟨f.nan, fInvalid⟩ else f.finite (log2Val m e)

/-- V.RSQRT. -/
def Fmt.rsqrt (f : Fmt) : Val → Res1 Nat
  | .nan => ⟨f.nan, fNanIn⟩
  | .inf n => if n then ⟨f.nan, fInvalid⟩ else ⟨0, 0⟩
  | .num n m e => if m = 0 then f.pole false else if n then ⟨f.nan, fInvalid⟩ else f.finite (rsqrtVal m e)

/-! Sums in X40. -/

/-- An exact result rounded once to X40, with the flags of both. -/
def toX40 (r : Res1 Val) : Res1 Val :=
  let q := Fmt.x40.rne r.val
  ⟨Val.decode .x40 q.val, r.flags ||| q.flags⟩

/-- One level of tree_sum: neighbours added. -/
def treeLevel : List Val → Res1 (List Val)
  | a :: b :: l =>
    let r := toX40 (a.add b)
    let t := treeLevel l
    ⟨r.val :: t.val, r.flags ||| t.flags⟩
  | l => ⟨l, 0⟩

/-- tree_sum (06 R130) of 2^n values: neighbours first, then neighbours of the sums. -/
def treeSum : Nat → List Val → Res1 Val
  | 0, l => ⟨l.headD .zero, 0⟩
  | n + 1, l =>
    let r := treeLevel l
    let t := treeSum n r.val
    ⟨t.val, r.flags ||| t.flags⟩

/-- The largest or smallest of a list. -/
def extremeOf (max : Bool) : List Val → Res1 Val
  | [] => ⟨.nan, 0⟩
  | [a] => ⟨a, nanIn a⟩
  | a :: l =>
    let r := extremeOf max l
    let t := a.maxMin max r.val
    ⟨t.val, r.flags ||| t.flags⟩

/-- softstat (06 R130): the row's values, c, the previous pair, and whether it is merged. -/
def softstat (x : List Val) (c mp sp : Val) (merge : Bool) : Res1 (Val × Val) :=
  let m := extremeOf true x
  let mn := if merge then mp.maxMin true m.val else m
  let fl := m.flags ||| mn.flags
  let ex := fun (v : Val) =>
    let d := v.diff mn.val
    let p := toX40 ((fun (r : Res1 Val) => ⟨r.val, r.flags ||| d.flags⟩ : Res1 Val → Res1 Val) (d.val.mul c))
    let e := Fmt.x40.exp2 p.val
    (⟨Val.decode .x40 e.val, p.flags ||| e.flags⟩ : Res1 Val)
  match mn.val with
  | .nan => ⟨(.nan, .nan), fl⟩
  | .inf false => ⟨(mn.val, .nan), fl ||| (if merge && sp.isNan then fNanIn else fInvalid)⟩
  | .inf true => ⟨(mn.val, .zero), fl⟩
  | _ =>
    let v := collect (x.map ex)
    let t := treeSum 6 v.val
    if merge then
      let e := ex mp
      let p := sp.mul e.val
      let q := toX40 p
      let s := toX40 (t.val.add q.val)
      ⟨(mn.val, s.val), fl ||| v.flags ||| t.flags ||| e.flags ||| q.flags ||| s.flags⟩
    else ⟨(mn.val, t.val), fl ||| v.flags ||| t.flags⟩

/-! Digests (20). -/

/-- draw(w, x) summed over words from index x, modulo 2¹²⁸ (20 R428). -/
def digestSum : Nat → List Nat → Nat
  | _, [] => 0
  | x, w :: l => (draw w x + digestSum (x + 1) l) % 2 ^ 128

/-- The raw digest of a byte range (20 R431): words of 8 bytes from index x. -/
def rawDigest (x : Nat) (n : Nat) (b : List Byte) : Nat :=
  digestSum x ((List.range n).map (fun k => le b (8 * k) 8))

/-- Bytes of an element of a slot's format code: X40, S32, H16, raw. -/
def digBytes (fmt : Nat) : Nat := if fmt = 0 then 5 else if fmt = 1 then 4 else if fmt = 2 then 2 else 8

/-- The X40 word that widens an element exactly. -/
def widen (f : Fmt) (w : Nat) : Nat := (convert f .x40 none w).val

/-- Whether an element counts in sat (20 R427). -/
def isSat (f : Fmt) (w : Nat) : Bool :=
  match f with
  | .h16 => w % 0x8000 == 0x7FFF
  | _ => (Val.decode f w).isInf

/-- sum ÷ n, rounded once to X40 (20 R427): the quotient in units of 2^(−352), with a sticky bit below. -/
def meanOf (v : BitVec 320) (g : Side) (n : Nat) : Nat :=
  match vaultVal v g with
  | .num neg m _ =>
    if n = 0 then Fmt.x40.nan
    else
      let k := m <<< 192
      (Fmt.x40.rne (.num (neg && m != 0) (2 * (k / n) + (if k % n = 0 then 0 else 1)) (-353))).val
  | v => if n = 0 then Fmt.x40.nan else (Fmt.x40.rne v).val

end Sys2Proof.Machine
end

