-- ==== Sys2Proof/Machine/Digest.lean ====
section
/-! DEFINITION. Tensor digest slots (20 R424 to R430). -/

namespace Sys2Proof.Machine

/-- The format of a slot's elements; none for raw. -/
def digFmt (c : Nat) : Option Fmt := if c = 3 then none else some (Fmt.ofCode c)

/-- What a slot accumulates over its elements (20 R427). -/
structure DigAcc where
  nan : Nat
  sat : Nat
  min : Val
  max : Val
  sum : BitVec 320 × Side
  abs : BitVec 320 × Side
  deriving DecidableEq, Repr

/-- The extreme of the elements so far, NaN standing for none. -/
def extremeWith (big : Bool) (a v : Val) : Val := if a.isNan then v else (a.maxMin big v).val

/-- One element added. -/
def DigAcc.add (f : Fmt) (a : DigAcc) (w : Nat) : DigAcc :=
  let v := Val.decode f w
  if v.isNan then { a with nan := a.nan + 1 }
  else
    { nan := a.nan
      sat := if isSat f w then a.sat + 1 else a.sat
      min := extremeWith false a.min v
      max := extremeWith true a.max v
      sum := (vaultAdd a.sum.1 a.sum.2 v).1
      abs := (vaultAdd a.abs.1 a.abs.2 v.abs).1 }

/-- The 320-bit value that a slot's five registers from `off` hold. -/
def Tile.vault320 (x : Tile) (off : Nat) : BitVec 320 × Side := (vaultImport (BitVec.ofNat 320 (leNat (rgetBytes x.regs off 5)))).1

/-- The slot's present content. -/
def Tile.digAcc (x : Tile) (n : Nat) : DigAcc :=
  { nan := x.rd (F.TILE_DIG_NANSAT_nan n), sat := x.rd (F.TILE_DIG_NANSAT_sat n)
    min := Val.decode .x40 (x.rd (F.TILE_DIG_MIN_value n)), max := Val.decode .x40 (x.rd (F.TILE_DIG_MAX_value n))
    sum := x.vault320 (F.TILE_DIG_SUM_raw n).off, abs := x.vault320 (F.TILE_DIG_ABS_raw n).off }

/-- A slot's next indices claimed for `e` elements (20 R425): the first of them. -/
def Tile.claim (x : Tile) (n e : Nat) : Nat × Tile :=
  (x.rd (F.TILE_DIG_STATUS_next n), x.wr (F.TILE_DIG_STATUS_next n) (x.rd (F.TILE_DIG_STATUS_next n) + e))

/-- As a command that adds to the slot starts: its indices, and the slot is busy (20 R425, R430). -/
def Tile.digClaim (x : Tile) (n e : Nat) : Nat × Tile := ((x.claim n e).1, (x.claim n e).2.wr (F.TILE_DIG_STATUS_busy n) 1)

/-- The registers of a slot with its statistics. -/
def Tile.putAcc (x : Tile) (n : Nat) (a : DigAcc) : Tile :=
  let y := x.wrs [(F.TILE_DIG_NANSAT_nan n, min a.nan 0xFFFFFFFF), (F.TILE_DIG_NANSAT_sat n, min a.sat 0xFFFFFFFF),
    (F.TILE_DIG_MIN_value n, (Fmt.x40.rne a.min).val), (F.TILE_DIG_MAX_value n, (Fmt.x40.rne a.max).val)]
  let r := rputBytes y.regs (F.TILE_DIG_SUM_raw n).off (leBytes 40 (vaultExport a.sum.1 a.sum.2).toNat) 5
  { y with regs := rputBytes r (F.TILE_DIG_ABS_raw n).off (leBytes 40 (vaultExport a.abs.1 a.abs.2).toNat) 5 }

/-- Elements added to a slot from index `i` (20 R427, R428): count and digest, and unless the slot is raw the statistics. -/
def Tile.digAdd (x : Tile) (n i : Nat) (ws : List Nat) : Tile :=
  let d := (x.rd (F.TILE_DIG_LO_digest n) + 2 ^ 64 * x.rd (F.TILE_DIG_HI_digest n) + digestSum i ws) % 2 ^ 128
  let y := x.wrs [(F.TILE_DIG_COUNT_count n, x.rd (F.TILE_DIG_COUNT_count n) + ws.length), (F.TILE_DIG_LO_digest n, d % 2 ^ 64),
    (F.TILE_DIG_HI_digest n, d / 2 ^ 64)]
  match digFmt (x.rd (F.TILE_DIG_CFG_fmt n)) with
  | none => y
  | some f =>
    let a := ws.foldl (DigAcc.add f) (y.digAcc n)
    (y.wr (F.TILE_DIG_NANSAT_nan n) (min a.nan 0xFFFFFFFF)).putAcc n a

/-- The mean of a slot, which follows at the completion of a command that adds to it (20 R427); a raw slot has none. -/
def Tile.digMean (x : Tile) (n : Nat) : Tile :=
  if (digFmt (x.rd (F.TILE_DIG_CFG_fmt n))).isNone then x
  else
    let a := x.digAcc n
    x.wr (F.TILE_DIG_MEAN_value n) (meanOf a.sum.1 a.sum.2 (x.rd (F.TILE_DIG_COUNT_count n) - x.rd (F.TILE_DIG_NANSAT_nan n)))

/-- The elements of a byte string in a slot's format. -/
def Tile.digWords (x : Tile) (n : Nat) (b : List Byte) : List Nat :=
  let k := digBytes (x.rd (F.TILE_DIG_CFG_fmt n))
  (List.range (b.length / k)).map (fun i => le b (k * i) k)

end Sys2Proof.Machine
end

