-- ==== Sys2Proof/Machine/Reduce.lean ====
section
/-! DEFINITION. Chains and vault stations (09): the chain unit of a tile, the stations' banks, rounds and outputs, and the rows that arrive. -/

namespace Sys2Proof.Machine

/-- A packet from another device that this one drops: this device is FENCED, or the packet's src is recorded as fenced (15 R339, R340). -/
def State.shuns (s : State) (src : Nat) : Bool := src != s.devId && (s.fenced || s.grp.fenced.contains src)

/-! Chains. -/

/-- The chain of a number. -/
def Image.chain? (i : Image) (c : Nat) : Option ChainDef := i.chains.find? (·.id == c)

/-- The place of tile `t` among a chain's hops. -/
def ChainDef.place? (c : ChainDef) (t : Nat) : Option Nat := c.hops.findIdx? (fun h => h.kind == 0 && h.id == t)

/-- Whether the hop at place `k` adds its rows to incoming ones: every hop but a first one (09 R188). -/
def ChainDef.adds (_ : ChainDef) (k : Nat) : Bool := k != 0

/-- A chain that tile `t` may drain to (09 R189). -/
def State.chainOk (s : State) (t c : Nat) : Bool :=
  match s.image.chain? c with
  | none => false
  | some d => some d.bay == s.bayOf t && (d.place? t).isSome

/-- Whether `t` writes the chain's result itself: the last local hop of a chain with no exit hop (09 R191). -/
def State.chainEnds (s : State) (t c : Nat) : Bool :=
  match s.image.chain? c with
  | none => false
  | some d => (d.place? t).map (· + 1) == some d.hops.length

/-- The format of a chain result (TILE_RED_CHAIN.fmt). -/
def redFmt (w : Dword) : Fmt := let c := bits w 40 2; if c = 3 then .x40 else Fmt.ofCode c

/-- The end of a chain result in the scratchpad. -/
def redEnd (w : Dword) : Nat := bits w 0 16 * 64 + 63 * (bits w 16 16 * 64) + 64 * (redFmt w).bytes

/-- TILE_RED_STATUS follows the chain unit. -/
def Tile.showRed (x : Tile) : Tile :=
  let w := match x.drain with
    | none => [(F.TILE_RED_STATUS_hop_wait, 0)]
    | some d => [(F.TILE_RED_STATUS_hop_wait, 1), (F.TILE_RED_STATUS_wait_chain, d.chain)]
  x.wrs ((F.TILE_RED_STATUS_in_blocks, x.chainIn.length) :: (F.TILE_M_STATUS_drain_full, b2n (x.drain.isSome || !x.drainQ.isEmpty)) :: w)

/-- An incoming block's row, and whether the two adders differ on it. -/
def Tile.rowIn (x : Tile) (chain row : Nat) : Option (List (BitVec 40) × Bool) :=
  (x.chainIn.find? (·.1 == chain)).bind (fun b => kget? b.2 row)

/-- A row added to the running one, in X40 with one rounding each (09 R188). -/
def addRows (own inp : List (BitVec 40)) : Res1 (List (BitVec 40)) :=
  collect ((own.zip inp).map (fun p =>
    let r := (Val.decode .x40 p.2.toNat).add (Val.decode .x40 p.1.toNat)
    let q := Fmt.x40.rne r.val
    ⟨BitVec.ofNat 40 q.val, r.flags ||| q.flags⟩))

/-- A row of X40 values as bytes. -/
def rowBytes (l : List (BitVec 40)) : List Byte := elemBytes .x40 (l.map (·.toNat))

/-- A row set out over the mesh of this device, and not yet arrived (03 R63). -/
def State.flies (s : State) (o : Out) : State := { s.sends o with flying := s.flying ++ [o] }

/-- A running row leaves the hop (09 R188, R191, R192): to the next local hop, to the exit device, or into the own scratchpad. -/
def State.passRow (s : State) (t : Nat) (c : ChainDef) (k row : Nat) (dest : Dword) (v : List (BitVec 40)) : State :=
  match c.hops[k + 1]? with
  | some h =>
    let b := reducePacket s.devId (if h.kind = 0 then s.devId else h.id) 0 0 c.id 0 row (rowBytes v)
    let s1 := (s.countMesh t 320).carry (s.tileNode t) (if h.kind = 0 then s.tileNode h.id else .hub) 4 b 320
    if h.kind = 0 then s1.flies (.chainRow h.id c.id row v) else s1.sendPkt b
  | none =>
    if bits dest 47 1 = 0 then s
    else
      let f := redFmt dest
      let r := collect (v.map (fun w => convert .x40 f none w.toNat))
      let s1 := s.spadWrite t (bits dest 0 16 * 64 + row * (bits dest 16 16 * 64)) (elemBytes f r.val)
      let s2 := s1.setTile t ((s1.tile t).raise s1.tn false r.flags)
      if row = 63 then s2.signalLocal t 5 (bits dest 32 8) 1 else s2

/-- A CONTAINED failure of an adder or a bank, which the monitor stops itself (17 R367, R375): class 7 or 8. -/
def State.adderFault (s : State) (b cls origin : Nat) (r : Rec) : State :=
  (s.record { r with sev := 2, cls := cls, kind := 0x42 }).safetyStop b origin

/-- A row taken into its chain's block: a tile has four, and the block of a chain holds each row once. Any other is held back in the mesh
by credit (09 R190). -/
def Tile.placeRow (x : Tile) (chain row : Nat) (v : List (BitVec 40)) (mismatch : Bool) : Tile :=
  if (x.rowIn chain row).isSome || (4 ≤ x.chainIn.length && !(x.chainIn.any (·.1 == chain))) then
    { x with chainHeld := x.chainHeld ++ [(chain, row, v, mismatch)] }
  else if x.chainIn.any (·.1 == chain) then
    { x with chainIn := x.chainIn.map (fun b => if b.1 = chain then (b.1, kput b.2 row (v, mismatch)) else b) }
  else { x with chainIn := x.chainIn ++ [(chain, [(row, v, mismatch)])] }

/-- A place freed: the chain's block is gone, and the rows held back are offered again in their order (09 R190). -/
def Tile.freeBlock (x : Tile) (chain : Nat) : Tile :=
  x.chainHeld.foldl (fun y h => y.placeRow h.1 h.2.1 h.2.2.1 h.2.2.2)
    { x with drain := none, chainHeld := [], chainIn := x.chainIn.filter (·.1 != chain) }

/-- The rows of the waiting drain that may pass, in order; after row 63 the incoming block's place and the drain buffer are free
(09 R190). An addition on which the two adders differ stops the bay (R193). -/
def State.chainRun (s : State) (t : Nat) : Nat → State
  | 0 => s
  | f + 1 =>
    let x := s.tile t
    match x.drain with
    | none => s
    | some d =>
      match s.image.chain? d.chain, d.rows with
      | none, _ => s
      | some _, [] =>
        s.setTile t (x.freeBlock d.chain).showRed
      | some c, own :: rest =>
        let k := (c.place? t).getD 0
        let run := if c.adds k then (x.rowIn d.chain d.row).map (fun p => (addRows own p.1, p.2)) else some (⟨own, 0⟩, false)
        match run with
        | none => s.setTile t x.showRed
        | some (_, true) => (s.suspect (s.site t)).adderFault c.bay 7 t (s.recOfTile 2 7 0x42 t)
        | some (r, false) =>
          let y := ({ x with drain := some { d with rows := rest, row := d.row + 1 } } : Tile).raise s.tn false r.flags
          ((s.setTile t y).passRow t c k d.row d.dest r.val).chainRun t f

/-- A hop's incoming rows go on. -/
def State.chainGo (s : State) (t : Nat) : State := s.chainRun t 66

/-- A chain row at a hop of this device (09 R188, R190). `mismatch`: the two adders will differ on it (R193). -/
def State.chainRow (s : State) (t chain row : Nat) (v : List (BitVec 40)) (mismatch : Bool) : State :=
  let x := s.tile t
  match s.image.chain? chain with
  | none => s
  | some c =>
    match c.place? t with
    | none => s
    | some k =>
      if !c.adds k || x.aborting || v.length != 64 then s
      else (s.setTile t (x.placeRow chain row v mismatch).showRed).chainGo t

/-! Vault stations. -/

def State.vaultDef (s : State) (k : Nat) : VaultDef := s.image.vaults.getD k {}

/-- A station that tile `t` may drain to (09 R195). -/
def State.stationOk (s : State) (t k : Nat) : Bool := some (s.vaultDef k).bay == s.bayOf t

/-- Sticky flags of a station set (05 R109). -/
def State.stationFlags (s : State) (k fl : Nat) : State :=
  [(F.HUB_VST_STATUS_invalid k, 0), (F.HUB_VST_STATUS_saturate k, 1), (F.HUB_VST_STATUS_overflow k, 2), (F.HUB_VST_STATUS_underflow k, 3),
   (F.HUB_VST_STATUS_nan_in k, 4)].foldl (fun a p => if bitOf fl p.2 then a.wr p.1 1 else a) s

/-- VAULT_EXCESS (0x86) or VAULT_RANGE (0x87) raised: the sticky bit, the event, the queue that holds the bay (09 R202). -/
def State.stationRaise (s : State) (k cause : Nat) : State :=
  let s1 := if cause = 0x86 then (s.wr (F.HUB_VST_STATUS_excess k) 1).raised .VAULT_EXCESS [k]
    else (s.wr (F.HUB_VST_STATUS_range k) 1).raised .VAULT_RANGE [k]
  let b := (s.vaultDef k).bay
  match (s1.bay b).holder with
  | some q => s1.markGuilty q cause 0x7FF
  | none => s1.hubAbort b 0x41 0x7FF

/-- A raw value added to a raw value (09 R194). -/
def rawAdd (v : BitVec 320) (f : Side) (w : BitVec 320) : (BitVec 320 × Side) × Flags × Bool :=
  let i := vaultImport w
  let g := f ||| i.1.2
  let k := v.toInt + i.1.1.toInt
  let fl := i.2 ||| flagIf (i.1.2.getLsbD 2) fNanIn ||| flagIf (g.getLsbD 0 && g.getLsbD 1 && !(f.getLsbD 0 && f.getLsbD 1)) fInvalid
  if vaultInRange k then ((BitVec.ofInt 320 k, g), fl, false) else ((v, g ||| 4#3), fl ||| flagIf (!sideNan g) fInvalid, true)

/-- One value of a row added to its place in a bank: flags so far and whether the range was left. -/
def Vault.addAt (v : Vault) (key : Nat) (r : (BitVec 320 × Side) × Flags × Bool) (acc : Flags × Bool) : Vault × Flags × Bool :=
  ({ v with vals := kput v.vals key r.1.1, flags := kput v.flags key r.1.2 }, acc.1 ||| r.2.1, acc.2 || r.2.2)

/-- A row added to bank `b`. -/
def Vault.addRow (v : Vault) (b row : Nat) (r : RowVals) : Vault × Flags × Bool :=
  let key := fun j => b * 4096 + row * 64 + j
  match r with
  | .x40 l => ((List.range l.length).zip l).foldl
      (fun a p => a.1.addAt (key p.1) (vaultAdd (kget a.1.vals (key p.1) 0) (kget a.1.flags (key p.1) 0) (Val.decode .x40 p.2.toNat)) a.2) (v, 0, false)
  | .raw l => ((List.range l.length).zip l).foldl
      (fun a p => a.1.addAt (key p.1) (rawAdd (kget a.1.vals (key p.1) 0) (kget a.1.flags (key p.1) 0) p.2) a.2) (v, 0, false)

/-- Row `i` of bank `b` in a VAULTS readout format: 0 S32, 1 X40, 2 H16, 3 raw (09 R198). -/
def Vault.outRow (v : Vault) (b i readout : Nat) : Res1 (List Byte) :=
  let at_ := fun j => (kget v.vals (b * 4096 + i * 64 + j) 0, kget v.flags (b * 4096 + i * 64 + j) 0)
  let r := collect ((List.range 64).map (fun j =>
    let p := at_ j
    if readout = 3 then ⟨leBytes 40 (vaultExport p.1 p.2).toNat, 0⟩
    else
      let f := if readout = 0 then Fmt.s32 else if readout = 1 then .x40 else .h16
      let q := vaultRead f p.1 p.2
      ⟨leBytes f.bytes q.val, q.flags ||| flagIf (sideNan p.2) fNanIn⟩))
  ⟨r.val.flatten, r.flags⟩

/-- The packet's format code of a readout (15 R327). -/
def fmtOfReadout (r : Nat) : Nat := if r = 0 then 1 else if r = 1 then 0 else r

/-- Row `i` served to one subscriber over the mesh (10 R224), and once row 63 has landed its counter (09 R206); a row beyond the scratchpad
is dropped. The Bool: it was. -/
def State.subscribe (s : State) (k t i : Nat) (row : List Byte) : State × Bool :=
  let x := s.tile t
  let a := x.rd (F.TILE_RED_RX_addr k) * 64 + i * (x.rd (F.TILE_RED_RX_stride k) * 64)
  let s1 := (s.count (k / 8) row.length).carry (stationNode k) (s.tileNode t) 5 row row.length
  if spadSize < a + row.length then (s1, true)
  else
    let s2 := s1.spadWrite t a row
    (if i = 63 then (s2.carry (stationNode k) (s.tileNode t) 6 [] 0).signalRemote (stationNode k) t (x.rd (F.TILE_RED_RX_ctr k)) 1 else s2, false)

/-- Numbers in ascending order, each once. -/
def ascending (l : List Nat) : List Nat := (l.foldl (fun m d => kput m d ()) ([] : KMap Unit)).map (·.1)

/-- A row that station `k` sends to another device, by the hub (10 R224). -/
def State.stationRow (s : State) (k : Nat) (packet : List Byte) (n : Nat) : State :=
  ((s.count (k / 8) n).carry (stationNode k) .hub 5 packet n).sendPkt packet

/-- Row `i` of the output to the tiles of the bay that subscribe, ascending, and to the forwarders, ascending (09 R198). -/
def State.stationSendRow (s : State) (k round fmt : Nat) (tiles devs : List Nat) (i : Nat) (row : List Byte) : State × Bool :=
  let r := tiles.foldl (fun (acc : State × Bool) t => let q := acc.1.subscribe k t i row; (q.1, acc.2 || q.2)) (s, false)
  (devs.foldl (fun a d => a.stationRow k (reducePacket a.devId d 2 fmt k round i row) row.length) r.1, r.2)

/-- The output of the oldest round, row by row as it is read out. -/
def State.stationSend (s : State) (k round fmt : Nat) (rows : List (List Byte)) : State :=
  let tiles := (s.bayTiles (s.vaultDef k).bay).filter (fun t => (s.tile t).rd (F.TILE_RED_RX_enable k) == 1)
  let devs := ascending (kget (s.vault k).fwd (round % 2) [])
  let r := ((List.range rows.length).zip rows).foldl
    (fun (acc : State × Bool) p => let q := acc.1.stationSendRow k round fmt tiles devs p.1 p.2; (q.1, acc.2 || q.2)) (s, false)
  if r.2 then r.1.stationRaise k 0x86 else r.1

/-- The oldest round ends: its bank is empty, and the next round is the oldest. -/
def State.stationNext (s : State) (k : Nat) : State :=
  let v := s.vault k
  let o := s.rd (F.HUB_VST_STATUS_round k)
  let b := o % 2
  let gone := fun {α : Type} (m : KMap α) => m.filter (fun e => e.1 / 4096 != b)
  let s1 := s.setVault k { v with vals := gone v.vals, flags := gone v.flags, rows := kdel v.rows b, fwd := kdel v.fwd b, rets := [] }
  let n := kget v.rows (1 - b) 0
  s1.wrs [(F.HUB_VST_STATUS_round k, (o + 1) % 65536), (F.HUB_VST_STATUS_state k, if n = 0 then 0 else 1), (F.HUB_VST_ROWS_rows k, n),
    (F.HUB_VST_STATUS_forwarders k, (kget v.fwd (1 - b) []).length)]

/-- A station that fails (17 R376): marked until the next cold start, its bay stopped. -/
def State.stationFault (s : State) (k cls : Nat) : State :=
  let f := F.SAFE_STATION_FAILED_failed
  let s1 := s.wr f (if bitOf (s.rd f) k then s.rd f else s.rd f + 2 ^ k)
  let b := (s.vaultDef k).bay
  let q := ((s.bay b).holder).getD 0xFFFF
  s1.adderFault b cls 0x7FF { sev := 2, cls := cls, kind := 0x42, die := k / 8, bay := b, queue := q, unit := k }

/-- The forwarders of a round with one more; none when a thirty-third would join (09 R200). -/
def joinForwarder (l : List Nat) (src : Nat) : Option (List Nat) :=
  if l.contains src then some l else if 32 ≤ l.length then none else some (l ++ [src])

/-- Whether a row has 64 values. -/
def rowFull : RowVals → Bool
  | .x40 l => l.length == 64
  | .raw l => l.length == 64

/-- A row that a station takes into bank `b`: the bank's rows and forwarders, and what the registers show of the oldest round. -/
def State.placeRow (s : State) (k b : Nat) (oldest : Bool) (v : Vault) (fw : List Nat) : State :=
  let n := kget v.rows b 0 + 1
  let s1 := s.setVault k { v with rows := kput v.rows b n, fwd := if fw.isEmpty then v.fwd else kput v.fwd b fw }
  if oldest then
    s1.wrs [(F.HUB_VST_ROWS_rows k, n), (F.HUB_VST_STATUS_forwarders k, fw.length),
      (F.HUB_VST_STATUS_state k, if s.rd (F.HUB_VST_STATUS_state k) = 0 then 1 else s.rd (F.HUB_VST_STATUS_state k))]
  else s1

/-- What follows a row's additions: flags, a corrected read, VAULT_RANGE. -/
def State.rowTaken (s : State) (k fl : Nat) (out : Bool) (ecc : Ecc) : State :=
  let s1 := s.stationFlags k fl
  let s2 := if eccFixed ecc then s1.record { sev := 1, cls := 8, kind := 0, die := k / 8, bay := (s.vaultDef k).bay, unit := k } else s1
  if out then s2.stationRaise k 0x87 else s2

/-- A contribution row at station `k` (09 R194 to R197, R200, R201, R205), before the round's output. A row two rounds or more ahead is held
back by credit (R196). `ecc`: the reads of the bank that the row causes, its round's read-out among them. -/
def State.stationTake (s : State) (k src round row : Nat) (r : RowVals) (ecc : Ecc) (mismatch : Bool) : State :=
  let v := s.vault k
  let d := s.vaultDef k
  let o := s.rd (F.HUB_VST_STATUS_round k)
  let dist := (round + 65536 - o) % 65536
  if d.bay = 0xFF || !v.live then s.redDropped k round
  else if 2 ≤ dist && dist < 32768 then s.setVault k { v with held := v.held ++ [(src, round, row, r, ecc, mismatch)] }
  else if 32768 ≤ dist || 64 * d.contributors ≤ kget v.rows (round % 2) 0 then s.stationRaise k 0x86
  else if mismatch then s.stationFault k 7
  else if eccBad ecc then s.stationFault k 8
  else
    match (if src = s.devId then some (kget v.fwd (round % 2) []) else joinForwarder (kget v.fwd (round % 2) []) src) with
    | none => s.stationRaise k 0x86
    | some fw =>
      let a := v.addRow (round % 2) row r
      (s.placeRow k (round % 2) (decide (dist = 0)) a.1 fw).rowTaken k a.2.1 a.2.2 ecc

/-- The rows held back are offered again, in their order, once a round's output completes (09 R196). -/
def State.stationAdmit (s : State) (k : Nat) : State :=
  (s.vault k).held.foldl (fun a h => a.stationTake k h.1 h.2.1 h.2.2.1 h.2.2.2.1 h.2.2.2.2.1 h.2.2.2.2.2)
    (s.setVault k { s.vault k with held := [] })

/-- The rows a station still awaits make its oldest round incomplete; a complete one is output (09 R197 to R199): read out by the root,
exported and sent on by a forwarder. -/
def State.stationGo (s : State) (k : Nat) : Nat → State
  | 0 => s
  | f + 1 =>
    let v := s.vault k
    let d := s.vaultDef k
    let o := s.rd (F.HUB_VST_STATUS_round k)
    if !v.live || s.rd (F.HUB_VST_STATUS_state k) == 3 || kget v.rows (o % 2) 0 < 64 * d.contributors then s
    else
      let s0 := s.wr (F.HUB_VST_ROWS_tn_low k) s.tn
      let root := d.forwardTo == 0xFFFF
      let rows := (List.range 64).map (fun i => v.outRow (o % 2) i (if root then d.readout else 3))
      if root then
        let r := collect rows
        (((((s0.stationFlags k r.flags).stationSend k o (fmtOfReadout d.readout) r.val)).stationNext k).stationAdmit k).stationGo k f
      else
        (((List.range 64).zip rows).foldl (fun a p => a.stationRow k (reducePacket a.devId d.forwardTo 1 3 k o p.1 p.2.val) p.2.val.length) s0).wr
          (F.HUB_VST_STATUS_state k) 3

/-- Every round that the rows now complete is output. -/
def State.stationRun (s : State) (k : Nat) : State := s.stationGo k ((s.vault k).held.length + 3)

/-- A contribution row arrives at station `k`. -/
def State.vaultRow (s : State) (k src round row : Nat) (r : RowVals) (ecc : Ecc) (mismatch : Bool) : State :=
  (s.stationTake k src round row r ecc mismatch).stationRun k

/-- A returned row at a forwarder that waits for it (09 R199); after the last, the round's output. -/
def State.vaultReturn (s : State) (k src round row fmt : Nat) (data : List Byte) : State :=
  let v := s.vault k
  let d := s.vaultDef k
  if d.bay = 0xFF || !v.live then s.redDropped k round
  else if s.rd (F.HUB_VST_STATUS_state k) ≠ 3 || src ≠ d.forwardTo || round ≠ s.rd (F.HUB_VST_STATUS_round k) then s
  else
    let m := kput v.rets row data
    let s1 := s.setVault k { v with rets := m }
    if m.length < 64 then s1
    else ((((s1.wr (F.HUB_VST_STATUS_state k) 2).stationSend k round fmt (m.map (·.2))).stationNext k).stationAdmit k).stationRun k

/-! The rows of the table. -/

/-- Such a row has arrived. -/
def State.arrived (s : State) (o : Out) : State := { s with flying := s.flying.erase o }

/-- CHAIN_ROW (09 R188). -/
def execChainRow (t : Fin 1200) (chain : BitVec 10) (row : Fin 64) (vals : List (BitVec 40)) (mismatch : Bool) (s : State) : Res :=
  ok ((s.arrived (.chainRow t chain.toNat row vals)).chainRow t chain.toNat row vals mismatch)

/-- VAULT_ROW (09 R194). -/
def execVaultRow (st : Fin 64) (src : BitVec 16) (round : BitVec 16) (row : Fin 64) (vals : RowVals) (ecc : Ecc) (mismatch : Bool)
    (s : State) : Res :=
  ok (if rowFull vals then (s.arrived (.vaultRow st src.toNat round.toNat row vals)).vaultRow st src.toNat round.toNat row vals ecc mismatch else s)

/-- A packet row's X40 or raw values. -/
def dataVals (fmt : Nat) (b : List Byte) : RowVals :=
  if fmt = 3 then .raw ((List.range 64).map (fun j => BitVec.ofNat 320 (le b (40 * j) 40)))
  else .x40 ((elems .x40 64 b).map (BitVec.ofNat 40))

/-- REDUCE: a chain row, a vault contribution or a vault return from another device (09 R192, R199; 02 R31; 15 R339, R340). The first local
hop of a chain takes rows only from the device its entry hop names. A chain of which this device holds no local hop after its entry has no hop
that takes the row: it is dropped and logged too (DESIGN CHOICE, log 121). -/
def execReduce (src : BitVec 16) (kind fmt : Byte) (id : BitVec 16) (round : BitVec 16) (row : Byte) (data : List Byte) (s : State)
    (ecc : Ecc := .ok) (mismatch : Bool := false) : Res :=
  if s.shuns src.toNat then ok (s.bump F.HUB_GRP_COUNTS_fenced_drops)
  else if 63 < row.toNat then ok s
  else if kind = 0 then
    match s.image.chain? id.toNat with
    | none => ok (s.logs .CHAIN_MISMATCH [id.toNat, src.toNat])
    | some c =>
      match c.hops with
      | e :: h :: _ =>
        if e.kind = 1 ∧ e.id = src.toNat ∧ h.kind = 0 then
          ok ((s.carry .hub (s.tileNode h.id) 4 data data.length).chainRow h.id c.id row.toNat
            ((elems .x40 64 data).map (BitVec.ofNat 40)) mismatch)
        else ok (s.logs .CHAIN_MISMATCH [id.toNat, src.toNat])
      | _ => ok (s.logs .CHAIN_MISMATCH [id.toNat, src.toNat])
  else if 63 < id.toNat then ok s
  else if kind = 1 then
    ok ((s.carry .hub (stationNode id.toNat) 5 data data.length).vaultRow id.toNat src.toNat round.toNat row.toNat
      (dataVals fmt.toNat data) ecc mismatch)
  else if kind = 2 then ok ((s.carry .hub (stationNode id.toNat) 5 data data.length).vaultReturn id.toNat src.toNat round.toNat row.toNat fmt.toNat data)
  else ok s

end Sys2Proof.Machine
end

