-- ==== Sys2Proof/Machine/Grant.lean ====
section
/-! DEFINITION. The per-die budget of activations (18 R395): grants that refill with time, and the requests that wait. -/

namespace Sys2Proof.Machine

/-- The refill rate r of die `d`, per µs, and the most it holds. -/
def State.rate (s : State) (d : Nat) : Nat := s.rd (F.PWR_DIE_ramp d)

/-- The count of die `d` in parts of a grant, usCycles of them: r parts come each cycle, up to r grants; full after a start. -/
def State.grantParts (s : State) (d : Nat) : Nat :=
  min (s.rate d * usCycles) (kget s.pwr.grants d (s.rate d * usCycles) + (s.time - kget s.pwr.grantAt d 0) * s.rate d)

/-- The count of die `d` settled at the present time. -/
def State.settleGrants (s : State) (d n : Nat) : State :=
  { s with pwr := { s.pwr with grants := kput s.pwr.grants d n, grantAt := kput s.pwr.grantAt d s.time } }

/-- Whole grants free on die `d`. -/
def State.grantsFree (s : State) (d : Nat) : Nat := s.grantParts d / usCycles

/-- One grant taken; the part of a grant that has refilled stays. -/
def State.takeGrant (s : State) (d : Nat) : State := s.settleGrants d (s.grantParts d - usCycles)

/-- The requests that wait at die `d`, oldest first, as (kind, tile or site): 0 array-on, 1 site power-up, 2 self-test. -/
def State.waiters (s : State) (d : Nat) : List (Nat × Nat) := kget s.pwr.waiting d []
def State.setWaiters (s : State) (d : Nat) (l : List (Nat × Nat)) : State :=
  { s with pwr := { s.pwr with waiting := kput s.pwr.waiting d l } }

/-- A request made: granted in its cycle when nothing waits and a grant is free (06 R122), otherwise it waits. -/
def State.activate (s : State) (d kind x : Nat) : State × Bool :=
  if (s.waiters d).isEmpty && 0 < s.grantsFree d then (s.takeGrant d, true)
  else (s.setWaiters d (s.waiters d ++ [(kind, x)]), false)

/-- Self-test requests whose grant did not come within 8 µs of their slot are withdrawn; the bay's next slot takes those tiles first
(17 R371). A bay whose test so ends may be launched on (R373). -/
def State.withdraw (s : State) (d : Nat) : State :=
  let late := fun (w : Nat × Nat) => w.1 == 2 && (match s.bayOf w.2 with
    | some b => decide ((s.bay b).testAt + 8 * usCycles < s.time)
    | none => true)
  let gone := (s.waiters d).filter late
  ((s.setWaiters d ((s.waiters d).filter (fun w => !late w))).forEach (gone.map (·.2)) (fun a t =>
    match a.bayOf t with
    | some b => a.setBay b { a.bay b with untested := (a.bay b).untested ++ [t] }
    | none => a)).forEach ((gone.filterMap (fun w => s.bayOf w.2)).eraseDups) State.launchNext

/-- What a grant starts: the array of a tile (06 R122), a site's power (R394), a tile's self-test (17 R370). -/
def State.activated (s : State) (kind x : Nat) : State :=
  if kind = 0 then s.setTile x { (s.tile x).wr F.TILE_M_STATUS_array_on 1 with gateReq := false }
  else if kind = 1 then { s with pwr := { s.pwr with sites := s.pwr.sites ++ [x] } }
  else
    match s.bayOf x with
    | some b => s.setBay b { s.bay b with testing := (s.bay b).testing ++ [x] }
    | none => s

/-- POWER_GRANT: the oldest request that waits at die `d` takes a free grant (18 R395). -/
def execPowerGrant (d : Fin 8) (s : State) : Res :=
  let s1 := s.withdraw d
  match s1.waiters d with
  | [] => ok s1
  | (k, x) :: rest => if 0 < s1.grantsFree d then ok (((s1.takeGrant d).setWaiters d rest).activated k x) else ok s1

end Sys2Proof.Machine
end

