-- ==== Sys2Proof/Machine/Matrix.lean ====
section
/-! DEFINITION. The matrix array (06): its commands' start checks (R469), cells (05 R101 to R103), check row and column (R132 to R136), seeds and
drains. A command's effects are performed as it starts; its completion point is ENGINE_COMMAND_COMPLETE (log 29). -/

namespace Sys2Proof.Machine

/-! Faults and scratchpad errors. -/

/-- A fault of M with its code in TILE_M_STATUS (06 R139, 08 R183). -/
def State.mFault (s : State) (t code pc : Nat) (ecc : Option Nat := none) : State :=
  (s.twr t F.TILE_M_STATUS_fault code).tileFault t .m (0x10 + code) pc 0 ecc

/-- What a command's scratchpad reads met (17 R367): nothing, a corrected word, or the fault `bad` at the word's offset. -/
def State.withEcc (s : State) (t : Nat) (e : Ecc) (bad : Nat → State → State) (good : State → State) : State :=
  match e with
  | .ok => good s
  | .corrected w => good (s.spadCorrected t w)
  | .uncorrectable w => bad w s

/-- Bytes of tile `t`'s scratchpad read. -/
def State.spadBytes (s : State) (t a n : Nat) : List Byte := (s.tile t).spad.read a n

/-! Fields of a command (06 R140). -/

def Cmd.f1 (c : Cmd) (o : Nat) : Nat := le c.bytes o 1
def Cmd.f2 (c : Cmd) (o : Nat) : Nat := le c.bytes o 2
def Cmd.f4 (c : Cmd) (o : Nat) : Nat := le c.bytes o 4
def Cmd.f8 (c : Cmd) (o : Nat) : Nat := le c.bytes o 8
/-- Bytes from `o` to the end are 0. -/
def Cmd.zeroFrom (c : Cmd) (o : Nat) : Bool := allZero (c.bytes.drop o)

/-- Check 1 of 06 R469: the opcode, the header, every reserved field. The bits of xpose, scale_src and opts to which no meaning is given are
reserved (DEDUCED, log 30). -/
def mOpOk (c : Cmd) : Bool :=
  c.headOk && (
    if c.op = 0 then c.zeroFrom 16
    else if c.op = 1 then c.zeroFrom 17
    else if c.op = 2 then c.zeroFrom 22
    else if c.op = 3 then c.zeroFrom 34 && c.f1 26 < 4 && c.f1 29 < 4
    else if c.op = 4 then c.zeroFrom 52 && c.f1 20 < 16 && c.f1 43 == 0
    else false)

/-- The format of operands and of accumulators in a mode: 0 X40, 1 H16, 2 S32 (06 R113). -/
def opFmt (mode : Nat) : Fmt := if mode = 2 then .s32 else .h16
def accFmt (mode : Nat) : Fmt := if mode = 1 then .h16 else .x40

/-- The least stride of an operand in its layout (06 R114), in bytes. -/
def minStride (f : Fmt) (xpose : Bool) (k : Nat) : Nat := if xpose then k * f.bytes else 64 * f.bytes
/-- The end of an operand. -/
def operandEnd (f : Fmt) (xpose : Bool) (a st k : Nat) : Nat :=
  if xpose then a + 63 * st + k * f.bytes else a + (k - 1) * st + 64 * f.bytes
/-- The end of a block of 64 rows. -/
def blockEnd (f : Fmt) (a st : Nat) : Nat := a + 63 * st + 64 * f.bytes

/-- Whether the output is narrower than the accumulator (06 R125). -/
def narrows (mode : Nat) (f : Fmt) : Bool := mode != 1 && f != .x40

def Cmd.softstat (c : Cmd) : Bool := bitOf (c.f1 20) 0
def Cmd.merges (c : Cmd) : Bool := bitOf (c.f1 20) 0 && bitOf (c.f1 20) 1
def Cmd.mDigest (c : Cmd) : Bool := bitOf (c.f1 20) 2
def Cmd.xposeOut (c : Cmd) : Bool := bitOf (c.f1 20) 3
def Cmd.outFmt (c : Cmd) : Fmt := Fmt.ofCode (c.f1 17)
/-- The chain or the station that a reduction names. -/
def Cmd.unit (c : Cmd) : Nat := c.f2 24

/-- Check 2 of 06 R469. -/
def State.mCmdOk (s : State) (t : Nat) (c : Cmd) : Bool :=
  let x := s.tile t
  let mode := x.rd F.TILE_M_STATUS_mode
  if c.op = 1 then c.f1 16 ≤ 2
  else if c.op = 2 then c.f1 16 == 0 || (c.f1 16 == 1 && c.f1 17 ≤ 2 && (mode != 1 || c.f1 17 == 2))
  else if c.op = 3 then
    let f := opFmt mode
    let k := c.f2 24
    1 ≤ k && c.f1 26 != 3 && minStride f (bitOf (c.f1 26) 0) k ≤ c.f2 20 * 64 && minStride f (bitOf (c.f1 26) 1) k ≤ c.f2 22 * 64
  else if c.op = 4 then
    c.f1 16 ≤ 3 && c.f1 17 ≤ 2 && c.f1 19 ≤ 2 && (!narrows mode c.outFmt || c.f1 18 ≤ 1) &&
    (c.f1 19 != 2 || (c.f1 21 ≤ 2 && (mode != 1 || c.f1 21 == 2))) && (c.f1 16 != 1 || c.f1 22 ≤ 63) &&
    (c.f1 16 != 2 || (c.f1 17 == 0 && (if bitOf c.unit 15 then s.stationOk t (c.unit % 64) else s.chainOk t (c.unit % 1024)))) &&
    (!c.xposeOut || (c.f1 17 != 0 && c.f1 16 != 2)) &&
    (!c.mDigest || (c.f1 23 ≤ 15 && x.rd (F.TILE_DIG_CFG_fmt (c.f1 23)) == c.f1 17))
  else true

/-- Whether a drain ends in the tile's own chain result (09 R191). -/
def State.writesChain (s : State) (t : Nat) (c : Cmd) : Bool :=
  c.f1 16 == 2 && !bitOf c.unit 15 && s.chainEnds t (c.unit % 1024) && bits (rget (s.tile t).regs F.TILE_RED_CHAIN_addr.off) 47 1 == 1

/-- Check 3 of 06 R469 (R112, 09 R191). -/
def State.mAddrOk (s : State) (t : Nat) (c : Cmd) : Bool :=
  let x := s.tile t
  let f := opFmt (x.rd F.TILE_M_STATUS_mode)
  if c.op = 2 then c.f1 16 == 0 || blockEnd (Fmt.ofCode (c.f1 17)) (c.f2 18 * 64) (c.f2 20 * 64) ≤ spadSize
  else if c.op = 3 then
    let k := c.f2 24
    let n := (k - 1) / 64 + 1
    operandEnd f (bitOf (c.f1 26) 0) (c.f2 16 * 64) (c.f2 20 * 64) k ≤ spadSize &&
    operandEnd f (bitOf (c.f1 26) 1) (c.f2 18 * 64) (c.f2 22 * 64) k ≤ spadSize &&
    (!bitOf (c.f1 29) 0 || c.f2 30 * 64 + n ≤ spadSize) && (!bitOf (c.f1 29) 1 || c.f2 32 * 64 + n ≤ spadSize)
  else if c.op = 4 then
    (c.f1 16 != 0 || blockEnd c.outFmt (c.f2 24 * 64) (c.f2 32 * 64) ≤ spadSize) &&
    (c.f1 19 != 2 || blockEnd (Fmt.ofCode (c.f1 21)) (c.f2 34 * 64) (c.f2 36 * 64) ≤ spadSize) &&
    (!c.softstat || c.f2 50 * 64 + 1024 ≤ spadSize) && (!c.merges || c.f2 48 * 64 + 1024 ≤ spadSize) &&
    (!s.writesChain t c || redEnd (rget x.regs F.TILE_RED_CHAIN_addr.off) ≤ spadSize)
  else true

/-- The fault code of an M command at its start, 0 when it passes (06 R469). -/
def State.mCheck (s : State) (t : Nat) (c : Cmd) : Nat :=
  if !mOpOk c then 1
  else if !s.mCmdOk t c then 2
  else if !s.mAddrOk t c then 3
  else if (c.op == 3 || c.op == 4) && (s.tile t).rd F.TILE_M_STATUS_seeded == 0 then 4
  else 0

/-! The block. -/

/-- The accumulator of cell (i, j). -/
def Tile.cell (x : Tile) (i j : Nat) : Nat := (kget x.acc (64 * i + j) 0).toNat

/-- A block of words as the accumulators. -/
def blockMap (l : List Nat) : KMap (BitVec 40) :=
  (((List.range l.length).zip l).filter (fun p => p.2 != 0)).map (fun p => (p.1, BitVec.ofNat 40 p.2))

/-- Check cells as a map. -/
def chkMap (l : List Chk) : KMap Chk := ((List.range l.length).zip l).filter (fun p => p.2 != ({} : Chk))

/-- An exact sum rounded once to X40 (06 R132, R133). -/
def sumX40 (l : List Val) : Nat := (Fmt.x40.rne (Val.sum l).val).val

/-- A check cell of a list of seeds. -/
def seedChk (l : List Val) : Chk := ⟨BitVec.ofNat 40 (sumX40 l), BitVec.ofNat 40 (sumX40 (l.map Val.abs))⟩

/-- The list's rows of 64, and its columns. -/
def rowOf64 (l : List Val) (i : Nat) : List Val := (l.drop (64 * i)).take 64
def colOf64 (l : List Val) (j : Nat) : List Val := (List.range 64).map (fun i => l.getD (64 * i + j) .zero)

/-- Seed or reset (06 R133, R140): accumulator words, check cells, the K count and the block's saturation. -/
def Tile.seed (x : Tile) (f : Fmt) (l : List Nat) : Tile :=
  let v := l.map (Val.decode f)
  ({ x with acc := blockMap l, blockSat := false, kSteps := 0
            rowChk := if l.isEmpty then [] else chkMap ((List.range 64).map (fun i => seedChk (rowOf64 v i)))
            colChk := if l.isEmpty then [] else chkMap ((List.range 64).map (fun j => seedChk (colOf64 v j))) } : Tile).wrs
    [(F.TILE_M_STATUS_seeded, 1), (F.TILE_M_STATUS_k_count, 0)]

/-- The unseeded state (06 R139, R140). -/
def Tile.unseed (x : Tile) : Tile := (x.seed .x40 []).wr F.TILE_M_STATUS_seeded 0

/-- The 4,096 words of a seed block, converted to the accumulator's format (06 R128, 05 R91). -/
def Tile.seedBlock (x : Tile) (src dst : Fmt) (a st : Nat) : Res1 (List Nat) :=
  collect (((List.range 64).map (fun i => elems src 64 (x.spad.read (a + i * st) (64 * src.bytes)))).flatten.map (convert src dst none))

/-! Multiplication (05 R101 to R104, 06 R116, R123, R132). -/

/-- An operand of an M.MMA: format, layout, address and stride. -/
structure Oper where
  fmt   : Fmt
  xpose : Bool
  addr  : Nat
  st    : Nat
  deriving DecidableEq, Repr

/-- Element `r` of step `k`. -/
def Oper.at_ (o : Oper) (m : Mem) (r k : Nat) : Val :=
  Val.decode o.fmt (leNat (m.read (o.addr + (if o.xpose then r * o.st + k * o.fmt.bytes else k * o.st + r * o.fmt.bytes)) o.fmt.bytes))

/-- Whether a product is 0 × ∞, which is invalid whatever it is added to (05 R103, R108). -/
def zeroTimesInf (p : Val × Val × Int) : Bool :=
  (p.1.isZero && !p.2.1.isNum && !p.2.1.isNan) || (p.2.1.isZero && !p.1.isNum && !p.1.isNan)

/-- One addition of a cell: the accumulator and the products' factors, with the step's scale. A NaN operand makes NaN with nan_in; 0 × ∞
makes NaN with invalid; products that are all zero leave the accumulator as it is, but −0 plus +0 is +0 (R123). `gated`: a cell of M, which
does not run on such products, so a NaN it holds is no operand; V's path has no gating (05 R108). -/
def cellStep (mode : Nat) (acc : Val) (ps : List (Val × Val × Int)) (gated : Bool := true) : Res1 Val :=
  if acc.isNan || ps.any (fun p => p.1.isNan || p.2.1.isNan) then
    (if gated && ps.all (fun p => (p.1.isZero && p.2.1.isNum) || (p.1.isNum && p.2.1.isZero)) then ⟨acc, 0⟩
     else ⟨.nan, fNanIn ||| flagIf (ps.any zeroTimesInf) fInvalid⟩)
  else
    let prods := ps.map (fun p => let q := p.1.mul p.2.1; (if mode = 2 then q.val.trunc34 else q.val).scale p.2.2)
    if prods.any Val.isNan then ⟨.nan, fInvalid⟩
    else if prods.all Val.isZero then
      ⟨if acc.isZero && acc.neg? && prods.any (fun p => !p.neg?) then .zero else acc, 0⟩
    else
      let r := Val.sum (acc :: prods)
      let q := (accFmt mode).rne r.val
      ⟨Val.decode (accFmt mode) q.val, r.flags ||| q.flags⟩

/-- The steps taken two at a time in H16 mode; the last pair's missing product is +0 (06 R113). -/
def pairUp : List (Val × Val × Int) → List (List (Val × Val × Int))
  | a :: b :: l => [a, b] :: pairUp l
  | [a] => [[a, (.zero, .zero, 0)]]
  | [] => []

/-- All additions of a cell, in ascending k. -/
def cellRun (mode : Nat) (acc : Val) (l : List (Val × Val × Int)) (gated : Bool := true) : Res1 Val :=
  (if mode = 1 then pairUp l else l.map (fun p => [p])).foldl
    (fun (r : Res1 Val) ps => let q := cellStep mode r.val ps gated; ⟨q.val, r.flags ||| q.flags⟩) ⟨acc, 0⟩

/-- One step of a check cell (06 R132): a product rounded once, then the sum. -/
def chkAdd (c a b : Val) (sc : Int) : Val :=
  let p := Val.decode .x40 (Fmt.x40.rne ((a.mul b).val.scale sc)).val
  Val.decode .x40 (Fmt.x40.rne (c.add p).val).val

/-- A check cell over the steps: (operand, the other side's sum, of magnitudes, scale). -/
def chkRun (c : Chk) (l : List (Val × Val × Val × Int)) : Chk :=
  let r := l.foldl (fun (a : Val × Val) p => (chkAdd a.1 p.1 p.2.1 p.2.2.2, chkAdd a.2 p.1.abs p.2.2.1 p.2.2.2))
    (Val.decode .x40 c.sc.toNat, Val.decode .x40 c.ac.toNat)
  ⟨BitVec.ofNat 40 (Fmt.x40.rne r.1).val, BitVec.ofNat 40 (Fmt.x40.rne r.2).val⟩

/-- The scale exponent of step `k` for one side (06 R116). -/
def scaleAt (m : Mem) (fromList : Bool) (imm list k : Nat) : Int :=
  if fromList then signed 8 (m.get (list * 64 + k / 64)).toNat else signed 8 imm

/-- M.MMA's arithmetic; `ma` and `mb`: the scratchpad as the reads of A and of B, with their scales, find it. -/
def Tile.mma (x : Tile) (tn : Nat) (c : Cmd) (ma mb : Mem) : Tile :=
  let mode := x.rd F.TILE_M_STATUS_mode
  let f := opFmt mode
  let n := c.f2 24
  let oa : Oper := ⟨f, bitOf (c.f1 26) 0, c.f2 16 * 64, c.f2 20 * 64⟩
  let ob : Oper := ⟨f, bitOf (c.f1 26) 1, c.f2 18 * 64, c.f2 22 * 64⟩
  let ks := List.range n
  let sc := ks.map (fun k => scaleAt ma (bitOf (c.f1 29) 0) (c.f1 27) (c.f2 30) k + scaleAt mb (bitOf (c.f1 29) 1) (c.f1 28) (c.f2 32) k)
  let as := (List.range 64).map (fun i => ks.map (oa.at_ ma i))
  let bs := (List.range 64).map (fun j => ks.map (ob.at_ mb j))
  let cells := (as.zip (List.range 64)).map (fun ai => (bs.zip (List.range 64)).map (fun bj =>
    let r := cellRun mode (Val.decode (accFmt mode) (x.cell ai.2 bj.2)) (ai.1.zip (bj.1.zip sc))
    (⟨((accFmt mode).rne r.val).val, r.flags⟩ : Res1 Nat)))
  let r := collect cells.flatten
  let step := fun (l : List (List Val)) k => l.map (fun v => v.getD k .zero)
  let word := fun (l : List Val) => Val.decode .x40 (sumX40 l)
  let sumA := ks.map (fun k => (word (step as k), word ((step as k).map Val.abs)))
  let sumB := ks.map (fun k => (word (step bs k), word ((step bs k).map Val.abs)))
  let chk := fun (old : KMap Chk) (ops : List (List Val)) (sums : List (Val × Val)) =>
    chkMap ((ops.zip (List.range 64)).map (fun o =>
      chkRun (kget old o.2 {}) ((o.1.zip (sums.zip sc)).map (fun p => (p.1, p.2.1.1, p.2.1.2, p.2.2)))))
  let y := { x with acc := blockMap r.val, rowChk := chk x.rowChk as sumB, colChk := chk x.colChk bs sumA, kSteps := x.kSteps + n
                    blockSat := x.blockSat || (mode == 1 && bitOf r.flags 1) }
  (y.wr F.TILE_M_STATUS_k_count (min (x.kSteps + n) 0xFFFFFFFF)).raise tn false r.flags

/-- The scratchpad as a read finds it that nothing orders with the writes of `l`: each of these bytes, in turn, or not, as free choices from
number `g` on say (11 R246). -/
def Mem.mixed : Mem → Nat → List (Nat × Byte) → Mem
  | m, _, [] => m
  | m, g, (a, b) :: l => (if Config.freeChoice g % 2 = 1 then m.set a b else m).mixed (g + 1) l

/-- The M.MMA that read its operands has read them: any mix of what they held since it started and of what a DRAIN has still to write (06 R129;
11 R246). It adds its products. -/
def State.mmaEnd (s : State) (t : Nat) : State :=
  let x := s.tile t
  match x.mmaRun with
  | none => s
  | some r =>
    let l := r.was ++ singleBytes x.drainQ
    (s.draws (2 * l.length)).setTile t
      { x.mma s.tn r.cmd (x.spad.mixed s.free l) (x.spad.mixed (s.free + l.length) l) with mmaRun := none }

/-! Drain (06 R124 to R136). -/

/-- The drained words in the output format (06 R125). -/
def Tile.drainOut (x : Tile) (c : Cmd) (cells : List Nat) : Res1 (List Nat) :=
  let mode := x.rd F.TILE_M_STATUS_mode
  let key := x.rd F.TILE_V_KEY_key
  let step := x.rd F.TILE_V_STEP_step
  let sr := narrows mode c.outFmt && c.f1 18 == 1
  collect (((List.range cells.length).zip cells).map (fun p =>
    let d := if sr then some (drawBits (streamDraw key step (c.f2 38) (c.f4 40 + p.1 / 8)) (p.1 % 8)) else none
    convert (accFmt mode) c.outFmt d p.2))

/-- A positive exact value rounded towards +∞ to X40. -/
def ceilX40 : Val → Val
  | .num _ m e =>
    if m = 0 then .zero
    else
      let u := Fmt.x40.ulp m e
      let (q, r, _) := split m e u
      Val.decode .x40 (Fmt.x40.rne (.num false (if r = 0 then q else q + 1) u)).val
  | v => v

/-- The tolerance of 06 R134. -/
def tolerance (k : Nat) (ac : Val) (mode : Nat) : Val :=
  let u : Int := if mode = 0 then -32 else if mode = 2 then -31 else -11
  let lam : Int := if mode = 1 then -25 else -158
  match ac with
  | .num _ m e => ceilX40 (Val.sum [.num false ((2 * k + 256) * m) (e + u), .num false (64 * (k + 65)) lam]).val
  | v => v

/-- One comparison (06 R134, R135): none when it is skipped, else whether it passes, with difference and tolerance. -/
def compare (k mode : Nat) (sat : Bool) (sum : Val) (c : Chk) : Option (Bool × Val × Val) :=
  let sc := Val.decode .x40 c.sc.toNat
  let ac := Val.decode .x40 c.ac.toNat
  if !(sum.isNum && sc.isNum && ac.isNum) || (mode == 1 && sat) then none
  else
    let d := (sum.diff sc).val.abs
    let tol := tolerance k ac mode
    some (decide (d.cmp tol ≤ 0), d, tol)

/-- Every comparison of a block: rows, then columns. -/
def Tile.compares (x : Tile) (v : List Val) : List (Option (Bool × Val × Val)) × List (Option (Bool × Val × Val)) :=
  let mode := x.rd F.TILE_M_STATUS_mode
  let run := fun (l : List Val) => match l with
    | [] => Val.zero
    | a :: l => l.foldl (fun s b => (toX40 (s.add b)).val) a
  ((List.range 64).map (fun i => compare x.kSteps mode x.blockSat (treeSum 6 (rowOf64 v i)).val (kget x.rowChk i {})),
   (List.range 64).map (fun j => compare x.kSteps mode x.blockSat (run (colOf64 v j)) (kget x.colChk j {})))

/-- The first comparison that fails, with difference and tolerance. -/
def firstFail (l : List (Option (Bool × Val × Val))) : Option (Nat × Val × Val) :=
  ((List.range l.length).zip l).findSome? (fun p => match p.2 with
    | some (false, d, tol) => some (p.1, d, tol)
    | _ => none)

/-- CHECK_MISMATCH in the M registers (06 R136). -/
def Tile.mismatch (x : Tile) (tn : Nat) (row col : Option (Nat × Val × Val)) : Tile :=
  let d := match row, col with
    | some r, _ => r.2
    | none, some r => r.2
    | none, none => (.zero, .zero)
  x.wrs [(F.TILE_M_CHECK_mismatch, 1), (F.TILE_M_CHECK_row, (row.map (·.1)).getD 0), (F.TILE_M_CHECK_row_valid, b2n row.isSome),
    (F.TILE_M_CHECK_col, (col.map (·.1)).getD 0), (F.TILE_M_CHECK_col_valid, b2n col.isSome), (F.TILE_M_CHECK_tn_low, tn),
    (F.TILE_M_CHECK_DIFF_diff, (Fmt.x40.rne d.1).val), (F.TILE_M_CHECK_TOL_tol, (Fmt.x40.rne d.2).val)]

/-- The 64 stretches of bytes that a drain sends, in order: rows, or columns with xpose_out (06 R124, R126). -/
def outRows (f : Fmt) (xpose : Bool) (l : List Nat) : List (List Byte) :=
  (List.range 64).map (fun i => elemBytes f ((List.range 64).map (fun j => l.getD (if xpose then 64 * j + i else 64 * i + j) 0)))

/-- The first `n` rows written to the own scratchpad. -/
def State.drainSpad (s : State) (t : Nat) (c : Cmd) (rows : List (List Byte)) (n : Nat) : State :=
  (((List.range 64).zip rows).take n).foldl (fun a p => a.spadWrite t (c.f2 24 * 64 + p.1 * (c.f2 32 * 64)) p.2) s

/-- What a drain has to write into the scratchpad, in order: its rows when they go there, and its stat records (06 R124, R130, R139). -/
def Cmd.drainWrites (c : Cmd) (rows stats : List (List Byte)) : List (Nat × List Byte) :=
  (if c.f1 16 = 0 then ((List.range 64).zip rows).map (fun p => (c.f2 24 * 64 + p.1 * (c.f2 32 * 64), p.2)) else []) ++
  ((List.range 64).zip stats).map (fun p => (c.f2 50 * 64 + 16 * p.1, p.2))

/-- The rows sent to a global address, split at 256-byte boundaries (06 R124). -/
def State.drainGlobal (s : State) (t : Nat) (c : Cmd) (rows : List (List Byte)) : State :=
  ((List.range 64).zip rows).foldl (fun a p =>
    let addr := (c.f8 24 + p.1 * (c.f2 32 * 64)) % 2 ^ 64
    (cut256 (p.2.length / 256 + 2) addr p.2.length).foldl
      (fun b q => (b.issueWrite t .m c.pc (q.1 % 2 ^ 64) (c.f1 22) (sub p.2 (q.1 - addr) q.2)).1) a) s

/-- The rows of scales that an M.MMA reads (06 R116). -/
def Cmd.scaleBytes (c : Cmd) : Nat := (b2n (bitOf (c.f1 29) 0) + b2n (bitOf (c.f1 29) 1)) * ((c.f2 24 - 1) / 64 + 1)

/-- The bytes that a drain reads of the scratchpad: the earlier statistics and the seed block (06 R128, R130). -/
def Cmd.drainReads (c : Cmd) : Nat :=
  (if c.merges then 1024 else 0) + (if c.f1 19 = 2 then 4096 * (Fmt.ofCode (c.f1 21)).bytes else 0)

/-- The block sent to a chain or a station (09 R188, R194, R196). -/
def State.drainReduce (s : State) (t : Nat) (c : Cmd) (cells : List Nat) : State :=
  let rows := (List.range 64).map (fun i => ((cells.drop (64 * i)).take 64).map (BitVec.ofNat 40))
  if bitOf c.unit 15 then
    let k := c.unit % 64
    let round := (s.tile t).rd (F.TILE_RED_RX_send_round k)
    (((List.range 64).zip rows).foldl (fun a p =>
        (((a.countMesh t 320).carry (a.tileNode t) (stationNode k) 5 (reducePacket a.devId a.devId 1 0 k round p.1 (rowBytes p.2)) 320).flies
          (.vaultRow k a.devId round p.1 (.x40 p.2)))) s).twr t
      (F.TILE_RED_RX_send_round k) (round + 1)
  else
    let d : Drain := { cmd := c, chain := c.unit % 1024, rows := rows, dest := rget (s.tile t).regs F.TILE_RED_CHAIN_addr.off }
    (s.setTile t { (s.tile t).wr F.TILE_M_STATUS_drain_full 1 with drain := some d }).chainGo t

/-- A record of softmax statistics (06 R130). -/
def statBytes (p : Val × Val) : List Byte :=
  leBytes 5 (Fmt.x40.rne p.1).val ++ leBytes 3 0 ++ leBytes 5 (Fmt.x40.rne p.2).val ++ leBytes 3 0

/-- The statistics of the block's rows. -/
def Tile.stats (x : Tile) (c : Cmd) (v : List Val) : Res1 (List (List Byte)) :=
  if !c.softstat then ⟨[], 0⟩
  else
    let old := fun i => x.spad.read (c.f2 48 * 64 + 16 * i) 16
    let r := collect ((List.range 64).map (fun i =>
      softstat (rowOf64 v i) (Val.decode .s32 (c.f4 44)) (Val.decode .x40 (le (old i) 0 5)) (Val.decode .x40 (le (old i) 8 5)) c.merges))
    ⟨r.val.map statBytes, r.flags⟩

/-- The accumulators after a drain (06 R140 next): reset, kept, or seeded. -/
def Tile.drainNext (x : Tile) (c : Cmd) (seed : Res1 (List Nat)) : Tile :=
  if c.f1 19 = 0 then x.seed .x40 []
  else if c.f1 19 = 1 then x
  else x.seed (accFmt (x.rd F.TILE_M_STATUS_mode)) seed.val

/-- The accumulator words with the upsets that the world puts into them. -/
def Tile.upset (x : Tile) (l : List (Nat × BitVec 40)) : Tile :=
  let w := accFmt (x.rd F.TILE_M_STATUS_mode)
  { x with acc := l.foldl (fun a p => if p.1 < 4096 then kput a p.1 (kget a p.1 0 ^^^ BitVec.ofNat 40 (p.2.toNat % 2 ^ w.width)) else a) x.acc }

/-- M.DRAIN performed (06 R124 to R136); what it writes into the scratchpad lands by its completion (R139). When a comparison fails, the rows that had been written by then stay: those before the third row
ahead of a failing row, and 61 rows before a failing column's comparison (log 31). -/
def State.drainRun (s : State) (t : Nat) (c : Cmd) : State :=
  let x := s.tile t
  let mode := x.rd F.TILE_M_STATUS_mode
  let cells := (List.range 4096).map (fun k => (kget x.acc k 0).toNat)
  let v := cells.map (Val.decode (accFmt mode))
  let out := x.drainOut c cells
  let rows := outRows c.outFmt c.xposeOut out.val
  let seed := if c.f1 19 = 2 then x.seedBlock (Fmt.ofCode (c.f1 21)) (accFmt mode) (c.f2 34 * 64) (c.f2 36 * 64) else ⟨[], 0⟩
  let st := x.stats c v
  let (rc, cc) := x.compares v
  let fl := out.flags ||| st.flags ||| seed.flags
  let y := (x.raise s.tn false fl).wr F.TILE_M_CHECK_skipped (if (rc ++ cc).any Option.isNone then 1 else x.rd F.TILE_M_CHECK_skipped)
  let claim := if c.mDigest then y.digClaim (c.f1 23) 4096 else (0, y)
  let s1 := s.setTile t claim.2
  let adds := fun (a : State) k => if c.mDigest then a.setTile t ((a.tile t).digAdd (c.f1 23) claim.1 (out.val.take k)) else a
  let row := firstFail rc
  let col := firstFail cc
  if row.isSome || col.isSome then
    let n := match row with | some r => r.1 - 2 | none => 61
    let s2 := if c.f1 16 = 0 && !c.xposeOut then adds (s1.drainSpad t c rows n) (64 * n) else s1
    (s2.setTile t ((s2.tile t).mismatch s.tn row col)).mFault t 6 c.pc
  else
    let s2 := adds (s1.setTile t ((s1.tile t).drainNext c seed)) 4096
    let s3 := if c.f1 16 = 1 then s2.drainGlobal t c rows
      else if c.f1 16 = 2 then s2.drainReduce t c out.val
      else s2
    let l := c.drainWrites rows st.val
    if !(s3.tile t).live then s3
    else if l.isEmpty then s3
    else s3.setTile t { (s3.tile t).wr F.TILE_M_STATUS_drain_full 1 with drainQ := l }

/-! The commands. -/

/-- A command of M enters progress; an M.MMA before it has read its operands (06 R117, R119). -/
def State.mBegin (s : State) (t : Nat) (c : Cmd) : State :=
  let s1 := (s.mmaEnd t).startHead t 0 c
  s1.setTile t { (s1.tile t).wr F.TILE_M_STATUS_busy 1 with mRun := (s1.tile t).mRun ++ [c] }

/-- The row of opcode `op` at tile `t`: the head of the queue starts when it is that opcode, or one the table does not list; it faults at the
first check it fails (06 R139, R469), otherwise `f` is its effect. -/
def State.mRow (s0 : State) (t op : Nat) (f : State → Cmd → State) : State :=
  let s := s0.endCycle t
  match s.headReady t 0 with
  | none => s
  | some c =>
    if c.op ≠ op && c.op ≤ 4 then s
    else if s.mCheck t c ≠ 0 then (s.mBegin t c).mFault t (s.mCheck t c) c.pc
    else f s c

/-- M.NOP. -/
def execMNop (t : Fin 1200) (s : State) : Res := ok (s.mRow t 0 (fun a c => a.mBegin t c))

/-- M.CFG: the mode; the accumulators become unseeded. -/
def execMCfg (t : Fin 1200) (s : State) : Res :=
  ok (s.mRow t 1 (fun a c =>
    let b := a.mBegin t c
    b.setTile t ((b.tile t).unseed.wr F.TILE_M_STATUS_mode (c.f1 16))))

/-- M.SEED (06 R128, R133). -/
def execMSeed (t : Fin 1200) (ecc : Ecc) (s : State) : Res :=
  ok (s.mRow t 2 (fun a c =>
    let b := a.mBegin t c
    let x := b.tile t
    if c.f1 16 = 0 then b.setTile t (x.seed .x40 [])
    else
      let f := Fmt.ofCode (c.f1 17)
      let g := accFmt (x.rd F.TILE_M_STATUS_mode)
      ((b.drainSome t).countSpad t 0 (4096 * f.bytes)).withEcc t ecc (fun w d => d.mFault t 5 c.pc (some w)) (fun d =>
        let r := (d.tile t).seedBlock f g (c.f2 18 * 64) (c.f2 20 * 64)
        d.setTile t (((d.tile t).seed g r.val).raise d.tn false r.flags))))

/-- M.MMA (06 R114 to R118, R122): a gated array first asks for an array-on grant. It reads its operands from then on, until it completes or the
next command of M starts (`mmaEnd`). -/
def execMMma (t : Fin 1200) (ecc : Ecc) (s : State) : Res :=
  ok (s.mRow t 3 (fun a c =>
    let go := fun (b : State) =>
      let b1 := (b.mBegin t c).countSpad t 0 (2 * 64 * (opFmt ((b.tile t).rd F.TILE_M_STATUS_mode)).bytes * c.f2 24 + c.scaleBytes)
      b1.withEcc t ecc (fun w d => d.mFault t 5 c.pc (some w))
        (fun d => d.setTile t { d.tile t with mmaRun := some { cmd := c }, lastMma := d.time })
    if (a.tile t).rd F.TILE_M_STATUS_array_on = 1 then go a
    else if (a.tile t).gateReq then a
    else
      let g := a.activate (t / 150) 0 t
      if g.2 then go (g.1.twr t F.TILE_M_STATUS_array_on 1) else g.1.setTile t { g.1.tile t with gateReq := true }))

/-- M.DRAIN: it waits for the previous DRAIN's buffer (06 R127). `upset`: bits that a hardware fault turned in accumulators. -/
def execMDrain (t : Fin 1200) (ecc : Ecc) (upset : List (Nat × BitVec 40)) (s : State) : Res :=
  if (s.tile t).drain.isSome then ok s
  else
    ok (s.mRow t 4 (fun a c =>
      let b := ((a.mBegin t c).drainAll t).countSpad t 0 c.drainReads
      (b.setTile t ((b.tile t).upset upset)).withEcc t ecc
        (fun w d => (if c.mDigest then d.setTile t ((d.tile t).digClaim (c.f1 23) 4096).2 else d).mFault t 5 c.pc (some w))
        (fun d => d.drainRun t c)))

/-- ARRAY_CLOCK_GATE: 4,096 cycles without MMA issue (06 R122). -/
def execArrayClockGate (t : Fin 1200) (s : State) : Res :=
  if (s.tile t).mRun.any (fun c => c.op == 3) then ok s else ok (s.twr t F.TILE_M_STATUS_array_on 0)

end Sys2Proof.Machine
end

