-- ==== Sys2Proof/Machine/Vector.lean ====
section
/-! DEFINITION. The vector engine (07): V.RUN's instruction words, V.MV, and the generator's probe. -/

namespace Sys2Proof.Machine

/-- A fault of V: code, iteration and word in TILE_V_STATUS (07 R143, 08 R183). -/
def State.vFault (s : State) (t code iter word pc : Nat) (ecc : Option Nat := none) : State :=
  (s.setTile t ((s.tile t).wrs [(F.TILE_V_STATUS_fault, code), (F.TILE_V_STATUS_fault_iter, iter), (F.TILE_V_STATUS_fault_word, word)])).tileFault
    t .v (0x20 + code) pc 0 ecc

/-! Registers (07 R141). -/

/-- Elements of a format code: 0 X40, 1 S32, 2 H16, 3 binary16, 4 signed integer. -/
def vCount (f : Nat) : Nat := if f = 2 ∨ f = 3 then 128 else 64
/-- Bits of an element of a code other than X40. -/
def vBits (f : Nat) : Nat := if f = 2 ∨ f = 3 then 16 else 32

def Tile.vreg (x : Tile) (n : Nat) : Nat := (kget x.vregs n 0).toNat
def Tile.setVreg (x : Tile) (n v : Nat) : Tile := { x with vregs := kput x.vregs n (BitVec.ofNat 2048 v) }

/-- The words of a register, or of an X40 pair. -/
def Tile.getV (x : Tile) (f n : Nat) : List Nat :=
  let a := x.vreg n
  if f = 0 then
    let b := x.vreg (n + 1)
    (List.range 64).map (fun e => 256 * bitsOf a (32 * e) 32 + bitsOf b (8 * e) 8)
  else (List.range (vCount f)).map (fun e => bitsOf a (vBits f * e) (vBits f))

/-- Words packed, the first lowest. -/
def pack (w : Nat) : List Nat → Nat
  | [] => 0
  | a :: l => a % 2 ^ w + 2 ^ w * pack w l

/-- A register, or an X40 pair, set to words. -/
def Tile.putV (x : Tile) (f n : Nat) (l : List Nat) : Tile :=
  if f = 0 then (x.setVreg n (pack 32 (l.map (· / 256)))).setVreg (n + 1) (pack 8 l) else x.setVreg n (pack (vBits f) l)

/-! Instruction words (07 R143 to R145). -/

def wOp (w : Nat) : Nat := bitsOf w 0 8
def wVd (w : Nat) : Nat := bitsOf w 8 6
def wVa (w : Nat) : Nat := bitsOf w 14 6
def wVb (w : Nat) : Nat := bitsOf w 20 6
def wVc (w : Nat) : Nat := bitsOf w 26 6
def wFmt (w : Nat) : Nat := bitsOf w 32 4
def wRnd (w : Nat) : Nat := bitsOf w 36 2
def wHalf (w : Nat) : Bool := bitOf w 38
def wImm (w : Nat) : Nat := bitsOf w 40 24
def wMem (w : Nat) : Bool := wOp w == 1 || wOp w == 2
def wMemFmt (w : Nat) : Nat := bitsOf w 46 4
def wTo (w : Nat) : Nat := wImm w % 16

/-- The word opcodes. -/
def wordOps : List Nat :=
  [0x01, 0x02, 0x10, 0x11, 0x12, 0x13, 0x14, 0x15, 0x16, 0x17, 0x18, 0x19, 0x1A, 0x1B, 0x20, 0x21, 0x22, 0x28, 0x29, 0x2A, 0x30, 0x38]

/-- Opcode and reserved bits of a word (V_BAD_OP). -/
def wordOpOk (w : Nat) : Bool :=
  wordOps.contains (wOp w) && (if wMem w then bitsOf w 50 14 == 0 else !bitOf w 39 && wRnd w < 2)

/-- The conversions of 05 R105 that V.CVT performs. -/
def cvtOk (a b : Nat) : Bool :=
  [(2, 1), (2, 0), (1, 0), (1, 2), (1, 4), (0, 1), (0, 2), (3, 2), (2, 3), (4, 1)].contains (a, b)
/-- Those that admit SR. -/
def srOk (a b : Nat) : Bool := [(1, 2), (0, 1), (0, 2)].contains (a, b)

/-- The registers that a word uses as X40 pairs. -/
def pairs (w : Nat) : List Nat :=
  let o := wOp w
  let x := wFmt w == 0
  if wMem w then (if wMemFmt w = 0 then [wVd w] else [])
  else if o = 0x30 then (if x then [wVa w] else []) ++ (if wTo w = 0 then [wVd w] else [])
  else if o = 0x20 then wVd w :: (if x then [wVa w] else [])
  else if o = 0x38 || !x then []
  else if o = 0x13 || o = 0x1A then [wVd w, wVa w, wVb w, wVc w]
  else if [0x10, 0x11, 0x12, 0x14, 0x15, 0x19].contains o then [wVd w, wVa w, wVb w]
  else [wVd w, wVa w]

/-- Field values of a word (V_BAD_CMD, 07 R145). -/
def wordFieldsOk (w : Nat) : Bool :=
  let o := wOp w
  if wMem w then wMemFmt w ≤ 2 && (pairs w).all (· % 2 == 0)
  else
    wFmt w ≤ 4 && (o == 0x30 || wFmt w ≤ 2) && (o == 0x30 || (wRnd w == 0 && !wHalf w)) &&
    (o != 0x30 || (cvtOk (wFmt w) (wTo w) && (wRnd w == 0 || srOk (wFmt w) (wTo w)))) &&
    (o != 0x19 || wImm w % 8 ≤ 5) && (o != 0x1B || wImm w % 128 < vCount (wFmt w)) && (pairs w).all (· % 2 == 0)

/-- A drawing word (07 R144). -/
def drawing (w : Nat) : Bool := wOp w == 0x38 || (wOp w == 0x30 && wRnd w == 1)

/-! Elementwise results (07 R147 to R151). -/

/-- The format of codes 0 to 2. -/
def vFmt (f : Nat) : Fmt := Fmt.ofCode f

/-- An operation computed exactly and rounded once. -/
def rounded (f : Fmt) (r : Res1 Val) : Res1 Nat :=
  let q := f.rne r.val
  ⟨q.val, r.flags ||| q.flags⟩

/-- One element of V.ADD to V.SCALE and of the functions. -/
def arith (o : Nat) (f : Fmt) (imm : Nat) (a b c : Val) : Res1 Nat :=
  if o = 0x10 then rounded f (a.add b)
  else if o = 0x11 then rounded f (a.diff b)
  else if o = 0x12 then rounded f (a.mul b)
  else if o = 0x13 then
    (if a.isNan || b.isNan || c.isNan then ⟨f.nan, fNanIn⟩
     else if (a.mul b).val.isNan then ⟨f.nan, fInvalid⟩
     else rounded f ((a.mul b).val.add c))
  else if o = 0x14 then rounded f (a.maxMin false b)
  else if o = 0x15 then rounded f (a.maxMin true b)
  else if o = 0x16 then rounded f ⟨a.abs, nanIn a⟩
  else if o = 0x17 then rounded f ⟨a.minus, nanIn a⟩
  else if o = 0x18 then rounded f ⟨a.scale (signed 8 imm), nanIn a⟩
  else if o = 0x28 then f.exp2 a
  else if o = 0x29 then f.log2 a
  else f.rsqrt a

/-- A comparison under imm[2:0] (05 R108, 07 R148). -/
def compareVals (k : Nat) (a b : Val) : Bool :=
  if a.isNan || b.isNan then k == 1
  else
    let c := a.cmp b
    if k = 0 then c == 0 else if k = 1 then c != 0 else if k = 2 then decide (c < 0) else if k = 3 then decide (c ≤ 0)
    else if k = 4 then decide (0 < c) else decide (0 ≤ c)

/-- An element of V.CVT. -/
def cvtElem (a b : Nat) (d : Option Nat) (w : Nat) : Res1 Nat :=
  if a = 3 then fromBinary16 w
  else if b = 3 then toBinary16 w
  else if a = 4 then fromInt32 w
  else if b = 4 then toInt32 w
  else convert (vFmt a) (vFmt b) d w

/-- Half of a register's H16 elements replaced. -/
def withHalf (old : List Nat) (high : Bool) (l : List Nat) : List Nat := if high then old.take 64 ++ l else l ++ old.drop 64

/-- What a V command draws with: key, step, tag and the group of this iteration (07 R158 to R160). -/
structure Draws where
  key   : Nat
  step  : Nat
  tag   : Nat
  group : Nat
  deriving DecidableEq, Repr

def Draws.at_ (d : Draws) (g : Nat) : Nat := streamDraw d.key d.step d.tag (d.group + g)

/-- V.CVT (07 R151). -/
def Tile.cvt (x : Tile) (w : Nat) (d : Draws) : Res1 Tile :=
  let a := wFmt w
  let b := wTo w
  let src := x.getV a (wVa w)
  let both := (a == 2 && b == 3) || (a == 3 && b == 2)
  let src1 := if a = 2 && !both then (if wHalf w then src.drop 64 else src.take 64) else src
  let r := collect (((List.range src1.length).zip src1).map (fun p =>
    cvtElem a b (if wRnd w = 1 then some (drawBits (d.at_ (p.1 / 8)) (p.1 % 8)) else none) p.2))
  ⟨x.putV b (wVd w) (if b = 2 && !both then withHalf (x.getV 2 (wVd w)) (wHalf w) r.val else r.val), r.flags⟩

/-- A register-format word (07 R147 to R151). -/
def Tile.regWord (x : Tile) (w : Nat) (d : Draws) : Res1 Tile :=
  let o := wOp w
  let c := wFmt w
  let f := vFmt c
  let va := x.getV c (wVa w)
  let vb := x.getV c (wVb w)
  let vc := x.getV c (wVc w)
  let dec := fun (l : List Nat) => l.map (Val.decode f)
  if o = 0x30 then x.cvt w d
  else if o = 0x38 then
    let group := fun g => streamDraw d.key d.step d.tag (d.group + g)
    ⟨x.setVreg (wVd w) (pack 128 ((List.range 16).map group)), 0⟩
  else if o = 0x19 then
    let r := (dec va).zip (dec vb)
    ⟨x.putV c (wVd w) (r.map (fun p => if compareVals (wImm w % 8) p.1 p.2 then 2 ^ f.width - 1 else 0)),
     flagsOf (r.map (fun p => nanIn p.1 ||| nanIn p.2))⟩
  else if o = 0x1A then ⟨x.putV c (wVd w) ((va.zip (vb.zip vc)).map (fun p => if p.2.2 = 0 then p.2.1 else p.1)), 0⟩
  else if o = 0x1B then ⟨x.putV c (wVd w) (List.replicate (vCount c) (va.getD (wImm w % 128) 0)), 0⟩
  else if o = 0x20 then
    let r := treeSum (if c = 2 then 7 else 6) (dec va)
    ⟨x.putV 0 (wVd w) ((Fmt.x40.rne r.val).val :: List.replicate 63 0), r.flags ||| flagsOf ((dec va).map nanIn)⟩
  else if o = 0x21 ∨ o = 0x22 then
    let r := extremeOf (o == 0x21) (dec va)
    ⟨x.putV c (wVd w) ((f.rne r.val).val :: List.replicate (vCount c - 1) 0), r.flags⟩
  else
    let r := collect ((va.zip (vb.zip vc)).map (fun p => arith o f (wImm w % 256) (Val.decode f p.1) (Val.decode f p.2.1) (Val.decode f p.2.2)))
    ⟨x.putV c (wVd w) r.val, r.flags⟩

/-- Bytes of a memory word's access. -/
def memSize (w : Nat) : Nat := if wMemFmt w = 0 then 320 else 256

/-- The byte address of a memory word in an iteration (07 R146). -/
def memAddr (w it : Nat) : Int := 64 * ((bitsOf w 14 16 : Nat) + (it : Int) * signed 16 (bitsOf w 30 16))

/-- A run in progress: the state, what a load of it has still to meet, and the fault that ended it. -/
structure VRun where
  st   : State
  ecc  : Ecc
  stop : Option (Nat × Nat × Nat) := none

/-- A memory word. -/
def VRun.mem (r : VRun) (t it k w : Nat) : VRun :=
  let a := memAddr w it
  let n := memSize w
  if a < 0 ∨ (spadSize : Int) < a + n then { r with stop := some (3, it, k) }
  else
    let o := a.toNat
    let x := r.st.tile t
    if wOp w = 2 then
      let b := if wMemFmt w = 0 then elemBytes .x40 (x.getV 0 (wVd w)) else leBytes 256 (x.vreg (wVd w))
      { r with st := r.st.spadWrite t o b }
    else if eccBad r.ecc && eccHits r.ecc o n then { r with stop := some (4, it, k) }
    else
      let s1 := ((r.st.drainSome t).eccNoted t r.ecc o n).countSpad t 0 n
      let b := s1.spadBytes t o n
      let y := s1.tile t
      let z := if wMemFmt w = 0 then y.putV 0 (wVd w) (elems .x40 64 b) else y.setVreg (wVd w) (leNat b)
      { r with st := s1.setTile t z, ecc := if eccHits r.ecc o n then .ok else r.ecc }

/-- One word in one iteration. -/
def VRun.word (r : VRun) (t it k w : Nat) (d : Draws) : VRun :=
  if r.stop.isSome then r
  else if wMem w then r.mem t it k w
  else
    let q := (r.st.tile t).regWord w d
    { r with st := r.st.setTile t (q.val.raise r.st.tn true q.flags) }

/-- The iterations from `it` on (07 R144). -/
def VRun.iters (r : VRun) (t : Nat) (ws : List Nat) (d : Draws) (per : Nat) : Nat → Nat → VRun
  | 0, _ => r
  | n + 1, it =>
    let r1 := ((List.range ws.length).zip ws).foldl (fun a p => a.word t it p.1 p.2 { d with group := d.group + per * it }) r
    r1.iters t ws d per n (it + 1)

/-! Commands (07 R143, R154, R470). -/

/-- The words of a V.RUN that execute. -/
def Cmd.words (c : Cmd) : List Nat := (List.range (c.f1 18)).map (fun k => c.f8 (32 + 8 * k))

/-- Step 1 of 07 R470. -/
def vOpOk (c : Cmd) : Bool :=
  c.headOk && (
    if c.op = 0 then c.zeroFrom 16
    else if c.op = 1 then c.f1 19 == 0 && c.f2 22 == 0 && c.f1 27 == 0 && c.f4 28 == 0 && c.zeroFrom (32 + 8 * c.f1 18)
    else if c.op = 2 then c.zeroFrom 26
    else false)

/-- Registers of each activation vector (07 R154). -/
def Cmd.kr (c : Cmd) : Nat := (c.f2 20 + 127) / 128

/-- Step 2 of 07 R470. -/
def vCmdOk (c : Cmd) : Bool :=
  if c.op = 1 then 1 ≤ c.f2 16 && 1 ≤ c.f1 18 && c.f1 18 ≤ 4
  else if c.op = 2 then
    let nx := c.f1 22 * c.kr
    let ny := 2 * c.f1 22
    1 ≤ c.f2 20 && c.f2 20 ≤ 4096 && 1 ≤ c.f1 22 && c.f1 22 ≤ 4 && c.f1 25 ≤ 1 && 2 ≤ c.f2 18 &&
    c.f1 24 % 2 == 0 && c.f1 23 + nx ≤ 64 && c.f1 24 + ny ≤ 64 && (c.f1 23 + nx ≤ c.f1 24 || c.f1 24 + ny ≤ c.f1 23)
  else true

/-- The first failing word of a V.RUN: code and index. -/
def badWord (ws : List Nat) : Option (Nat × Nat) :=
  ((List.range ws.length).zip ws).findSome? (fun p => if !wordOpOk p.2 then some (1, p.1) else if !wordFieldsOk p.2 then some (2, p.1) else none)

/-- The fault code of a V command at its start, with the word's index; 0 when it passes (07 R470). -/
def vCheck (c : Cmd) : Nat × Nat :=
  if !vOpOk c then (1, 0)
  else if !vCmdOk c then (2, 0)
  else if c.op = 2 && spadSize < c.f2 16 * 64 + (c.f2 20 - 1) * (c.f2 18 * 64) + 128 then (3, 0)
  else if c.op = 1 then
    match badWord c.words with
    | some p => p
    | none =>
      match (((List.range c.words.length).zip c.words).filter (fun p => drawing p.2)).drop 1 with
      | [] => (0, 0)
      | p :: _ => (2, p.1)
  else (0, 0)

/-- A command of V enters progress. -/
def State.vBegin (s : State) (t : Nat) (c : Cmd) : State :=
  let s1 := s.startHead t 1 c
  s1.setTile t { (s1.tile t).wrs [(F.TILE_V_STATUS_busy, 1), (F.TILE_V_STATUS_mv_busy, if c.op = 2 then 1 else (s1.tile t).rd F.TILE_V_STATUS_mv_busy)] with
                 vRun := (s1.tile t).vRun ++ [c] }

/-- The row of opcode `op`, as for M. -/
def State.vRow (s0 : State) (t op : Nat) (f : State → Cmd → State) : State :=
  let s := s0.endCycle t
  match s.headReady t 1 with
  | none => s
  | some c =>
    if c.op ≠ op && c.op ≤ 2 then s
    else if (vCheck c).1 ≠ 0 then (s.vBegin t c).vFault t (vCheck c).1 0 (vCheck c).2 c.pc
    else f (s.vBegin t c) c

/-- V.NOP. -/
def execVNop (t : Fin 1200) (s : State) : Res := ok (s.vRow t 0 (fun a _ => a))

/-- V.RUN. -/
def execVRun (t : Fin 1200) (ecc : Ecc) (s : State) : Res :=
  ok (s.vRow t 1 (fun a c =>
    let x := a.tile t
    let d : Draws := ⟨x.rd F.TILE_V_KEY_key, x.rd F.TILE_V_STEP_step, c.f2 20, c.f4 24⟩
    let per := if c.words.any (fun w => wOp w == 0x38) then 16 else 8
    let r := VRun.iters { st := a, ecc := ecc } t c.words d per (c.f2 16) 0
    match r.stop with
    | some (code, it, k) => r.st.vFault t code it k c.pc (if code = 4 then some (eccWord r.ecc) else none)
    | none => r.st))

/-- One output vector of V.MV (07 R153). -/
def Tile.mvRow (x : Tile) (c : Cmd) (v : Nat) : Res1 (List Nat) :=
  let n := c.f2 20
  let acts := ((List.range c.kr).map (fun i => x.getV 2 (c.f1 23 + v * c.kr + i))).flatten.map (Val.decode .h16)
  let old := if c.f1 25 = 1 then x.getV 0 (c.f1 24 + 2 * v) else List.replicate 64 0
  collect (((List.range 64).zip old).map (fun p =>
    let ws := (List.range n).map (fun k => Val.decode .h16 (leNat (x.spad.read (c.f2 16 * 64 + k * (c.f2 18 * 64) + 2 * p.1) 2)))
    let r := cellRun 0 (Val.decode .x40 p.2) ((ws.zip acts).map (fun q => (q.1, q.2, 0))) false
    ⟨(Fmt.x40.rne r.val).val, r.flags⟩))

/-- V.MV. -/
def execVMv (t : Fin 1200) (ecc : Ecc) (s : State) : Res :=
  ok (s.vRow t 2 (fun a c =>
    ((a.drainSome t).countSpad t 0 (128 * c.f2 20)).withEcc t ecc (fun w d => d.vFault t 4 0 0 c.pc (some w)) (fun d =>
      let x := d.tile t
      let rs := (List.range (c.f1 22)).map (x.mvRow c)
      let y := ((List.range (c.f1 22)).zip rs).foldl (fun (z : Tile) p => z.putV 0 (c.f1 24 + 2 * p.1) p.2.val) x
      d.setTile t (y.raise d.tn true (flagsOf (rs.map (·.flags)))))))

/-- The window offset of a tile's register. -/
def tileOff (t o : Nat) : Nat := 0x1000000 + 0x8000 * t + o

/-- The draw of TILE_V_PROBE_CTR: key and counter, with no fold. -/
def Tile.probe (x : Tile) (ctr : Nat) : Tile :=
  let d := draw (x.rd F.TILE_V_KEY_key) ctr
  x.wrs [(F.TILE_V_PROBE_LO_draw_lo, d % 2 ^ 64), (F.TILE_V_PROBE_HI_draw_hi, d / 2 ^ 64), (F.TILE_V_STATUS_probe_done, 1)]

/-- V_PROBE: a write of TILE_V_PROBE_CTR, which takes 8 bytes only (07, 00 R9). -/
def execVProbe (m : Master) (t : Fin 1200) (size : Nat) (ctr : Dword) (s : State) : Res :=
  ok (s.guarded m (tileOff t 0x1118) (fun a =>
    if size = 8 then a.setTile t ((a.tile t).probe ctr.toNat) else a.logs .REG_MISALIGNED [masterCode m, tileOff t 0x1118, size]) size)

end Sys2Proof.Machine
end

