-- ==== Sys2Proof/Machine/TilePage.lean ====
section
/-! DEFINITION. A tile's TILE_ page as it is read and written (08 R169, 12 R253 to R269), and the setting of counters by hand. -/

namespace Sys2Proof.Machine

/-! Reads. -/

/-- Microseconds since a time, at most `m`. -/
def State.sinceUs (s : State) (a m : Nat) : Nat := min ((s.time - a) / usCycles) m

/-- The age of the oldest unacknowledged remote write of a tile (11 TILE_MM_STATUS). -/
def State.oldestUs (s : State) (x : Tile) : Nat :=
  ((x.stores.filter (fun e => !e.signal && !e.own)).map (fun e => s.sinceUs e.time 0xFFFF)).foldl max 0

/-- The word that the register at page offset `o` of tile `t` reads as: the stored word, and the fields that follow the time (08
TILE_S_STATUS, 11 TILE_MM_STATUS). -/
def State.tileView (s : State) (t o : Nat) : Dword :=
  let x := (s.tile t).endCycle
  let w := rget x.regs o
  if o = 0x1200 then
    let stall := x.rd F.TILE_S_STATUS_stall
    putBits (putBits w 7 1 (b2n (s.stopped && x.live))) 32 32 (if stall = 0 then 0 else min (s.time - x.stallAt) 0xFFFFFFFF)
  else if o = 0x1700 then putBits w 16 16 (s.oldestUs x)
  else w

/-! Counters set by hand (12 R267, R268). -/

/-- An accepted manual SET: the counter, its event with the old value, TILE_SYNC_LAST_SET and the count (12 R268). -/
def Tile.manualSet (x : Tile) (tn cyc c v master : Nat) : Tile :=
  let old := x.ctr c
  let y := ((x.setCtr tn c v).event tn cyc 2 7 (c + 256 * master + 1024 * v)).event tn cyc 2 0xFF old
  (y.wrs [(F.TILE_SYNC_LAST_SET_ctr, c), (F.TILE_SYNC_LAST_SET_master, master), (F.TILE_SYNC_LAST_SET_old, old)]).bump
    F.TILE_SYNC_STATUS_manual_sets

/-- It is step 4 of R261. -/
def State.setByHand (s : State) (t c v master : Nat) : State := s.sync t 10 (fun x => x.manualSet s.tn s.sinceEdge c v master)

/-- A refused manual SET (12 R267). -/
def State.refuseSet (s : State) (t m c v : Nat) : State :=
  (s.setTile t ((s.tile t).bump F.TILE_SYNC_STATUS_refused)).logs .MANUAL_SET_REFUSED [t, m, c, v]

/-- A write of TILE_SYNC_SET: from the CPC in ON (19 R416), or refused. -/
def State.syncSet (s : State) (m : Option Master) (t c v : Nat) : State :=
  if m = some .cpc ∧ s.pwrOn = true then s.setByHand t c v 1
  else s.refuseSet t ((m.map masterCode).getD 0xFFFF) c v

/-- A write of TILE_SYNC_SIGNAL: S's own is a local signal, any other master's a remote arrival from `src` (12 R254, R261, R269). -/
def State.syncSignal (s : State) (m : Option Master) (src : Node) (t c n : Nat) : State :=
  match m with
  | none => s.signalLocal t 7 c n
  | some _ => s.signalRemote src t c n

/-! Writes. -/

/-- TILE_V_STEP written by S with the value s + 1 of an armed dump (20 R432): S is held; when every present tile of the bay is, the copy
begins. -/
def State.dumpHold (s : State) (t v : Nat) : State :=
  let st := s.rd F.HUB_DUMP_STATUS_state
  if (st = 1 ∨ st = 2) ∧ v = (s.rd F.HUB_DUMP_STEP_step + 1) % 2 ^ 64 ∧ s.bayOf t = some s.dump.bay ∧ s.present t = true then
    let held := if s.dump.held.contains t then s.dump.held else s.dump.held ++ [t]
    let s1 := { s.setTile t { s.tile t with hold := true } with dump := { s.dump with held := held } }
    s1.wrs [(F.HUB_DUMP_STATUS_held, held.length),
      (F.HUB_DUMP_STATUS_state, if (s.bayTiles s.dump.bay).all (fun u => held.contains u) then 3 else 2)]
  else s

/-- A write of `size` bytes at page offset `o` of tile `t`, by master `m`, none for the tile's own S, from `src` (00 R9, 08 R169): nothing and
REG_MISALIGNED when the register does not take that size. -/
def State.tileWrite (s : State) (m : Option Master) (t o size v : Nat) (src : Node := .hub) : State :=
  match findRow tileRows (o - o % 8) with
  | none => s
  | some r =>
    let reg := o - o % 8
    let x := s.tile t
    if !widthOk r size then s.logs .REG_MISALIGNED [(m.map masterCode).getD 0xFFFF, tileOff t o, size]
    else if reg = 0x1118 then s.setTile t (x.probe v)
    else if reg = 0x1A08 then s.syncSignal m src t (v % 256) (v / 2 ^ 32 % 2 ^ 32)
    else if reg = 0x1A10 then s.syncSet m t (v % 256) (v / 2 ^ 32 % 2 ^ 32)
    else
      let w := mergeWrite r (rget x.regs reg) o size v
      let y := { x with regs := rput x.regs reg w }
      if 0x3000 ≤ reg ∧ reg < 0x4000 ∧ reg % 0x100 = 0 then s.setTile t (y.emptySlot ((reg - 0x3000) / 0x100))
      else if reg = 0x1110 ∧ m = none then (s.setTile t y).dumpHold t w.toNat
      else s.setTile t y

/-! The rows that write the page from outside the tile. -/

/-- TILE_SYNC_SIGNAL (12 R269). -/
def execTileSyncSignal (m : Master) (t : Fin 1200) (size : Nat) (ctr : Byte) (n : Word) (s : State) : Res :=
  ok (s.guarded m (tileOff t 0x1A08) (fun a => a.tileWrite (some m) t 0x1A08 size (ctr.toNat + 2 ^ 32 * n.toNat)) size)

/-- TILE_SYNC_SET (12 R267). -/
def execTileSyncSet (m : Master) (t : Fin 1200) (size : Nat) (ctr : Byte) (v : Word) (s : State) : Res :=
  ok (s.guarded m (tileOff t 0x1A10) (fun a => a.tileWrite (some m) t 0x1A10 size (ctr.toNat + 2 ^ 32 * v.toNat)) size)

/-- DBG_SYNC_SET (12 R267): from the debug port with debug open in ON (19 R416); refused at the tile otherwise, and by any other
master. -/
def execDbgSyncSet (m : Master) (size : Nat) (tile : BitVec 11) (ctr : Byte) (v : Word) (s : State) : Res :=
  let t := tile.toNat
  ok (s.guarded m 0x50100 (fun a =>
    if size ≠ 8 then a.logs .REG_MISALIGNED [masterCode m, 0x50100, size]
    else if !a.present t then a
    else if m = .debug ∧ a.debugGrants = true ∧ a.pwrOn = true then
      a.setByHand t ctr.toNat v.toNat 2
    else a.refuseSet t (masterCode m) ctr.toNat v.toNat) size)

/-- DIG_CFG_WRITE (20 R424): a write of TILE_DIG_CFGn, whole or of one half (00 R9). -/
def execDigCfgWrite (m : Master) (t : Fin 1200) (n : Fin 16) (size : Nat) (high : Bool) (v : Dword) (s : State) : Res :=
  let o := 0x3000 + 0x100 * n.val + (if size = 4 && high then 4 else 0)
  ok (s.guarded m (tileOff t o) (fun a => a.tileWrite (some m) t o size v.toNat) size)

end Sys2Proof.Machine
end

