-- ==== Sys2Proof/WellFormed.lean ====
section
/-! DEFINITION. Which commands the world outside can bring: the lengths and ranges that the spec gives their operands. -/

namespace Sys2Proof

/-- The opcodes of S (08 R168). -/
def sOpcodes : List Nat :=
  [0x01, 0x02, 0x03, 0x04, 0x05, 0x06, 0x07, 0x08, 0x09, 0x0A, 0x0B, 0x0C, 0x0D, 0x0E, 0x0F, 0x10, 0x11, 0x12, 0x13, 0x14, 0x15, 0x16,
   0x17, 0x18, 0x20, 0x21, 0x22, 0x28, 0x29, 0x2A, 0x2B, 0x2C, 0x2D, 0x2E, 0x2F, 0x30, 0x31, 0x32, 0x33, 0x38, 0x39, 0x3A, 0x3F]

/-- An S instruction's word carries the row's opcode, or one that is in no row (08 R167, R168). -/
def SIssue.has (i : SIssue) (op : Nat) : Bool := i.word.toNat % 128 == op || !sOpcodes.contains (i.word.toNat % 128)

/-- A register access is 4 or 8 bytes wide (00 R9). -/
def sizeOk (n : Nat) : Bool := n == 4 || n == 8

/-- A request carries 1 to 256 bytes (10 R215, 15 R327); a read of the host may ask for more (00 R9). -/
def reqLen (n : Nat) : Bool := 1 ≤ n && n ≤ 256

/-- Rows of values have 64 elements (09 R188, R194). -/
def RowVals.wf : RowVals → Bool
  | .x40 vs => vs.length == 64
  | .raw vs => vs.length == 64

/-- Symbols in error name lines 0 to 35, each once, with a difference that is not 0 (14 R303); a command is retried once (R302). -/
def BurstErr.wf (e : BurstErr) : Bool :=
  e.ca ≤ 2 && e.syms.all (fun p => p.1 < 36 && p.2 != 0) && (e.syms.map (·.1)).eraseDups.length == e.syms.length

def errsWf (l : List BurstErr) : Bool := l.all BurstErr.wf

/-- A start finds eleven capability words (01 R22) and the 92 factory trims (03 R67); bundles below 376, sites below 1,280. -/
def StartIn.wf (i : StartIn) : Bool :=
  i.caps.length == 11 && i.trims.length == 92 && i.bundleFail.all (· < 376) && i.bistFail.all (· < 1280)

/-- The command can arrive. -/
def Instr.wf : Instr → Bool
  | .bridgeFlit _ f => f.length == 256
  | .linkFlit _ f _ _ => f.length == 256
  | .dieTempSample d r => r.length == (if d.val = 8 then 4 else 3)
  | .oeRequest _ w _ n d => reqLen n && (!w || d.length == n)
  | .auxPowerOn i _ => i.wf
  | .vinReturn i => i.wf
  | .warmStart _ i => i.wf
  | .coldStart _ i => i.wf
  | .startRetry i => i.wf
  | .perstRelease i => i.wf
  | .hotReset i => i.wf
  | .returnCmd _ i => i.wf
  | .stowCopyComplete im _ e => im.length ≤ 4194304 && errsWf e
  | .write _ d _ e => reqLen d.length && errsWf e
  | .read _ n e _ _ => n ≤ 4096 && errsWf e
  | .readResp _ _ _ _ d _ _ => d.length ≤ 256
  | .mDrain _ _ u => u.all (fun e => e.1 < 128)
  | .chainRow _ _ _ vs _ => vs.length == 64
  | .vaultRow _ _ _ _ vs _ _ => vs.wf
  | .reduce _ k f _ _ r d _ _ => k.toNat ≤ 2 && f.toNat ≤ 3 && r.toNat < 64 &&
      d.length == (if f.toNat = 0 then 320 else if f.toNat = 1 then 256 else if f.toNat = 2 then 128 else 2560)
  | .alu i => i.has 0x01
  | .addi i => i.has 0x02
  | .andi i => i.has 0x03
  | .ori i => i.has 0x04
  | .xori i => i.has 0x05
  | .shi i => i.has 0x06
  | .lui i => i.has 0x07
  | .ldW i => i.has 0x08
  | .stW i => i.has 0x09
  | .ldG i => i.has 0x0A
  | .ldGc i => i.has 0x0B
  | .stG i => i.has 0x0C
  | .regR i => i.has 0x0D
  | .regW i => i.has 0x0E
  | .regR64 i => i.has 0x0F
  | .regW64 i => i.has 0x10
  | .beq i => i.has 0x11
  | .bne i => i.has 0x12
  | .blt i => i.has 0x13
  | .bge i => i.has 0x14
  | .bltu i => i.has 0x15
  | .bgeu i => i.has 0x16
  | .jal i => i.has 0x17
  | .jalr i => i.has 0x18
  | .cw i => i.has 0x20
  | .enq i => i.has 0x21
  | .enqs i => i.has 0x22
  | .signal i => i.has 0x28
  | .signalR i => i.has 0x29
  | .wait i => i.has 0x2A
  | .waitAcq i => i.has 0x2B
  | .take i => i.has 0x2C
  | .set i => i.has 0x2D
  | .lwait i => i.has 0x2E
  | .lwaitAcq i => i.has 0x2F
  | .fenceLocal i => i.has 0x30
  | .fenceRemote i => i.has 0x31
  | .cinvRemote i => i.has 0x32
  | .cinvAll i => i.has 0x33
  | .time i => i.has 0x38
  | .evt i => i.has 0x39
  | .trap i => i.has 0x3A
  | .halt i => i.has 0x3F
  | .hbmScrub _ _ e => errsWf e
  | .challenge _ n _ _ => n.length == 32
  | .getMeasurements _ n _ _ => n.length == 32
  | .relay _ _ _ _ _ _ d => d.length == 4096
  | .fwStage _ e _ => errsWf e
  | .hostMemWrite _ d _ e _ => 1 ≤ d.length && errsWf e
  | .hostMemRead _ n _ e _ _ => 1 ≤ n && errsWf e
  | .shelfInboundRequest w _ n d e => 1 ≤ n && (!w || d.length == n) && errsWf e
  | .snapRelease e _ => e.all errsWf
  | .selftestDone u _ l b => (match u with | .tile _ => (l ++ b.toList).all (fun o => o < 0x300000 && o % 8 == 0) | .station _ => l.isEmpty && b.isNone)
  | .copyUnitDone _ _ e _ => errsWf e
  | .ringFetch _ _ e => errsWf e
  | .fenceWait _ _ e => errsWf e
  | .fencePoll _ _ e _ => errsWf e
  | .dumpCopyDone _ e => errsWf e
  | .i3cPrivateWrite _ i _ => i.wf
  | _ => true

end Sys2Proof
end

