-- ==== Sys2Proof/Machine/Scalar.lean ====
section
/-! DEFINITION. The scalar core S (08): fetch, decode, issue, its instructions, caches and pushes. -/

namespace Sys2Proof.Machine

/-! Instruction fields (08 R167). -/

def sOp (w : Nat) : Nat := bitsOf w 0 7
def sRd (w : Nat) : Nat := bitsOf w 7 5
def sRa (w : Nat) : Nat := bitsOf w 12 5
def sRb (w : Nat) : Nat := bitsOf w 17 5
def sFn (w : Nat) : Nat := bitsOf w 22 10
/-- The 15-bit immediate of format I, and the offset of format B. -/
def sImm (w : Nat) : Int := signed 15 (bitsOf w 17 15)
/-- The raw 20-bit immediate of format U. -/
def sUimm (w : Nat) : Nat := bitsOf w 12 20
/-- Format G: the landing counter and the offset. -/
def sLc (w : Nat) : Nat := bitsOf w 17 6
def sGoff (w : Nat) : Int := signed 9 (bitsOf w 23 9)
/-- Formats E and Y. -/
def sQ (w : Nat) : Nat := bitsOf w 7 2
def sSlot (w : Nat) : Nat := bitsOf w 9 2
def sWord (w : Nat) : Nat := bitsOf w 11 4
def sCtr (w : Nat) : Nat := bitsOf w 7 8
def sEa (w : Nat) : Nat := bitsOf w 15 5
def sEb (w : Nat) : Nat := bitsOf w 20 5

/-- A pair operand: even, not g0 (08 R165). -/
def isPair (r : Nat) : Bool := r % 2 == 0 && r != 0

/-- Whether a word is a valid instruction (08 R165, R167, R168). -/
def sValid (w : Nat) : Bool :=
  let op := sOp w
  if op = 0x01 then sFn w ≤ 11
  else if op = 0x06 then bitsOf w 24 8 == 0 && bitsOf w 22 2 != 3
  else if op = 0x0A ∨ op = 0x0B ∨ op = 0x0C then isPair (sRa w)
  else if op = 0x0F ∨ op = 0x10 then isPair (sRd w)
  else if op = 0x20 ∨ op = 0x21 ∨ op = 0x22 then bitsOf w 25 7 == 0 && sQ w != 3
  else if op = 0x29 then bitsOf w 25 7 == 0 && isPair (sEb w)
  else if 0x28 ≤ op ∧ op ≤ 0x2F then bitsOf w 25 7 == 0
  else if op = 0x30 ∨ op = 0x31 then bitsOf w 7 25 == 0
  else if op = 0x38 then isPair (sRd w) && sUimm w == 0
  else sOpcodes.contains op

/-- The general registers that an instruction reads. -/
def sReads (w : Nat) : List Nat :=
  let op := sOp w
  if op = 0x01 then [sRa w, sRb w]
  else if op = 0x0A ∨ op = 0x0B then [sRa w, sRa w + 1]
  else if op = 0x0C then [sRd w, sRa w, sRa w + 1]
  else if op = 0x09 ∨ op = 0x0E then [sRa w, sRd w]
  else if op = 0x10 then [sRa w, sRd w, sRd w + 1]
  else if 0x11 ≤ op ∧ op ≤ 0x16 then [sRd w, sRa w]
  else if op = 0x20 then [sEa w, sEb w]
  else if op = 0x21 then [sEb w]
  else if op = 0x29 then [sEa w, sEb w, sEb w + 1]
  else if op = 0x22 ∨ 0x28 ≤ op ∧ op ≤ 0x2F then [sEa w]
  else if op = 0x07 ∨ op = 0x17 ∨ 0x30 ≤ op then []
  else [sRa w]

/-- The general registers that an instruction writes. -/
def sWrites (w : Nat) : List Nat :=
  let op := sOp w
  if op = 0x0F ∨ op = 0x38 then [sRd w, sRd w + 1]
  else if op = 0x09 ∨ op = 0x0C ∨ op = 0x0E ∨ op = 0x10 ∨ 0x11 ≤ op ∧ op ≤ 0x16 ∨ 0x20 ≤ op then []
  else [sRd w]

/-! General registers (08 R165): g0 reads as zero and discards writes; a register not listed is 0. -/

def Tile.gr (x : Tile) (n : Nat) : Nat := if n = 0 then 0 else (kget x.g n 0).toNat
def Tile.setG (x : Tile) (n v : Nat) : Tile :=
  if n = 0 then x
  else if v % 2 ^ 32 = 0 then { x with g := kdel x.g n }
  else { x with g := kput x.g n (BitVec.ofNat 32 v) }
def Tile.pair (x : Tile) (n : Nat) : Nat := x.gr n + 2 ^ 32 * x.gr (n + 1)
def Tile.setPair (x : Tile) (n v : Nat) : Tile := (x.setG n v).setG (n + 1) (v / 2 ^ 32)

/-- ra + imm, modulo 2³². -/
def Tile.index (x : Tile) (w : Nat) : Nat := ((x.gr (sRa w) + sImm w) % 2 ^ 32).toNat

/-- The program counter: 24 bits; a value outside them faults at the next fetch (08 R166, R172). -/
def Tile.setPc (x : Tile) (n : Int) : Tile :=
  { x.wr F.TILE_S_PC_pc (n % 2 ^ 24).toNat with pcOut := !(decide (0 ≤ n) && decide (n < 2 ^ 24)) }

def Tile.pc (x : Tile) : Nat := x.rd F.TILE_S_PC_pc

/-! Caches (08 R172 to R175): 512 lines of 64 bytes, four ways. -/

/-- The line of an address. -/
def lineAt (l : List Line) (a : Nat) : Option Line := l.find? (fun e => e.addr == a / 64 * 64)
/-- The lines without that of `a`. -/
def dropLine (l : List Line) (a : Nat) : List Line := l.filter (fun e => e.addr != a / 64 * 64)
/-- The set of an address. -/
def cacheSet (a : Nat) : Nat := a / 64 % 128
/-- A line filled: when its set holds four lines, one of them goes, by a free choice (the spec states no replacement; log 3). -/
def fillLine (l : List Line) (e : Line) (choice : Nat) : List Line :=
  let m := dropLine l e.addr
  let same := m.filter (fun q => cacheSet q.addr == cacheSet e.addr)
  if same.length < 4 then m ++ [e]
  else
    match same[choice % same.length]? with
    | some v => m.filter (fun q => q.addr != v.addr) ++ [e]
    | none => m ++ [e]

/-- A cache parity error at a global address (08 R175, 17 R367, R381, R382): counted and recorded as corrected. -/
def State.cacheParity (s : State) (t a : Nat) : State := (s.record { s.recOfTile 1 5 0 t with addr := a }).age (s.site t) 1 0

/-! Issue (08 R166, R170 to R172; 11 R251). -/

/-- A fault of S. -/
def State.sFault (s : State) (t cause pc : Nat) (trap : Nat := 0) (ecc : Option Nat := none) : State := s.tileFault t .s cause pc trap ecc

/-- S waits before it issues, for a reason of TILE_S_STATUS.stall. -/
def State.sStall (s : State) (t kind : Nat) : State := s.setTile t ((s.tile t).stallFor s.time kind .stalled)

/-- The global address of the fetch. -/
def Tile.fetchAddr (x : Tile) : Nat := (x.rd F.TILE_S_CODE_BASE_base + x.pc) % 2 ^ 64

/-- The line of the next instruction is read as an execute request (08 R172). -/
def State.fetchLine (s : State) (t : Nat) : State :=
  let x := s.tile t
  if x.loads.any (·.kind == 2) then s
  else
    let (tag, y) := x.takeTag
    let a := x.fetchAddr / 64 * 64
    let s1 := (s.setTile t { y with loads := y.loads ++ [{ tag := tag, kind := 2, pc := x.pc, rd := 0, addr := a }] }).sStall t 5
    s1.sendRead (s1.reqOf t .s true tag a) 64

/-- S may issue: RUNNING, no global stop, no hold of a dump, no wait in progress. -/
def State.sFree (s : State) (t : Nat) : Bool :=
  let x := s.tile t
  x.running && !s.stopped && !x.hold && (x.swait == .none || x.swait == .stalled)

/-- The global address of LD.G, LD.GC and ST.G: a pair plus an offset in words. -/
def Tile.globalAddr (x : Tile) (p : Nat) (off : Int) : Nat := ((x.pair p + off * 4) % 2 ^ 64).toNat

/-- Why the instruction `w` does not issue yet: 0 it does, 4 it uses the result of a load (08 R170), 6 PK1 ordering. -/
def Tile.blocks (x : Tile) (w : Nat) : Nat :=
  let op := sOp w
  if x.loads.any (fun l => l.kind != 2 && l.rd != 0 && (sReads w).contains l.rd) then 4
  else if x.rd F.TILE_MM_STATUS_pk1 = 1 ∧ (0x08 ≤ op ∧ op ≤ 0x10 ∨ op = 0x30 ∨ op = 0x31) ∧ (x.accessesDone && x.idleEngines) = false then 6
  else 0

/-- The general registers that an instruction writes are those of no earlier load any more: its value is the later one (08 R170; log 64). -/
def Tile.overwrites (x : Tile) (w : Nat) : Tile :=
  { x with loads := x.loads.map (fun l => if l.kind ≠ 2 ∧ (sWrites w).contains l.rd = true then { l with rd := 0 } else l) }

/-- S has 8 global loads, or 16 global stores and SIGNAL.Rs, outstanding (08 R170). -/
def Tile.loadsFull (x : Tile) : Bool := 8 ≤ (x.loads.filter (·.kind != 2)).length
def Tile.storesFull (x : Tile) : Bool := 16 ≤ (x.stores.filter (·.engine == 2)).length

/-- The rows that may change a sync counter: SIGNAL, SIGNAL.R to the own tile, TAKE, SET, and REG.W by way of TILE_SYNC_SIGNAL. -/
def changesCtr (op : Nat) : Bool := op == 0x28 || op == 0x29 || op == 0x2C || op == 0x2D || op == 0x0E || op == 0x10

/-- The state in which S looks at the row of opcode `op`: an instruction that changes no counter issues after the open cycle (12 R261). -/
def State.sAt (s : State) (i : SIssue) (op : Nat) : State := if s.sFree i.tile && changesCtr op then s else s.endCycle i.tile

/-- The row of opcode `op`: fetch, check and issue of the next instruction. `f` gets the state in which S has issued it, PC advanced, and
the PC of the instruction. Nothing happens when S may not issue, or when the word is not the one fetched or belongs to another row. -/
def State.sRow (s0 : State) (i : SIssue) (op : Nat) (f : State → Nat → State) : State :=
  let t := i.tile.val
  let s := s0.sAt i op
  let x := s.tile t
  let w := i.word.toNat
  let pc := x.pc
  if !s.sFree t then s
  else if x.pcOut then s.sFault t 0x06 pc
  else
    match lineAt x.icache x.fetchAddr with
    | none => s.fetchLine t
    | some l =>
      if leNat (sub l.data (x.fetchAddr % 64) 4) ≠ w then s
      else if sOp w ≠ op && sOpcodes.contains (sOp w) then s
      else if i.parity then
        ((s.setTile t { x with icache := dropLine x.icache x.fetchAddr }).cacheParity t x.fetchAddr).fetchLine t
      else if !sValid w then s.sFault t 0x01 pc
      else if x.blocks w ≠ 0 then s.sStall t (x.blocks w)
      else
        let s1 := s.setTile t ((x.overwrites w).unstall.setPc (pc + 4))
        if i.diverge then s1.sFault t 0x08 pc else f s1 pc

/-- A row that only changes the tile. -/
def State.sTile (s : State) (i : SIssue) (op : Nat) (f : Tile → Nat → Tile) : State :=
  s.sRow i op (fun a pc => a.setTile i.tile (f (a.tile i.tile) pc))

/-! Arithmetic. -/

/-- A word as two's complement. -/
def asInt (v : Nat) : Int := signed 32 v

/-- The ALU's operations (08 R168). -/
def aluOp (fn a b : Nat) : Nat :=
  match fn with
  | 0 => (a + b) % 2 ^ 32
  | 1 => (a + 2 ^ 32 - b) % 2 ^ 32
  | 2 => a &&& b
  | 3 => a ||| b
  | 4 => a ^^^ b
  | 5 => (a <<< (b % 32)) % 2 ^ 32
  | 6 => a >>> (b % 32)
  | 7 => ((asInt a >>> (b % 32)) % 2 ^ 32).toNat
  | 8 => b2n (asInt a < asInt b)
  | 9 => b2n (a < b)
  | 10 => a * b % 2 ^ 32
  | _ => a * b / 2 ^ 32

/-- The immediate as a word. -/
def immWord (w : Nat) : Nat := (sImm w % 2 ^ 32).toNat

def execAlu (i : SIssue) (s : State) : Res :=
  let w := i.word.toNat
  ok (s.sTile i 0x01 (fun x _ => x.setG (sRd w) (aluOp (sFn w) (x.gr (sRa w)) (x.gr (sRb w)))))

def execAddi (i : SIssue) (s : State) : Res :=
  let w := i.word.toNat
  ok (s.sTile i 0x02 (fun x _ => x.setG (sRd w) (aluOp 0 (x.gr (sRa w)) (immWord w))))

def execAndi (i : SIssue) (s : State) : Res :=
  let w := i.word.toNat
  ok (s.sTile i 0x03 (fun x _ => x.setG (sRd w) (aluOp 2 (x.gr (sRa w)) (immWord w))))

def execOri (i : SIssue) (s : State) : Res :=
  let w := i.word.toNat
  ok (s.sTile i 0x04 (fun x _ => x.setG (sRd w) (aluOp 3 (x.gr (sRa w)) (immWord w))))

def execXori (i : SIssue) (s : State) : Res :=
  let w := i.word.toNat
  ok (s.sTile i 0x05 (fun x _ => x.setG (sRd w) (aluOp 4 (x.gr (sRa w)) (immWord w))))

/-- SHI: imm[6:5] selects SLL, SRL, SRA; imm[4:0] the distance. -/
def execShi (i : SIssue) (s : State) : Res :=
  let w := i.word.toNat
  ok (s.sTile i 0x06 (fun x _ => x.setG (sRd w) (aluOp (5 + bitsOf w 22 2) (x.gr (sRa w)) (bitsOf w 17 5))))

def execLui (i : SIssue) (s : State) : Res :=
  let w := i.word.toNat
  ok (s.sTile i 0x07 (fun x _ => x.setG (sRd w) (sUimm w * 4096)))

/-! Scratchpad (08 R169). -/

/-- The address check of LD.W and ST.W, and the access. -/
def State.sSpad (s : State) (t a pc : Nat) (f : State → State) : State :=
  if a % 4 ≠ 0 then s.sFault t 0x02 pc else if spadSize < a + 4 then s.sFault t 0x03 pc else f s

def execLdW (i : SIssue) (s : State) : Res :=
  let w := i.word.toNat
  ok (s.sRow i 0x08 (fun s1 pc =>
    let a := (s1.tile i.tile).index w
    s1.sSpad i.tile a pc (fun s2 => ((s2.drainSome i.tile).countSpad i.tile 0 4).withEcc i.tile i.ecc (fun w b => b.sFault i.tile 0x07 pc 0 (some w))
      (fun b => b.setTile i.tile ((b.tile i.tile).setG (sRd w) (leNat (b.spadBytes i.tile a 4)))))))

def execStW (i : SIssue) (s : State) : Res :=
  let w := i.word.toNat
  ok (s.sRow i 0x09 (fun s1 pc =>
    let x := s1.tile i.tile
    s1.sSpad i.tile (x.index w) pc (fun s2 => s2.spadWrite i.tile (x.index w) (leBytes 4 (x.gr (sRd w))))))

/-! Global loads and stores (08 R170, R173, R174). -/

/-- S's outstanding stores that a load waits for in the tile (11 R235): those to the same aligned 8 bytes, or to the line of a fill. -/
def Tile.storesAt (x : Tile) (kind a : Nat) : List Nat :=
  let g := if kind = 1 then 64 else 8
  (x.stores.filter (fun e => e.engine == 2 && !e.signal && e.addr / g == a / g)).map (·.tag)

/-- S's outstanding loads that a store waits for in the tile: those of the same aligned 8 bytes. -/
def Tile.loadsAt (x : Tile) (a : Nat) : List Nat := (x.loads.filter (fun l => l.kind != 2 && l.addr / 8 == a / 8)).map (·.tag)

/-- S's earlier loads of the same aligned 8 bytes that still wait in the tile. -/
def Tile.loadsHeld (x : Tile) (a : Nat) : List Nat :=
  (x.loads.filter (fun l => l.kind != 2 && !l.wait.isEmpty && l.addr / 8 == a / 8)).map (·.tag)

/-- A load issued: kind 0 a word, 1 a fill of the whole line. Its request leaves after S's earlier accesses to the location (11 R235). -/
def State.issueLoad (s : State) (t kind pc rd a : Nat) : State :=
  let (tag, y) := (s.tile t).takeTag
  let l : Load := { tag := tag, kind := kind, pc := pc, rd := rd, addr := a, wait := y.storesAt kind a ++ y.loadsHeld a }
  let s1 := s.setTile t { y with loads := y.loads ++ [l] }
  if l.wait.isEmpty then s1.sendLoad t l else s1

def execLdG (i : SIssue) (s : State) : Res :=
  let w := i.word.toNat
  ok (s.sRow i 0x0A (fun s1 pc =>
    let a := (s1.tile i.tile).globalAddr (sRa w) (sImm w)
    if a % 4 ≠ 0 then s1.sFault i.tile 0x02 pc
    else if (s1.tile i.tile).loadsFull then (s.sAt i 0x0A).sStall i.tile 7
    else s1.issueLoad i.tile 0 pc (sRd w) a))

/-- LD.GC: a hit reads the line; a line in error is dropped and read again (08 R175). -/
def execLdGc (i : SIssue) (s : State) : Res :=
  let w := i.word.toNat
  ok (s.sRow i 0x0B (fun s1 pc =>
    let x := s1.tile i.tile
    let a := x.globalAddr (sRa w) (sImm w)
    if a % 4 ≠ 0 then s1.sFault i.tile 0x02 pc
    else
      match lineAt x.dcache a with
      | none => if x.loadsFull then (s.sAt i 0x0B).sStall i.tile 7 else s1.issueLoad i.tile 1 pc (sRd w) a
      | some l =>
        if i.ecc = .ok then s1.setTile i.tile (x.setG (sRd w) (leNat (sub l.data (a % 64) 4)))
        else if x.loadsFull then (s.sAt i 0x0B).sStall i.tile 7
        else ((s1.setTile i.tile { x with dcache := dropLine x.dcache a }).cacheParity i.tile a).issueLoad i.tile 1 pc (sRd w) a))

/-- The bytes of a hit line replaced (08 R174). -/
def storeLine (l : List Line) (a : Nat) (d : List Byte) : List Line :=
  l.map (fun e => if e.addr == a / 64 * 64 then { e with data := e.data.take (a % 64) ++ d ++ e.data.drop (a % 64 + d.length) } else e)

/-- Fills in flight of the lines that `p` holds of are not kept: their data may be older than S's store, or than an acquire (11 R235, R243). -/
def Tile.stopFills (x : Tile) (p : Nat → Bool) : Tile :=
  { x with loads := x.loads.map (fun l => if l.kind = 1 ∧ p l.addr = true then { l with keep := false } else l) }

def execStG (i : SIssue) (s : State) : Res :=
  let w := i.word.toNat
  ok (s.sRow i 0x0C (fun s1 pc =>
    let x := s1.tile i.tile
    let a := x.globalAddr (sRa w) (sGoff w)
    let d := leBytes 4 (x.gr (sRd w))
    if a % 4 ≠ 0 then s1.sFault i.tile 0x02 pc
    else if x.storesFull then (s.sAt i 0x0C).sStall i.tile 7
    else ((s1.setTile i.tile (({ x with dcache := storeLine x.dcache a d } : Tile).stopFills (fun b => b / 64 == a / 64))).issueWrite i.tile .s pc a (sLc w) d
      (x.loadsAt a)).1))

/-! The tile's own page (08 R169). -/

/-- The check of a REG access of `size` bytes: aligned, below 0x8000, at a register. -/
def regOk (o size : Nat) : Bool := o % size == 0 && o < 0x8000 && (findRow tileRows (o - o % 8)).isSome

/-- A REG access, or S_BAD_ADDR. -/
def State.sReg (s : State) (i : SIssue) (op size : Nat) (f : State → Tile → Nat → State) : State :=
  s.sRow i op (fun a pc =>
    let x := a.tile i.tile
    let o := x.index i.word.toNat
    if regOk o size then f a x o else a.sFault i.tile 0x03 pc)

def execRegR (i : SIssue) (s : State) : Res :=
  ok (s.sReg i 0x0D 4 (fun a x o =>
    a.setTile i.tile (x.setG (sRd i.word.toNat) (bits (a.tileView i.tile (o - o % 8)) (8 * (o % 8)) 32))))

def execRegW (i : SIssue) (s : State) : Res :=
  ok (s.sReg i 0x0E 4 (fun a x o => a.tileWrite none i.tile o 4 (x.gr (sRd i.word.toNat))))

def execRegR64 (i : SIssue) (s : State) : Res :=
  ok (s.sReg i 0x0F 8 (fun a x o => a.setTile i.tile (x.setPair (sRd i.word.toNat) (a.tileView i.tile o).toNat)))

def execRegW64 (i : SIssue) (s : State) : Res :=
  ok (s.sReg i 0x10 8 (fun a x o => a.tileWrite none i.tile o 8 (x.pair (sRd i.word.toNat))))

/-! Branches and jumps (08 R168). -/

/-- A branch on the comparison of ra and rb, at [11:7] and [16:12]. -/
def State.sBranch (s : State) (i : SIssue) (op : Nat) (cmp : Nat → Nat → Bool) : State :=
  let w := i.word.toNat
  s.sTile i op (fun x pc => if cmp (x.gr (sRd w)) (x.gr (sRa w)) then x.setPc (pc + sImm w * 4) else x)

def execBeq (i : SIssue) (s : State) : Res := ok (s.sBranch i 0x11 (fun a b => a == b))
def execBne (i : SIssue) (s : State) : Res := ok (s.sBranch i 0x12 (fun a b => a != b))
def execBlt (i : SIssue) (s : State) : Res := ok (s.sBranch i 0x13 (fun a b => decide (asInt a < asInt b)))
def execBge (i : SIssue) (s : State) : Res := ok (s.sBranch i 0x14 (fun a b => decide (asInt b ≤ asInt a)))
def execBltu (i : SIssue) (s : State) : Res := ok (s.sBranch i 0x15 (fun a b => decide (a < b)))
def execBgeu (i : SIssue) (s : State) : Res := ok (s.sBranch i 0x16 (fun a b => decide (b ≤ a)))

def execJal (i : SIssue) (s : State) : Res :=
  let w := i.word.toNat
  ok (s.sTile i 0x17 (fun x pc => (x.setG (sRd w) (pc + 4)).setPc (pc + signed 20 (sUimm w) * 4)))

def execJalr (i : SIssue) (s : State) : Res :=
  let w := i.word.toNat
  ok (s.sTile i 0x18 (fun x pc => (x.setG (sRd w) (pc + 4)).setPc ((x.index w &&& 0xFFFFFC : Nat) : Int)))

/-! Staging slots and pushes (08 R176, R177). -/

/-- The engine of q: 0 M, 1 V, 2 D. -/
def engOfQ (q : Nat) : Nat := if q = 2 then 3 else q
/-- The key of a staging word. -/
def stageKey (q slot word : Nat) : Nat := (q * 4 + slot) * 16 + word
/-- The slot of an E-format word. -/
def Tile.slotOf (x : Tile) (w : Nat) : Nat := (sSlot w + x.gr (sEb w)) % 4

def execCw (i : SIssue) (s : State) : Res :=
  let w := i.word.toNat
  ok (s.sTile i 0x20 (fun x _ =>
    let k := stageKey (sQ w) (x.slotOf w) (sWord w)
    let v := x.gr (sEa w)
    { x with stage := if v = 0 then kdel x.stage k else kput x.stage k (BitVec.ofNat 32 v) }))

/-- A push into engine `e`'s queue, or S's stall while it is full. -/
def Tile.push (x : Tile) (tn cyc now e pc : Nat) (b : List Byte) : Tile :=
  let c : Cmd := { bytes := b, pc := pc, seq := x.pushes }
  let y := { x with pushes := x.pushes + 1 }
  if (x.q e).length < qSize e then (y.setQ e (y.q e ++ [c])).lookHead tn cyc e
  else y.stallFor now 1 (.queueFull e c)

/-- The 64 bytes of a staging slot. -/
def Tile.slotBytes (x : Tile) (q slot : Nat) : List Byte :=
  ((List.range 16).map (fun k => leBytes 4 (kget x.stage (stageKey q slot k) 0).toNat)).flatten

def execEnq (i : SIssue) (s : State) : Res :=
  let w := i.word.toNat
  ok (s.sTile i 0x21 (fun x pc => x.push s.tn s.sinceEdge s.time (engOfQ (sQ w)) pc (x.slotBytes (sQ w) (x.slotOf w))))

def execEnqs (i : SIssue) (s : State) : Res :=
  let w := i.word.toNat
  ok (s.sRow i 0x22 (fun s1 pc =>
    let a := (s1.tile i.tile).gr (sEa w)
    if a % 64 ≠ 0 then s1.sFault i.tile 0x02 pc
    else if spadSize < a + 64 then s1.sFault i.tile 0x03 pc
    else
      ((s1.drainSome i.tile).countSpad i.tile 0 64).withEcc i.tile i.ecc (fun w b => b.sFault i.tile 0x07 pc 0 (some w))
        (fun b => b.setTile i.tile ((b.tile i.tile).push b.tn b.sinceEdge b.time (engOfQ (sQ w)) pc (b.spadBytes i.tile a 64)))))

/-! Sync and landing counters (12 R254 to R258, 11 R238, R243). -/

def execSignal (i : SIssue) (s : State) : Res :=
  let w := i.word.toNat
  ok (s.sRow i 0x28 (fun a _ => a.signalLocal i.tile 7 (sCtr w) ((a.tile i.tile).gr (sEa w))))

/-- The tile whose scratchpad window or TILE_ page holds a device-local address (12 R258). -/
def State.signalTile (s : State) (a : Nat) : Option Nat :=
  if 0xFFFFFC000000 ≤ a then
    (match regPlace (a - 0xFFFFFC000000) with | .tile t _ => if s.present t then some t else none | _ => none)
  else match s.target a 1 with | .spad t _ => some t | _ => none

def execSignalR (i : SIssue) (s : State) : Res :=
  let w := i.word.toNat
  ok (s.sRow i 0x29 (fun s1 pc =>
    let x := s1.tile i.tile
    let a := x.pair (sEb w)
    let n := x.gr (sEa w)
    if devOf a = s1.devId ∧ s1.signalTile (a % 2 ^ 48) = some i.tile.val then s1.signalLocal i.tile 7 (sCtr w) n
    else if x.storesFull then (s.sAt i 0x29).sStall i.tile 7
    else
      let (tag, y) := x.takeTag
      let st : Store := { tag := tag, engine := 2, pc := pc, addr := a, lc := 0xFF, bytes := 0, time := s1.time, signal := true }
      let s2 := s1.setTile i.tile { y with stores := y.stores ++ [st] }
      s2.sendSignal (s2.reqOf i.tile .s false tag a) (sCtr w) n))

/-- S begins a wait that is not satisfied: WAIT_BEGIN and the stall. -/
def Tile.beginWait (x : Tile) (tn cyc now kind arg : Nat) (w : SWait) : Tile := (x.stallFor now kind w).event tn cyc 2 5 arg

/-- WAIT and WAIT.ACQ. -/
def Tile.waitOn (x : Tile) (tn cyc now c thr : Nat) (acq : Bool) : Tile :=
  if satisfies (x.ctr c) thr then (if acq then x.acquire else x)
  else (x.setWaiting c 2 true).beginWait tn cyc now 2 (c + 1024 * thr) (.counter c thr false acq)

def execWait (i : SIssue) (s : State) : Res :=
  let w := i.word.toNat
  ok (s.sTile i 0x2A (fun x _ => x.waitOn s.tn s.sinceEdge s.time (sCtr w) (x.gr (sEa w)) false))

def execWaitAcq (i : SIssue) (s : State) : Res :=
  let w := i.word.toNat
  ok (s.sTile i 0x2B (fun x _ => x.waitOn s.tn s.sinceEdge s.time (sCtr w) (x.gr (sEa w)) true))

/-- TAKE n, n below 2³¹ (12 R257, R261): TAKE 0 changes nothing; one that is not satisfied is tested again in every cycle. -/
def State.takeFrom (s : State) (t c n : Nat) : State :=
  if n = 0 then s
  else if satisfies ((s.tile t).ctr c) n then s.sync t 11 (fun x => x.setCtr s.tn c ((x.ctr c + 2 ^ 32 - n) % 2 ^ 32))
  else s.setTile t (((s.tile t).setWaiting c 2 true).beginWait s.tn s.sinceEdge s.time 2 (c + 512 + 1024 * n) (.counter c n true false))

def execTake (i : SIssue) (s : State) : Res :=
  let w := i.word.toNat
  ok (s.sRow i 0x2C (fun s1 pc =>
    let x := s1.tile i.tile
    if 2 ^ 31 ≤ x.gr (sEa w) then s1.sFault i.tile 0x01 pc
    else s1.takeFrom i.tile (sCtr w) (x.gr (sEa w))))

def execSet (i : SIssue) (s : State) : Res :=
  let w := i.word.toNat
  ok (s.sRow i 0x2D (fun a _ => let v := (a.tile i.tile).gr (sEa w); a.sync i.tile 9 (fun x => x.setCtr a.tn (sCtr w) v)))

/-- LWAIT and LWAIT.ACQ. -/
def Tile.lwaitOn (x : Tile) (tn cyc now c thr : Nat) (acq : Bool) : Tile :=
  if satisfies (x.rd (F.TILE_LC_count c)) thr then (if acq then x.acquire else x)
  else x.beginWait tn cyc now 3 (c + 256 + 1024 * thr) (.landing c thr acq)

def execLwait (i : SIssue) (s : State) : Res :=
  let w := i.word.toNat
  ok (s.sTile i 0x2E (fun x _ => x.lwaitOn s.tn s.sinceEdge s.time (sCtr w % 64) (x.gr (sEa w)) false))

def execLwaitAcq (i : SIssue) (s : State) : Res :=
  let w := i.word.toNat
  ok (s.sTile i 0x2F (fun x _ => x.lwaitOn s.tn s.sinceEdge s.time (sCtr w % 64) (x.gr (sEa w)) true))

/-! Fences, caches, the rest (11 R240 to R243; 08 R168, R182, R184). -/

def execFenceLocal (i : SIssue) (s : State) : Res :=
  ok (s.sRow i 0x30 (fun s1 _ =>
    (s1.setTile i.tile (((s1.tile i.tile).stallFor s1.time 6 .fenceLocal).wr F.TILE_MM_STATUS_fence_local 1)).pollFence i.tile))

def execFenceRemote (i : SIssue) (s : State) : Res :=
  ok (s.sRow i 0x31 (fun s1 _ =>
    let x := s1.tile i.tile
    (s1.setTile i.tile ((x.stallFor s1.time 6 (.fenceRemote (x.rd F.TILE_MM_ISSUED_bytes) x.nextTag)).wr
      F.TILE_MM_STATUS_fence_remote 1)).pollFence i.tile))

def execCinvRemote (i : SIssue) (s : State) : Res := ok (s.sTile i 0x32 (fun x _ => x.acquire))
def execCinvAll (i : SIssue) (s : State) : Res := ok (s.sTile i 0x33 (fun x _ => { x.acquire with icache := [] }))
def execTime (i : SIssue) (s : State) : Res := ok (s.sTile i 0x38 (fun x _ => x.setPair (sRd i.word.toNat) s.tn))
def execEvt (i : SIssue) (s : State) : Res :=
  ok (s.sTile i 0x39 (fun x _ => x.event s.tn s.sinceEdge 2 6 (sUimm i.word.toNat)))
def execTrap (i : SIssue) (s : State) : Res :=
  ok (s.sRow i 0x3A (fun s1 pc => s1.sFault i.tile 0x09 pc (sUimm i.word.toNat)))

/-- HALT: S stops issuing; a remote write that has failed before it ends the task (11 R242). -/
def execHalt (i : SIssue) (s : State) : Res :=
  ok (s.sRow i 0x3F (fun s1 pc =>
    let x := ((s1.tile i.tile).event s1.tn s1.sinceEdge 2 8 pc).wr F.TILE_S_STATUS_state 2
    if !x.fails.isEmpty then (s1.setTile i.tile (x.wr F.TILE_MM_STATUS_fence_failed 1)).sFault i.tile 0x0A pc else s1.setTile i.tile x))

end Sys2Proof.Machine
end

