-- ==== Sys2Proof/Machine/Dma.lean ====
section
/-! DEFINITION. The D engine (10): its commands' checks (R219), the fetch and execute sides (R209 to R216), streams (R217), the loft's flush
read (R229), and the completion of every engine's commands (11 R236). -/

namespace Sys2Proof.Machine

/-! A command's pattern (10 R211, R212). -/

/-- The fields of a pattern, as 64 bytes laid out as a D.COPY. -/
def dSrc (p : List Byte) : Nat := le p 16 8
def dDst (p : List Byte) : Nat := le p 24 8
def dRow (p : List Byte) : Nat := le p 32 3
def dRows (p : List Byte) : Nat := le p 36 2
def dPlanes (p : List Byte) : Nat := le p 38 2
def dFlags (p : List Byte) : Nat := le p 56 1
def dSrcGlobal (p : List Byte) : Bool := bitOf (dFlags p) 0
def dDstGlobal (p : List Byte) : Bool := bitOf (dFlags p) 1
def dDigest (p : List Byte) : Bool := bitOf (dFlags p) 2
def dKeep (p : List Byte) : Bool := bitOf (dFlags p) 3
def dLc (p : List Byte) : Nat := le p 57 1
def dSlot (p : List Byte) : Nat := le p 59 1
/-- Bytes that the pattern moves. -/
def dTotal (p : List Byte) : Nat := dRow p * dRows p * dPlanes p

/-- Place `i` of a pattern at one end: row r of plane q and byte b, in the order of R213. -/
def dAt (p : List Byte) (base s1 s2 i : Nat) : Int :=
  let line := i / dRow p
  base + (line / dRows p : Nat) * signed 32 (le p s2 4) + (line % dRows p : Nat) * signed 32 (le p s1 4) + (i % dRow p : Nat)

/-- The source and destination address of place `i`. -/
def dSrcAt (p : List Byte) (i : Nat) : Int := dAt p (dSrc p) 40 48 i
def dDstAt (p : List Byte) (i : Nat) : Int := dAt p (dDst p) 44 52 i
def addr64 (a : Int) : Nat := (a % 2 ^ 64).toNat

/-- Bytes from place `i` to the end of its row, or to the next 256-byte boundary of address `a` (R213). -/
def dSpan (p : List Byte) (i a : Nat) : Nat := min (dRow p - i % dRow p) (256 - a % 256)

/-! Checks (10 R219). -/

/-- Step 1: opcode and reserved fields. -/
def dOpOk (c : Cmd) : Bool :=
  c.headOk && (
    if c.op = 0 then c.zeroFrom 16
    else if c.op = 1 then c.f1 35 == 0 && c.f1 56 < 16 && c.zeroFrom 60
    else if c.op = 2 then allZero (sub c.bytes 32 26) && c.zeroFrom 59
    else if c.op = 3 then allZero (sub c.bytes 16 42) && c.zeroFrom 59
    else false)

/-- The digest slot and byte count of a pattern (20 R426). -/
def Tile.dDigOk (x : Tile) (p : List Byte) : Bool :=
  !dDigest p || (dSlot p < 16 && dTotal p % digBytes (x.rd (F.TILE_DIG_CFG_fmt (dSlot p))) == 0)

/-- The first place of an end whose own-scratchpad row leaves the 3 MiB, as the offset of its first byte outside. -/
def dBadByte (p : List Byte) (at_ : List Byte → Nat → Int) : Option Int :=
  (List.range (dRows p * dPlanes p)).findSome? (fun r =>
    let a := at_ p (r * dRow p)
    if a < 0 ∨ (spadSize : Int) ≤ a then some a else if (spadSize : Int) < a + dRow p then some spadSize else none)

/-- Whether an end's extremes stay inside the scratchpad: the corners of the pattern. -/
def dInside (p : List Byte) (base s1 s2 : Nat) : Bool :=
  let e1 := (dRows p - 1 : Nat) * signed 32 (le p s1 4)
  let e2 := (dPlanes p - 1 : Nat) * signed 32 (le p s2 4)
  decide (0 ≤ base + min 0 e1 + min 0 e2) && decide (base + max 0 e1 + max 0 e2 + dRow p ≤ (spadSize : Int))

/-- Step 4: the first own-scratchpad byte out of range, source before destination (R212). -/
def dBadAddr (p : List Byte) : Option Int :=
  match if dSrcGlobal p ∨ dInside p (dSrc p) 40 48 = true then none else dBadByte p dSrcAt with
  | some a => some a
  | none => if dDstGlobal p ∨ dInside p (dDst p) 44 52 = true then none else dBadByte p dDstAt

/-- Step 5: source and destination both in the own scratchpad share a byte (R214). -/
def dOverlap (p : List Byte) : Bool :=
  !dSrcGlobal p && !dDstGlobal p &&
  (List.range (dRows p * dPlanes p)).any (fun i => (List.range (dRows p * dPlanes p)).any (fun j =>
    let a := dSrcAt p (i * dRow p)
    let b := dDstAt p (j * dRow p)
    decide (a < b + dRow p) && decide (b < a + dRow p)))

/-- The pattern that a command runs: its own, or its armed slot's with the new bases (R217). -/
def Tile.dPattern (x : Tile) (c : Cmd) : Option (List Byte) :=
  if c.op = 1 then some c.bytes
  else (kget? x.streams (c.f1 58)).map (fun p => p.take 16 ++ sub c.bytes 16 16 ++ p.drop 32)

/-- The fault of a command at its start: code, and the address when a byte is at fault. -/
def Tile.dCheck (x : Tile) (c : Cmd) : Option (Nat × Option Int) :=
  if !dOpOk c then some (1, none)
  else if c.op = 0 then none
  else if 15 < c.f1 58 && (c.op != 1 || dKeep c.bytes) then some (2, none)
  else if c.op = 3 then none
  else
    match x.dPattern c with
    | none => some (9, none)
    | some p =>
      if dRow p = 0 ∨ dRows p = 0 ∨ dPlanes p = 0 ∨ x.dDigOk p = false then some (2, none)
      else
        match dBadAddr p with
        | some a => some (3, some a)
        | none => if dOverlap p then some (8, none) else none

/-- A fault of D: code, the address of the faulting request where there is one, the abort (R219, 08 R183). -/
def State.dFault (s : State) (t code : Nat) (addr : Option Nat) (pc : Nat) (ecc : Option Nat := none) : State :=
  let x := (s.tile t).wr F.TILE_D_STATUS_fault code
  let y := match addr with
    | some a => x.wr F.TILE_D_FAULT_ADDR_addr a
    | none => x
  (s.setTile t y).tileFault t .d (0x30 + code) pc 0 ecc

/-! The two sides (10 R209, R213, R215). -/

/-- TILE_D_STATUS and TILE_D_STREAMS follow the table and the expansion queue. -/
def Tile.dShow (x : Tile) : Tile :=
  let running := ((List.range 16).filter (fun k => x.dRun.any (fun d => d.isRun && d.cmd.f1 58 == k))).foldl (fun n k => n + 2 ^ k) 0
  x.wrs [(F.TILE_D_STATUS_outstanding, x.reqs.length), (F.TILE_D_STATUS_ahead, x.dRun.length),
    (F.TILE_D_STATUS_busy, b2n (!x.dRun.isEmpty)), (F.TILE_D_STREAMS_running, running)]

/-- Command `num` of the expansion queue replaced. -/
def Tile.setDCmd (x : Tile) (d : DCmd) : Tile := { x with dRun := x.dRun.map (fun e => if e.num == d.num then d else e) }

/-- Whether a global address is in this device's loft (R227). -/
def State.isLoft (s : State) (a : Nat) : Bool :=
  devOf a == s.devId && (match s.target (a % 2 ^ 48) 1 with | .loft _ => true | _ => false)

/-- The PC of the ENQ that pushed a request's command. -/
def Tile.reqPc (x : Tile) (r : DReq) : Nat := ((x.dRun.find? (·.num == r.cmd)).map (·.cmd.pc)).getD 0

/-- Places of the request table, and of the return buffer, in use. -/
def Tile.tableFull (x : Tile) : Bool := 768 ≤ x.reqs.length
def Tile.bufferFull (x : Tile) : Bool :=
  768 ≤ (x.reqs.filter (·.phase == 0)).length + ((x.dRun.map (·.wr.length)).foldl (· + ·) 0)

/-- Bytes that command `d` moved, added in the order of R213 to its digest slot, element by element (10 R218, 20 R427); what an abort leaves
out stays out (20 R430). -/
def Tile.dMoved (x : Tile) (d : DCmd) (b : List Byte) : Tile :=
  match d.dig with
  | none => x.setDCmd d
  | some (n, i) =>
    let k := digBytes (x.rd (F.TILE_DIG_CFG_fmt n))
    let l := d.got ++ b
    let m := l.length / k
    (x.digAdd n i (x.digWords n (l.take (m * k)))).setDCmd { d with dig := some (n, i + m), got := l.drop (m * k) }

/-- The first piece of a command's data written, up to the end of its row and the next 256-byte boundary of the destination; none when
the request table is full. -/
def State.dWriteOne (s : State) (t : Nat) (d : DCmd) (i : Nat) (b : List Byte) (rest : List (Nat × List Byte)) : Option State :=
  let x := s.tile t
  let p := d.pat
  let a := addr64 (dDstAt p i)
  let n := min b.length (dSpan p i a)
  let d1 := { d with
    wr := if n < b.length then (i + n, b.drop n) :: rest else rest
    wpos := i + n }
  if !dDstGlobal p then some ((s.setTile t (x.dMoved d1 (b.take n))).spadWrite t a (b.take n))
  else if s.isLoft a then
    let r := s.issueWrite t .d d.cmd.pc a (dLc p) (b.take n)
    some (r.1.setTile t ((r.1.tile t).dMoved { d1 with loft := d1.loft ++ [r.2], last := some (a + n - 1) } (b.take n)))
  else if x.tableFull then none
  else
    let r := s.issueWrite t .d d.cmd.pc a (dLc p) (b.take n)
    let y := (r.1.tile t).dMoved d1 (b.take n)
    some (r.1.setTile t { y with reqs := y.reqs ++ [⟨r.2, d.num, 1, a, n, i, s.time⟩] })

/-- The next piece of a command fetched, up to the end of its row and the next 256-byte boundary of the source: own bytes at once, global
bytes by a request; none when no entry is free. An uncorrectable word faults D_ECC with the address of the read (R219). -/
def State.dFetchOne (s : State) (t : Nat) (d : DCmd) : Option State :=
  let x := s.tile t
  let p := d.pat
  let a := addr64 (dSrcAt p d.pos)
  let n := dSpan p d.pos a
  if x.bufferFull then none
  else if !dSrcGlobal p then
    if eccBad d.ecc && eccHits d.ecc a n then some ((s.dFault t 6 (some a) d.cmd.pc (some (eccWord d.ecc))))
    else
      let s1 := ((s.drainSome t).eccNoted t d.ecc a n).countSpad t 0 n
      some (s1.setTile t ((s1.tile t).setDCmd
        { d with pos := d.pos + n, wr := d.wr ++ [(d.pos, s1.spadBytes t a n)], ecc := if eccHits d.ecc a n then .ok else d.ecc }))
  else if x.tableFull then none
  else
    let (tag, y) := x.takeTag
    let z := y.setDCmd { d with pos := d.pos + n }
    let s1 := s.setTile t { z with reqs := z.reqs ++ [⟨tag, d.num, 0, a, n, d.pos, s.time⟩] }
    some (s1.sendRead (s1.reqOf t .d false tag a) n)

/-- All of a command's bytes have left D. -/
def Tile.dSentAll (x : Tile) (d : DCmd) : Bool :=
  d.pos == dTotal d.pat && d.wr.isEmpty && !x.reqs.any (fun r => r.cmd == d.num && r.phase == 0)

/-- The flush read of a command's loft writes (R229): zero bytes, at the last byte written. -/
def State.dFlush (s : State) (t : Nat) (d : DCmd) (a : Nat) : State :=
  let (tag, y) := (s.tile t).takeTag
  let z := y.setDCmd { d with flush := 1 }
  let s1 := s.setTile t { z with reqs := z.reqs ++ [⟨tag, d.num, 2, a, 0, 0, s.time⟩] }
  s1.sendRead (s1.reqOf t .d false tag a) 0

/-- One action of D: the execute side's next write, each command's in the order of R213 (11 R235), or the fetch side's next read, or a flush read that is due. -/
def State.dStep (s : State) (t : Nat) : Option State :=
  let x := s.tile t
  match x.dRun.findSome? (fun d => match d.wr with | [] => none | e :: l => if e.1 = d.wpos then some (d, e, l) else none) with
  | some (d, e, l) => s.dWriteOne t d e.1 e.2 l
  | none =>
    match x.dRun.find? (fun d => d.flush == 0 && d.last.isSome && x.dSentAll d) with
    | some d => if x.tableFull then none else some (s.dFlush t d (d.last.getD 0))
    | none =>
      match x.dRun.find? (fun d => d.pos < dTotal d.pat) with
      | some d => s.dFetchOne t d
      | none => none

/-- D acts until it has to wait. -/
def State.dActs (s : State) (t : Nat) : Nat → State
  | 0 => s
  | n + 1 =>
    match s.dStep t with
    | none => s
    | some s1 => s1.dActs t n

/-- Actions that D can take at most: each moves a byte, or is one flush. -/
def Tile.dWork (x : Tile) : Nat :=
  (x.dRun.map (fun d => (dTotal d.pat - d.pos) * 2 + (d.wr.map (·.2.length)).foldl (· + ·) 0 + 1)).foldl (· + ·) 0

/-- D goes on (R209), unless a global stop, a halted die or the tile's state holds it. -/
def State.dPump (s : State) (t : Nat) : State :=
  let x := s.tile t
  if !x.live || s.stopped || s.rd (F.PWR_DIE_halted (t / 150)) == 1 then s.setTile t x.dShow
  else
    let s1 := s.dActs t x.dWork
    s1.setTile t (s1.tile t).dShow

/-- D of every tile with a command in progress goes on, after what held it ended. -/
def State.dPumpAll (s : State) : State :=
  s.forEach ((s.tiles.filter (fun e => !e.2.dRun.isEmpty)).map (·.1)) (fun a t => a.dPump t)

/-! Rows (10 R211). -/

/-- A D command enters the expansion queue. -/
def State.dBegin (s : State) (t : Nat) (c : Cmd) (p : List Byte) (dig : Option (Nat × Nat)) (ecc : Ecc := .ok) : State :=
  let s1 := s.startHead t 3 c
  let x := s1.tile t
  s1.setTile t ({ x with dRun := x.dRun ++ [{ num := x.dNum, cmd := c, pat := p, isRun := c.op == 2, dig := dig, ecc := ecc }],
                         dNum := x.dNum + 1 } : Tile).dShow

/-- The row of opcode `op`: the head of the D queue starts when it may and the expansion queue has a place; an unlisted opcode faults in
any row, and a listed one of another row stays. -/
def State.dRowOf (s0 : State) (t op : Nat) (f : State → Cmd → State) : State :=
  let s := s0.endCycle t
  match s.headReady t 3 with
  | none => s
  | some c =>
    if 8 ≤ (s.tile t).dRun.length then s
    else if c.op ≠ op && c.op ≤ 3 then s
    else
      match (s.tile t).dCheck c with
      | some (code, a) => (s.startHead t 3 c).dFault t code (a.map addr64) c.pc
      | none => f s c

/-- D.NOP. -/
def execDNop (t : Fin 1200) (s : State) : Res := ok (s.dRowOf t 0 (fun a c => a.dBegin t c [] none))

/-- The digest slot's indices claimed at the start of a command (20 R425). -/
def State.dClaim (s : State) (t : Nat) (p : List Byte) : State × Option (Nat × Nat) :=
  if dDigest p then
    let x := s.tile t
    let r := x.claim (dSlot p) (dTotal p / digBytes (x.rd (F.TILE_DIG_CFG_fmt (dSlot p))))
    (s.setTile t (r.2.wr (F.TILE_DIG_STATUS_busy (dSlot p)) 1), some (dSlot p, r.1))
  else (s, none)

/-- The start of a copy: the claim, the queue, the first requests. -/
def State.dStart (s : State) (t : Nat) (c : Cmd) (p : List Byte) (ecc : Ecc) : State :=
  let r := s.dClaim t p
  (r.1.dBegin t c p r.2 ecc).dPump t

/-- D.COPY; with keep it arms its stream slot (R217). -/
def execDCopy (t : Fin 1200) (ecc : Ecc) (s : State) : Res :=
  ok (s.dRowOf t 1 (fun a c =>
    let x := a.tile t
    let n := c.f1 58
    let y := if dKeep c.bytes then
        { x.wr F.TILE_D_STREAMS_armed (x.rd F.TILE_D_STREAMS_armed ||| 2 ^ n) with streams := kput x.streams n c.bytes }
      else x
    (a.setTile t y).dStart t c c.bytes ecc))

/-- D.RUN. -/
def execDRun (t : Fin 1200) (ecc : Ecc) (s : State) : Res :=
  ok (s.dRowOf t 2 (fun a c => a.dStart t c (((a.tile t).dPattern c).getD []) ecc))

/-- D.DROP. -/
def execDDrop (t : Fin 1200) (s : State) : Res :=
  ok (s.dRowOf t 3 (fun a c =>
    let x := a.tile t
    let n := c.f1 58
    let armed := x.rd F.TILE_D_STREAMS_armed
    (a.setTile t { x.wr F.TILE_D_STREAMS_armed (armed - (if bitOf armed n then 2 ^ n else 0)) with streams := kdel x.streams n }).dBegin
      t c [] none))

/-! Completion (11 R236; 06 R138). -/

/-- Whether a D command has met its completion point (10 R211, R216). -/
def Tile.dDone (x : Tile) (d : DCmd) : Bool :=
  if d.cmd.op = 0 ∨ d.cmd.op = 3 then (x.dRun.head?.map (·.num)) == some d.num
  else x.dSentAll d && !x.reqs.any (·.cmd == d.num) && (d.last.isNone || d.flush == 2)

/-- The digest slot of a command that completed: its mean follows, and it is busy only while another command adds to it (20 R427). -/
def Tile.digDone (x : Tile) (n : Nat) : Tile :=
  x.digMean n |>.wr (F.TILE_DIG_STATUS_busy n)
    (b2n (x.dRun.any (fun d => (d.dig.map (·.1)) == some n) || x.mRun.any (fun c => c.op == 4 && c.mDigest && c.f1 23 == n)))

/-- The `k`-th oldest D command of those that have met their completion points completes. -/
def State.dComplete (s : State) (t : Nat) (k : Nat := 0) : State :=
  let x := s.tile t
  match (x.dRun.filter (fun d => x.dDone d))[k]? with
  | none => s
  | some d =>
    let y := ({ x with dRun := x.dRun.filter (·.num != d.num) } : Tile).dShow
    (s.setTile t (match d.dig with
      | none => y
      | some p => y.digDone p.1)).completeCmd t 3 d.cmd

/-- Whether a command of M can have reached its completion point while `earlier` are incomplete (06 R139): M.NOP is the last of all; a drain reads
the block once what M did to it before is done; M.CFG, M.SEED and M.MMA follow each other, and wait for no drain's rows. -/
def mFollows (earlier : List Cmd) (c : Cmd) : Bool :=
  if c.op = 0 then earlier.isEmpty
  else if c.op = 4 then earlier.all (·.op == 0)
  else earlier.all (fun e => e.op == 0 || e.op == 4)

/-- The commands of M that can have reached their completion points, the oldest first: not a drain whose rows wait for a chain's (09 R190). -/
def Tile.mDone (x : Tile) : List Cmd :=
  (((List.range x.mRun.length).zip x.mRun).filter (fun p => (x.drain.map (·.cmd)) != some p.2 && mFollows (x.mRun.take p.1) p.2)).map (·.2)

/-- The `k`-th oldest of them completes. An M.MMA has then read its operands, and a drain written all of its rows and records. -/
def State.mComplete (s0 : State) (t : Nat) (k : Nat := 0) : State :=
  match (s0.tile t).mDone[k]? with
  | none => s0
  | some c =>
    let s := if c.op = 3 then s0.mmaEnd t else s0
    let x := s.tile t
    let l := x.mRun.erase c
    let y := ({ x with mRun := l } : Tile).wr F.TILE_M_STATUS_busy (b2n (!l.isEmpty))
    let s1 := s.setTile t (if c.op = 4 ∧ c.mDigest = true then y.digDone (c.f1 23) else y)
    (if c.op = 4 then s1.drainAll t else s1).completeCmd t 0 c

/-- The oldest V command completes. -/
def State.vComplete (s : State) (t : Nat) : State :=
  let x := s.tile t
  match x.vRun with
  | [] => s
  | c :: l =>
    (s.setTile t (({ x with vRun := l } : Tile).wrs
      [(F.TILE_V_STATUS_busy, b2n (!l.isEmpty)), (F.TILE_V_STATUS_mv_busy, b2n (l.any (·.op == 2)))])).completeCmd t 1 c

/-- ENGINE_COMMAND_COMPLETE: a command of engine `e` reaches its completion point (11 R236): the `k`-th oldest of those of M or D that can have
(log 78). S has no commands of this kind. -/
def execEngineCommandComplete (t : Fin 1200) (e : Engine) (s : State) (k : Nat := 0) : Res :=
  if !(s.tile t).live then ok s
  else
    match e with
    | .m => ok (s.mComplete t k)
    | .v => ok (s.vComplete t)
    | .s => ok s
    | .d => ok (s.dComplete t k)

/-! Timeouts (10 R219, R220). -/

/-- D_RESP_TIMEOUT: an entry of the request table has waited 1 ms. -/
def execDRespTimeout (t : Fin 1200) (tag : Word) (s : State) : Res :=
  let x := s.tile t
  match x.reqs.find? (fun r => r.tag % 2 ^ 24 == tag.toNat % 2 ^ 24) with
  | none => ok s
  | some r =>
    if x.live then ok (s.dFault t 0xA (some r.addr) (x.reqPc r)) else ok s

/-- D_ABORT_TIMEOUT: 100 µs after the abort D abandons its entries and is quiescent (10 R220). -/
def execDAbortTimeout (t : Fin 1200) (s : State) : Res :=
  let x := s.tile t
  if x.state = 3 ∧ x.rd F.TILE_D_STATUS_quiescent = 0 then
    let n := x.dWriteBytes
    ok (s.setTile t ((({ x with reqs := [] } : Tile).dShow.wr F.TILE_D_ABORT_BYTES_abandoned n).dQuiet s.tn s.sinceEdge n))
  else ok s

end Sys2Proof.Machine
end

