-- ==== Sys2Proof/Machine/Crypto.lean ====
section
/-! DEFINITION. SHA-384 and ECDSA verification on P-384, which the spec names and the standards FIPS 180-4 and FIPS 186 fix (02 R37, R38;
19 R405; 21 R439; PRESUMED, log 7). -/

namespace Sys2Proof.Machine

/-! SHA-384. The standard defines its constants as bits of roots of primes; they are computed here from that definition. -/

/-- The largest number below 2ⁿ more than `r`, in steps of its bits, whose k-th power is at most v. -/
def rootBits (k v : Nat) : Nat → Nat → Nat
  | 0, r => r
  | n + 1, r => rootBits k v n (if (r + 2 ^ n) ^ k ≤ v then r + 2 ^ n else r)

/-- The first 64 bits of the fraction of the k-th root of p, for p below 2⁹. -/
def rootFraction (k p : Nat) : Dword := BitVec.ofNat 64 (rootBits k (p * 2 ^ (64 * k)) 69 0)

/-- The first 80 primes. -/
def primes80 : List Nat := (List.range 410).filter (fun p => 2 ≤ p && (List.range 19).all (fun d => p % (d + 2) != 0 || p == d + 2))

/-- A constant for each of the 80 rounds, from the cube roots. -/
def shaRounds : List Dword := primes80.map (rootFraction 3)
/-- The eight variables before the first block, from the square roots of the ninth to sixteenth prime. -/
def shaStart : List Dword := ((primes80.drop 8).take 8).map (rootFraction 2)

/-- The exclusive or of a word's rotations to the right. -/
def spin (x : Dword) (l : List Nat) : Dword := (l.map x.rotateRight).foldl (· ^^^ ·) 0

/-- One round on the eight variables: `kw` is the constant plus the message word. -/
def shaStep (v : List Dword) (kw : Dword) : List Dword :=
  let x := fun i => v.getD i 0
  let sum := x 7 + kw + spin (x 4) [14, 18, 41] + (x 6 ^^^ (x 4 &&& (x 5 ^^^ x 6)))
  (sum + spin (x 0) [28, 34, 39] + ((x 0 &&& (x 1 ||| x 2)) ||| (x 1 &&& x 2))) :: v.take 3 ++ [x 3 + sum] ++ (v.drop 4).take 3

/-- The word that follows a window of sixteen message words, oldest first. -/
def shaNext (w : List Dword) : Dword :=
  let x := fun i => w.getD i 0
  x 0 + x 9 + (spin (x 1) [1, 8] ^^^ (x 1 >>> 7)) + (spin (x 14) [19, 61] ^^^ (x 14 >>> 6))

/-- The rounds of the given constants, the window moving one word each. -/
def shaRun : List Dword → List Dword → List Dword → List Dword
  | [], v, _ => v
  | k :: l, v, w => shaRun l (shaStep v (k + w.headD 0)) (w.drop 1 ++ [shaNext w])

/-- The variables after `n` blocks of 128 bytes. -/
def shaBlocks : Nat → List Dword → List Byte → List Dword
  | 0, v, _ => v
  | n + 1, v, l =>
    let block := (List.range 16).map (fun i => BitVec.ofNat 64 (beNat (sub l (8 * i) 8)))
    shaBlocks n (List.zipWith (· + ·) v (shaRun shaRounds v block)) (l.drop 128)

/-- SHA-384: 48 bytes. The message is followed by a one bit, zeros to 16 bytes before a multiple of 128, and its length in bits. -/
def sha384 (l : List Byte) : List Byte :=
  let size := (l.length + 17 + 127) / 128
  let p := l ++ leBytes (128 * size - 16 - l.length) 0x80 ++ beBytes 16 (8 * l.length)
  ((shaBlocks size shaStart p).take 6).flatMap (fun x => beBytes 8 x.toNat)

/-! P-384, in Jacobian coordinates. -/

/-- The field's prime. -/
def p384 : Nat := 2 ^ 384 - 2 ^ 128 - 2 ^ 96 + 2 ^ 32 - 1
/-- The order of the base point. -/
def n384 : Nat := 0xffffffffffffffffffffffffffffffffffffffffffffffffc7634d81f4372ddf581a0db248b0a77aecec196accc52973
/-- The curve's coefficient b; a is −3. -/
def b384 : Nat := 0xb3312fa7e23ee7e4988e056be3f82d19181d9c6efe8141120314088f5013875ac656398d8a2ed19d2a85c8edd3ec2aef
/-- The base point. -/
def g384 : Nat × Nat :=
  (0xaa87ca22be8b05378eb1c71ef320ad746e1d3b628ba79b9859f741e082542a385502f25dbf55296c3a545e3872760ab7,
   0x3617de4a96262c6f5d9e98bf9292dc29f8f41dbd289a147ce9da3113b5f0b8c00a60b1ce1d7e819d7a431d7c90ea0e5f)

/-- Difference modulo p. -/
def subP (a b : Nat) : Nat := (a + p384 - b % p384) % p384

/-- A power modulo `m`: `n` bits of the exponent, the highest first. -/
def powMod (m b e : Nat) : Nat → Nat → Nat
  | 0, r => r
  | n + 1, r => powMod m b e n (if e.testBit n then r * r % m * b % m else r * r % m)

/-- The inverse modulo a prime of 384 bits. -/
def invMod (m a : Nat) : Nat := powMod m (a % m) (m - 2) 384 1

/-- A point in Jacobian coordinates; z = 0 is the point at infinity. -/
structure JPoint where
  x : Nat
  y : Nat
  z : Nat
  deriving DecidableEq, Repr

/-- The point at infinity. -/
def JPoint.zero : JPoint := ⟨1, 1, 0⟩

/-- Doubling. -/
def JPoint.double (a : JPoint) : JPoint :=
  if a.z = 0 ∨ a.y = 0 then JPoint.zero
  else
    let yy := a.y * a.y % p384
    let s := 4 * a.x * yy % p384
    let zz := a.z * a.z % p384
    let m := 3 * (subP a.x zz) * ((a.x + zz) % p384) % p384
    let x := subP (m * m % p384) (2 * s)
    ⟨x, subP (m * subP s x % p384) (8 * yy * yy), 2 * a.y * a.z % p384⟩

/-- Addition. -/
def JPoint.add (a b : JPoint) : JPoint :=
  if a.z = 0 then b
  else if b.z = 0 then a
  else
    let za := a.z * a.z % p384
    let zb := b.z * b.z % p384
    let u1 := a.x * zb % p384
    let u2 := b.x * za % p384
    let s1 := a.y * zb * b.z % p384
    let s2 := b.y * za * a.z % p384
    let h := subP u2 u1
    let r := subP s2 s1
    if h = 0 then (if r = 0 then a.double else JPoint.zero)
    else
      let hh := h * h % p384
      let hhh := h * hh % p384
      let v := u1 * hh % p384
      let x := subP (subP (r * r % p384) hhh) (2 * v)
      ⟨x, subP (r * subP v x % p384) (s1 * hhh), h * a.z * b.z % p384⟩

/-- u·a + v·b by `n` bits of both numbers, the highest first. -/
def JPoint.mul2 (a b : JPoint) (u v : Nat) : Nat → JPoint → JPoint
  | 0, r => r
  | n + 1, r =>
    let d := r.double
    let e := if u.testBit n then d.add a else d
    JPoint.mul2 a b u v n (if v.testBit n then e.add b else e)

/-- Whether a point is on the curve. -/
def onCurve (x y : Nat) : Bool := x < p384 && y < p384 && y * y % p384 == (x * x * x + 3 * (p384 - x) + b384) % p384

/-- ECDSA verification of a 48-byte digest under the public key (x, y). -/
def ecdsaVerify (x y : Nat) (digest : List Byte) (r s : Nat) : Bool :=
  if !(onCurve x y && 1 ≤ r && r < n384 && 1 ≤ s && s < n384) then false
  else
    let w := invMod n384 s
    let u := beNat digest * w % n384
    let v := r * w % n384
    let q := JPoint.mul2 ⟨g384.1, g384.2, 1⟩ ⟨x, y, 1⟩ u v 384 JPoint.zero
    if q.z = 0 then false
    else
      let zi := invMod p384 q.z
      q.x * zi % p384 * zi % p384 % n384 == r

/-- A 97-byte uncompressed public key: 0x04, X, Y (02, 19). -/
def keyX (k : List Byte) : Nat := beNat (sub k 1 48)
def keyY (k : List Byte) : Nat := beNat (sub k 49 48)

/-- The signature check of the spec's signature blocks: the key's format byte, then ECDSA over the SHA-384 of the signed bytes. -/
def signedBy (key rs signed : List Byte) : Bool :=
  le key 0 1 == 4 && ecdsaVerify (keyX key) (keyY key) (sha384 signed) (beNat (rs.take 48)) (beNat (sub rs 48 48))

end Sys2Proof.Machine
end

