-- ==== Sys2Proof/Machine/StowCheck.lean ====
section
/-! DEFINITION. The checks of a stowage image in the order of 02 R39, and its sections as data (02 R26 to R38). Rules R28 and the entry
tables are check 9, R29 to R36 check 12 except where they name check 9 (log 32); the offset is that of the field or entry (log 33). -/

namespace Sys2Proof.Machine

/-- A tested condition with the image offset that a failure reports. -/
abbrev Cond := Bool × Nat

/-- The first condition of a check that fails: its code and offset. -/
def firstBad (code : Nat) (l : List Cond) : Option (Nat × Nat) := (l.find? (fun c => !c.1)).map (fun c => (code, c.2))

/-- GiB. -/
def gib : Nat := 2 ^ 30

/-- Sections as type ↦ (offset, length). -/
abbrev Secs := KMap (Nat × Nat)

/-- The directory's entries (02 R26). -/
def dirOf (b : List Byte) : List (Nat × Nat × Nat × Nat) :=
  (List.range (le b 6 2)).map (fun i => let e := 64 + 16 * i; (e, le b e 2, le b (e + 4) 4, le b (e + 8) 4))

def secsOf (b : List Byte) : Secs := (dirOf b).foldl (fun m e => kput m e.2.1 (e.2.2.1, e.2.2.2)) []

/-- Where the signature block begins. -/
def sigAt (b : List Byte) : Nat := b.length - 208

/-- Bit d of a byte string's bit map. -/
def mapBit (b : List Byte) (o d : Nat) : Bool := bitOf (le b (o + d / 8) 1) (d % 8)

/-- The set bits of a map of n bits, ascending. -/
def mapBits (b : List Byte) (o n : Nat) : List Nat :=
  (((List.range (n / 8)).zip (sub b o (n / 8))).map (fun e =>
    if e.2 = 0 then [] else ((List.range 8).filter (fun j => bitOf e.2.toNat j)).map (fun j => 8 * e.1 + j))).flatten

/-- Checks 1 and 2. -/
def stowForm (b : List Byte) (supplied : Nat) : Option (Nat × Nat) :=
  let n := b.length
  let s := sigAt b
  match firstBad 1 [(n = supplied && 272 ≤ n && n ≤ 4194304 && n % 8 == 0 && le b 8 4 == supplied, 8)] with
  | some e => some e
  | none => firstBad 2 [(le b 0 4 == 0x574F5453, 0), (le b 4 2 == 2, 4), (le b 32 4 % 0x100000 / 0x10000 * 0x10000 == le b 32 4, 32),
      (allZero (sub b 36 28), 36), (allZero (sub b (s + 2) 6), s + 2), (allZero (sub b (s + 105) 7), s + 105)]

/-- The lifecycle state: 0 BLANK, 1 PROVISIONED, 2 DEPLOYED, 3 RETURNED (19). -/
def State.lifecycle (s : State) : Nat := s.rd F.SEC_STATUS_lifecycle

/-- Whether owner slot k (1 to 4) holds a hash that is not revoked (19 R410). -/
def State.ownerLive (s : State) (k : Nat) : Bool :=
  s.on (F.SEC_OWNER_registered k) && s.rd (F.SEC_OWNER_revoked k) == 0

/-- Whether a public key of 97 bytes is the key of `kind` that the fuses hold (02 R38). -/
def State.keyIs (s : State) (kind : Nat) (key : List Byte) : Bool :=
  let h := beNat (sha384 key)
  if kind = 0 then h == s.sec.vendorKey
  else decide (kind ≤ 4) && s.ownerLive kind && h == kget s.sec.owners kind 0

/-- Check 3: the signer (02 R38; 19 R412). -/
def State.stowSigner (s : State) (kind : Nat) (key : List Byte) : Bool :=
  (if kind = 0 then s.lifecycle != 2 else s.lifecycle == 1 || s.lifecycle == 2) && decide (kind ≤ 4) && s.keyIs kind key

/-- The length that R27 gives a section of type `t` at `o`; SPACE and LINKS by their own counts. -/
def lengthOk (b : List Byte) (t o l : Nat) : Bool :=
  match t with
  | 1 => l == 160
  | 2 => l % 160 == 0 && 160 ≤ l && l ≤ 10240
  | 4 => l == 1024
  | 5 => l == 32 + 32 * le b (o + 24) 2
  | 6 => l % 8 == 0
  | 7 => l == 264 + 8 * le b (o + 256) 2
  | 8 => l == 8200
  | 9 => l == 16
  | _ => true

/-- Check 8 (02 R26, R27). Two sections may share an offset when the first is empty: an ACCESS section of no records, or a CHAINS section of
none (DESIGN CHOICE, log 104). -/
def stowDir (b : List Byte) : Option (Nat × Nat) :=
  let n := le b 6 2
  let s := sigAt b
  let d := dirOf b
  let head : List Cond := [(6 ≤ n && n ≤ 9 && 64 + 16 * n ≤ s, 6)]
  let ent := (List.range n).map (fun i =>
    let (e, t, o, l) := d.getD i (0, 0, 0, 0)
    let prev := if i = 0 then 64 + 16 * n else let q := d.getD (i - 1) (0, 0, 0, 0); q.2.2.1 + q.2.2.2
    [(allZero (sub b (e + 2) 2) && allZero (sub b (e + 12) 4), e),
     (1 ≤ t && t ≤ 9 && (d.filter (fun q => q.2.1 == t)).length == 1, e),
     (o % 8 == 0 && prev ≤ o && o + l ≤ s, e + 4), (lengthOk b t o l, e + 8)])
  let m := secsOf b
  let g := kget m 8 (0, 0)
  firstBad 8 (head ++ ent.flatten ++
    [([1, 2, 5, 6, 8, 9].all (fun t => (kget? m t).isSome), 6),
     ((kget? m 7).isSome || (mapBits b (g.1 + 8) 65536).length ≤ 1, 6)])

/-! Sections as data. -/

def rowOfWord (w : Nat) : RowMap := { skip1 := bitsOf w 0 4, skip2 := bitsOf w 4 4, absent := bitOf w 8 }

def bayOfBytes (b : List Byte) (e : Nat) : BayDef := { id := le b e 1, accMode := le b (e + 1) 1, tiles := mapBits b (e + 8) 1200 }

/-- The chain records of a section of `n` bytes from `o`, of at least 8 bytes each: (offset, chain), and whether the section is used up exactly. -/
def chainsOf (b : List Byte) : Nat → Nat → Nat → List (Nat × ChainDef) × Bool
  | 0, _, n => ([], n == 0)
  | f + 1, o, n =>
    if n = 0 then ([], true)
    else
      let k := le b (o + 2) 2
      if n < 8 ∨ n < 8 + 4 * k then ([], false)
      else
        let hops := (List.range k).map (fun i => let w := le b (o + 8 + 4 * i) 4; (⟨w % 65536, bitsOf w 16 2⟩ : Hop))
        let r := chainsOf b f (o + 8 + 4 * k) (n - (8 + 4 * k))
        ((o, ⟨le b o 2, le b (o + 4) 1, hops⟩) :: r.1, r.2)

/-- The chain records of a section. -/
def chainsIn (b : List Byte) (sec : Nat × Nat) : List (Nat × ChainDef) × Bool := chainsOf b (sec.2 / 8 + 1) sec.1 sec.2

def vaultOfBytes (b : List Byte) (e : Nat) : VaultDef :=
  { bay := le b e 1, readout := le b (e + 1) 1, forwardTo := le b (e + 2) 2, contributors := le b (e + 4) 4 }

def regionOfBytes (b : List Byte) (e : Nat) : Region :=
  { base := le b e 8, size := le b (e + 8) 8, id := le b (e + 16) 1, scope := le b (e + 17) 1, die := le b (e + 18) 1, attr := le b (e + 19) 1 }

def accOfBytes (b : List Byte) (e : Nat) : AccRec := { target := le b e 2, master := le b (e + 2) 2, perms := le b (e + 4) 1 }

def rangeOfBytes (b : List Byte) (e : Nat) : LinkRange :=
  { lo := le b e 2, hi := le b (e + 2) 2, primary := le b (e + 4) 1, alternate := le b (e + 5) 1 }

/-- The entries of a section of `n`-byte entries after a head of `h` bytes: their offsets. -/
def entries (sec : Nat × Nat) (h n : Nat) : List Nat := (List.range ((sec.2 - h) / n)).map (fun i => sec.1 + h + n * i)

/-- The image as data. -/
def imageOf (b : List Byte) : Image :=
  let m := secsOf b
  let sec := fun t => kget m t (0, 0)
  let sp := (sec 5).1
  let g := (sec 8).1
  let tk := (sec 9).1
  { deviceId := le b 12 2, uid := le b 16 8, generation := le b 24 8, cap := le b 32 4
    rows := (List.range 80).map (fun i => (i, rowOfWord (le b ((sec 1).1 + 2 * i) 2)))
    bays := (entries (sec 2) 0 160).map (bayOfBytes b)
    chains := ((chainsIn b (sec 3)).1).map (·.2)
    vaults := if (kget? m 4).isSome then (entries (sec 4) 0 16).map (vaultOfBytes b) else []
    spadBase := le b sp 8, loftBase := le b (sp + 8) 8, loftSize := le b (sp + 16) 8
    regions := (entries (sec 5) 32 32).map (regionOfBytes b)
    access := (entries (sec 6) 0 8).map (accOfBytes b)
    ports := if (kget? m 7).isSome then
      ((List.range 32).filter (fun p => le b ((sec 7).1 + 8 * p) 1 == 1)).map (fun p => (p, le b ((sec 7).1 + 8 * p + 2) 2)) else []
    ranges := if (kget? m 7).isSome then (entries (sec 7) 264 8).map (rangeOfBytes b) else []
    anchor := le b g 2
    members := mapBits b (g + 8) 65536
    source := le b tk 1, sourcePort := le b (tk + 1) 1, relayMask := le b (tk + 4) 4, period := le b (tk + 8) 4
    spaceRaw := sub b sp (sec 5).2, groupRaw := sub b g (sec 8).2, tickRaw := sub b tk (sec 9).2
    keyKind := le b (sigAt b) 2, siteOff := (sec 1).1
    digest := sha384 (b.take (sigAt b)) }

/-! Check 9: each section's own rules, in type order. -/

def chkSite (b : List Byte) (s : Nat × Nat) : List Cond :=
  (entries s 0 2).map (fun e =>
    let r := rowOfWord (le b e 2)
    (le b e 2 < 512 && (if r.absent then r.skip1 < r.skip2 else r.skip1 == r.skip2), e))

def chkBays (b : List Byte) (s : Nat × Nat) : List Cond :=
  ((entries s 0 160).map (fun e =>
    [(decide (le b e 1 < 64), e), (decide (le b (e + 1) 1 ≤ 2), e + 1), (allZero (sub b (e + 2) 6), e + 2),
     (allZero (sub b (e + 158) 2), e + 158)])).flatten

def chkChains (b : List Byte) (s : Nat × Nat) : List Cond :=
  let c := chainsIn b s
  (c.1.map (fun (e : Nat × ChainDef) =>
    [(e.2.id < 1024 && (c.1.filter (fun q => q.2.id == e.2.id)).length == 1, e.1),
     (1 ≤ e.2.hops.length && e.2.hops.length ≤ 1202, e.1 + 2), (allZero (sub b (e.1 + 5) 3), e.1 + 5)] ++
    (List.range e.2.hops.length).map (fun i =>
      let w := le b (e.1 + 8 + 4 * i) 4
      (w < 2 ^ 18 && bitsOf w 16 2 < 3, e.1 + 8 + 4 * i)))).flatten ++
  [(c.2, s.1)]

/-- VAULTS (02; 09 R204). -/
def chkVaults (b : List Byte) (s : Nat × Nat) (i : Image) : List Cond :=
  ((entries s 0 16).map (fun e =>
    let v := vaultOfBytes b e
    [(v.bay == 255 || (i.bay? v.bay).isSome, e), (decide (v.readout ≤ 3), e + 1),
     (v.forwardTo == 65535 || (i.members.contains v.forwardTo && v.forwardTo != i.deviceId), e + 2),
     (1 ≤ v.contributors && v.contributors ≤ 2 ^ 30, e + 4), (allZero (sub b (e + 8) 8), e + 8)])).flatten

def chkSpace (b : List Byte) (s : Nat × Nat) : List Cond :=
  let n := le b (s.1 + 24) 2
  let ids := (entries s 32 32).map (fun e => le b (e + 16) 1)
  [(1 ≤ n && n ≤ 64, s.1 + 24), (allZero (sub b (s.1 + 26) 6), s.1 + 26)] ++
  ((entries s 32 32).map (fun e =>
    let r := regionOfBytes b e
    [(r.size != 0, e + 8), (r.id < 64 && (ids.filter (· == r.id)).length == 1, e + 16),
     (r.scope ≤ 1 && (if r.scope = 1 then r.die < 8 else r.die == 0), e + 17), (decide (r.attr < 4), e + 19),
     (allZero (sub b (e + 20) 12), e + 20)])).flatten

/-- Codes of 04 R78 and R79 that a record may name (04 R82). -/
def targetOk (t : Nat) : Bool := t ≤ 0x40 || (0x1000 ≤ t && t < 0x14B0) || (0x2000 ≤ t && t ≤ 0x200A) || t == 0x3000
def masterOk (m : Nat) : Bool := m ≤ 3 || (0x100 ≤ m && m < 0x140) || (0x1000 ≤ m && m < 0x1040)

/-- Whether no (target, master) pair repeats; the first record that repeats one, by its place. -/
def repeats : List AccRec → List (Nat × Nat) → Nat → Option Nat
  | [], _, _ => none
  | r :: l, seen, i => if seen.contains (r.target, r.master) then some i else repeats l ((r.target, r.master) :: seen) (i + 1)

/-- ACCESS (02 R34; 04 R82). -/
def chkAccess (b : List Byte) (s : Nat × Nat) : List Cond :=
  let l := (entries s 0 8).map (accOfBytes b)
  (decide (s.2 ≤ 131072), s.1) :: ((entries s 0 8).map (fun e =>
    let r := accOfBytes b e
    [(targetOk r.target, e), (masterOk r.master, e + 2),
     (r.perms < 8 && (r.perms < 4 || r.target ≤ 0x40 || (0x1000 ≤ r.target && r.target < 0x14B0)), e + 4),
     (allZero (sub b (e + 5) 3), e + 5)])).flatten ++
  (match repeats l [] 0 with
   | some i => [(false, s.1 + 8 * i)]
   | none => [])

def chkLinks (b : List Byte) (s : Nat × Nat) : List Cond :=
  let n := le b (s.1 + 256) 2
  ((List.range 32).map (fun p =>
    let e := s.1 + 8 * p
    [(le b e 1 ≤ 1 && le b (e + 1) 1 == 0, e), (allZero (sub b (e + 4) 4), e + 4)])).flatten ++
  [(decide (n ≤ 4096), s.1 + 256), (allZero (sub b (s.1 + 258) 6), s.1 + 258)] ++
  ((entries s 264 8).map (fun e =>
    let r := rangeOfBytes b e
    [(decide (r.lo ≤ r.hi), e + 2), (decide (r.primary < 32), e + 4), (r.alternate < 32 || r.alternate == 255, e + 5),
     (allZero (sub b (e + 6) 2), e + 6)])).flatten

def chkGroup (b : List Byte) (s : Nat × Nat) : List Cond :=
  [(1 ≤ le b (s.1 + 2) 2 && le b (s.1 + 2) 2 ≤ 16384, s.1 + 2), (allZero (sub b (s.1 + 4) 4), s.1 + 4)]

def chkTick (b : List Byte) (s : Nat × Nat) : List Cond :=
  [(decide (le b s.1 1 ≤ 2), s.1),
   (if le b s.1 1 = 1 then le b (s.1 + 1) 1 < 32 else le b (s.1 + 1) 1 == 0, s.1 + 1), (allZero (sub b (s.1 + 2) 2), s.1 + 2),
   (250 ≤ le b (s.1 + 8) 4 && le b (s.1 + 8) 4 ≤ 100000, s.1 + 8), (allZero (sub b (s.1 + 12) 4), s.1 + 12)]

/-- Check 9. -/
def stowSections (b : List Byte) (i : Image) : Option (Nat × Nat) :=
  let m := secsOf b
  let opt := fun (t : Nat) (f : Nat × Nat → List Cond) => match kget? m t with
    | some s => f s
    | none => []
  firstBad 9 (opt 1 (chkSite b) ++ opt 2 (chkBays b) ++ opt 3 (chkChains b) ++ opt 4 (fun s => chkVaults b s i) ++ opt 5 (chkSpace b) ++
    opt 6 (chkAccess b) ++ opt 7 (chkLinks b) ++ opt 8 (chkGroup b) ++ opt 9 (chkTick b))

/-! Checks 10 to 12, on an image as data; `at_` gives a section's offset. -/

/-- Rows declared absent. -/
def Image.absents (i : Image) : Nat := (i.rows.filter (fun r => r.2.absent)).length

/-- Check 11: the offset of the first row entry that maps a SUSPECT or FAILED site. -/
def State.stowSites (s : State) (i : Image) (o : Nat) : Option (Nat × Nat) :=
  firstBad 11 ((List.range 1200).map (fun t => (!i.present t || s.siteState (i.site t) == 0, o + 2 * (t / 15))))

def xBays (i : Image) (o : Nat) : List Cond :=
  ((List.range i.bays.length).map (fun k =>
    let d := i.bays.getD k ⟨0, 0, []⟩
    ((!(i.bays.take k).any (fun q => q.id == d.id)), o + 160 * k) ::
    d.tiles.map (fun t => (i.present t && !(i.bays.take k).any (fun q => q.tiles.contains t), o + 160 * k + 8 + t / 8)))).flatten

def xChains (b : List Byte) (i : Image) (s : Nat × Nat) : List Cond :=
  ((chainsIn b s).1.map (fun (e : Nat × ChainDef) =>
    let n := e.2.hops.length
    ((i.bay? e.2.bay).isSome, e.1 + 4) :: (List.range n).map (fun k =>
      let h := e.2.hops.getD k ⟨0, 0⟩
      ((h.kind != 1 || k == 0) && (h.kind != 2 || k + 1 == n) &&
        (h.kind != 0 || (i.present h.id && (((i.bay? e.2.bay).map (·.tiles)).getD []).contains h.id &&
          !(e.2.hops.take k).any (fun q => q.kind == 0 && q.id == h.id))), e.1 + 8 + 4 * k)))).flatten

/-- Two extents (base, size) share a byte. -/
def overlaps (x y : Nat × Nat) : Bool := x.1 < y.1 + y.2 && y.1 < x.1 + x.2 && x.2 != 0 && y.2 != 0

/-- A stack's bytes that regions take (02 R33). -/
def Image.stackShare (i : Image) (st : Nat) : Nat :=
  i.regions.foldl (fun n r => n + (if r.scope = 0 then r.size / 16 else if r.die = st / 2 then r.size / 2 else 0)) 0

/-- The end of the configurable range (04 R69). -/
def confEnd : Nat := 0xFFF000000000

/-- SPACE (02 R32, R33). A loft of no bytes is checked as any other: one based beyond the configurable range is refused with check 12 (DESIGN CHOICE,
log 125). -/
def xSpace (i : Image) (o : Nat) : List Cond :=
  let span : Nat × Nat := (i.spadBase, 1200 * 0x400000)
  let loft : Nat × Nat := (i.loftBase, i.loftSize)
  [(i.spadBase % (8 * gib) == 0 && i.spadBase + 1200 * 0x400000 ≤ confEnd, o),
   (i.loftBase % gib == 0 && i.loftSize % gib == 0 && i.loftBase + i.loftSize ≤ confEnd && !overlaps span loft, o + 8)] ++
  (List.range i.regions.length).map (fun k =>
    let r := i.regions.getD k ⟨0, 0, 0, 0, 0, 0⟩
    let x : Nat × Nat := (r.base, r.size)
    (r.base % gib == 0 && r.size % gib == 0 && r.base + r.size ≤ confEnd && !overlaps x span && !overlaps x loft &&
      !(i.regions.take k).any (fun q => overlaps x (q.base, q.size)) &&
      (r.attr % 2 == 0 || (r.scope == 0 && r.size ≤ 383 * gib && !(i.regions.take k).any (fun q => q.attr % 2 == 1))),
     o + 32 + 32 * k)) ++
  [((List.range 16).all (fun st => i.stackShare st ≤ 96 * gib - 64 * 2 ^ 20), o + 24)]

/-- ACCESS (02 R34). -/
def xAccess (i : Image) (o : Nat) : List Cond :=
  ((List.range i.access.length).map (fun k =>
    let r := i.access.getD k ⟨0, 0, 0⟩
    [(if r.target < 0x40 then i.regions.any (fun q => q.id == r.target && q.attr % 2 == 0)
      else if r.target = 0x40 then i.regions.any (fun q => q.attr % 2 == 1)
      else if 0x1000 ≤ r.target ∧ r.target < 0x14B0 then i.present (r.target - 0x1000) else true, o + 8 * k),
     (if 0x100 ≤ r.master ∧ r.master < 0x140 then (i.bay? (r.master - 0x100)).isSome else true, o + 8 * k + 2)])).flatten

/-- LINKS (02 R35). -/
def xLinks (i : Image) (o : Nat) : List Cond :=
  let en := fun p => (kget? i.ports p).isSome
  ((List.range i.ranges.length).map (fun k =>
    let r := i.ranges.getD k ⟨0, 0, 0, 0⟩
    [((k == 0 || (i.ranges.getD (k - 1) ⟨0, 0, 0, 0⟩).hi < r.lo) && !(r.lo ≤ i.deviceId && i.deviceId ≤ r.hi), o + 264 + 8 * k),
     (en r.primary && (r.alternate == 255 || en r.alternate), o + 264 + 8 * k + 4)])).flatten

/-- GROUP and TICK (02 R36). -/
def xGroup (b : List Byte) (i : Image) (g t : Nat) : List Cond :=
  let en := fun p => (kget? i.ports p).isSome
  [(le b (g + 2) 2 == i.members.length, g + 2),
   (i.members.contains i.deviceId && i.members.contains i.anchor && !i.members.contains 0xFFFF, g),
   (i.source != 1 || en i.sourcePort, t + 1), ((List.range 32).all (fun p => !bitOf i.relayMask p || en p), t + 4)]

/-- Check 12. -/
def stowCross (b : List Byte) (i : Image) : Option (Nat × Nat) :=
  let m := secsOf b
  let sec := fun t => kget m t (0, 0)
  firstBad 12 (xBays i (sec 2).1 ++ xChains b i (sec 3) ++ xSpace i (sec 5).1 ++ xAccess i (sec 6).1 ++ xLinks i (sec 7).1 ++
    xGroup b i (sec 8).1 (sec 9).1)

/-- The absent tile that the hop or the ACCESS record at image offset `o` names (01 R14). -/
def Image.absentRef (i : Image) (b : List Byte) (o : Nat) : Option Nat :=
  let sec := fun t => kget (secsOf b) t (0, 0)
  let lost := fun (t : Nat) => if t < 1200 && !i.present t then some t else none
  if (chainsIn b (sec 3)).1.any (fun e => e.1 + 8 ≤ o && o < e.1 + 8 + 4 * e.2.hops.length) then
    (if bitsOf (le b o 4) 16 2 = 0 then lost (le b o 2) else none)
  else if (sec 6).1 ≤ o ∧ o < (sec 6).1 + (sec 6).2 ∧ 0x1000 ≤ le b o 2 ∧ (o - (sec 6).1) % 8 = 0 then lost (le b o 2 - 0x1000)
  else none

/-- The features that an image needs and the package lacks: check 7 (01 R22). -/
def State.stowCaps (s : State) (cap : Nat) : Option (Nat × Nat) :=
  firstBad 7 [((List.range 4).all (fun k => !bitOf cap (16 + k) || bits (rget s.regs F.HUB_PKG_CAP_valid.off) (16 + k) 1 == 1), 32)]

/-- The checks of R39 in order on the bytes of an image of the length supplied: the first failure, or the image. -/
def State.stowCheck (s : State) (b : List Byte) (supplied : Nat) : Except (Nat × Nat) Image :=
  match stowForm b supplied with
  | some e => .error e
  | none =>
    let g := sigAt b
    let key := sub b (g + 8) 97
    if !s.stowSigner (le b g 2) key then .error (3, g)
    else if !signedBy key (sub b (g + 112) 96) (b.take g) then .error (4, g + 112)
    else if le b 16 8 != s.sec.uid then .error (5, 16)
    else if le b 24 8 ≤ s.stow.floor then .error (6, 24)
    else
      match s.stowCaps (le b 32 4) with
      | some e => .error e
      | none =>
        match stowDir b with
        | some e => .error e
        | none =>
          let i := imageOf b
          match stowSections b i with
          | some e => .error e
          | none =>
            if le b 14 2 + i.absents != 1200 then .error (10, 14)
            else
              match s.stowSites i (kget (secsOf b) 1 (0, 0)).1 with
              | some e => .error e
              | none =>
                match stowCross b i with
                | some e => .error e
                | none => .ok i

/-- Checks 7, 10, 11 and 12 again at the load step of a warm start (02 R42): an image that passed once can only fail on capabilities
or sites, since the others depend on its bytes alone. -/
def State.stowRecheck (s : State) (i : Image) : Option (Nat × Nat) :=
  match s.stowCaps i.cap with
  | some e => some e
  | none => s.stowSites i i.siteOff

end Sys2Proof.Machine
end

