-- ==== Sys2Proof/Machine/Link.lean ====
section
/-! DEFINITION. Device links (15): flits and their retry (R322 to R324), credits (R325), packets and forwarding (R327 to R330), port states
(R334), lanes (R321) and membership (R336). -/

namespace Sys2Proof.Machine

/-! Port states. -/

/-- The records of 17 R367 about port `p`. `kind`: the bit of LNK_EVENT that the event sets; 8 for a corrected flit (log 19). -/
def State.portRecord (s : State) (sev cls kind p : Nat) : State := s.record { sev := sev, cls := cls, kind := kind, unit := p }

/-- The first eight bytes of the group's digest (02 R37). -/
def State.groupDigest (s : State) : Nat := s.rd F.HUB_GROUP_DIGEST_digest

/-- The peer of port `p` in LINKS; none when the port is not enabled. -/
def State.peer? (s : State) (p : Nat) : Option Nat := kget? s.image.ports p

/-- Enabled ports, ascending. -/
def State.enabledPorts (s : State) : List Nat := s.image.ports.map (·.1)

/-- One packet of a port's dropped store: counted, and answered with reason 2 (15 R330). -/
def State.dropStored (s : State) (p : Nat) (b : List Byte) : State :=
  (s.setPort p ((s.port p).bump F.LNK_DROPS_stall)).unreach b 2

/-- The port with its flits, packets and stream gone, DOWN. -/
def Port.cleared (x : Port) : Port :=
  { x.wr F.LNK_STATUS_state 0 with store := [], owners := [], egress := [], rx := [], fails := 0, failSeq := none, retrain2 := 0 }

/-- Port `p` goes DOWN and drops its store under R330; packets that it brought return no credits, and those that waited at it do. -/
def State.portDrop (s : State) (p : Nat) : State :=
  let x := s.port p
  let s1 := (x.owners.map (·.2) ++ x.egress.map (·.2)).foldl (fun a b => a.dropStored p b)
    ({ s.setPort p x.cleared with relayed := s.relayed.filter (·.1 != p) } : State)
  (x.egress.map (·.2)).foldl (fun a b => a.freed p b) s1

/-- LNK_DOWN (15 R324, R334): the event, a CONTAINED record of the link-flit class (17 R367), the drop. -/
def State.portDown (s : State) (p : Nat) : State :=
  (((s.setPort p ((s.port p).wr F.LNK_EVENT_down 1)).raised .LNK_DOWN [p]).portRecord 2 9 0 p).portDrop p

/-- UP → RETRAIN: egress held, the flit store kept. -/
def State.portRetrain (s : State) (p : Nat) : State :=
  if s.portUp p then
    (s.setPort p { ((s.port p).wr F.LNK_STATUS_state 4).bump F.LNK_STATUS_retrains with trainAt := s.time }).logs .LNK_RETRAIN [p]
  else s

/-- DOWN → TRAINING: training starts; the O ports of an isolated engine stay DOWN, since its UCIe link is held in reset (01 R21). -/
def State.portTrain (s : State) (p : Nat) : State :=
  if 16 ≤ p && (s.oe (24 ≤ p)).isolated then s
  else if (s.port p).rd F.LNK_STATUS_state = 0 then
    s.setPort p { (s.port p).wrs [(F.LNK_STATUS_state, 1), (F.LNK_STATUS_retrains, 0)] with trainAt := s.time }
  else s

/-- A retrain request sent, and the retrain begun. -/
def State.requestRetrain (s : State) (p : Nat) : State := (s.sendCtl p 3 (s.port p).ack 0 0).portRetrain p

/-! Lanes (15 R321). -/

/-- Lane `l` is marked bad. -/
def Port.laneBad (x : Port) (l : Nat) : Bool := bitOf (x.rd F.LNK_STATUS_bad_lanes) l
/-- Marked lanes, the spare (8) among them. -/
def Port.badLanes (x : Port) : List Nat := (List.range 9).filter x.laneBad
/-- The lane that the spare replaces at the port's next retrain: the first bad one, when spare_en then lets it and the spare is good; 15 none. -/
def Port.spareTo (x : Port) : Nat :=
  if x.rd F.LNK_CFG_spare_en = 1 ∧ x.laneBad 8 = false then ((x.marked.filter (· < 8)).head?).getD 15 else 15
/-- Bad logical lanes after that substitution. -/
def Port.badAfter (x : Port) : List Nat := (x.badLanes.filter (· < 8)).filter (· != x.spareTo)
/-- Both halves hold a bad lane after it, from the second bad lane on. -/
def Port.widthLost (x : Port) : Bool := 2 ≤ x.badLanes.length && x.badAfter.any (· < 4) && x.badAfter.any (4 ≤ ·)

/-- The marking of a lane: the event, the retrain that it starts, or DOWN when both halves hold a bad lane. -/
def State.markLane (s : State) (p l : Nat) : State :=
  let x := s.port p
  if 16 ≤ p ∨ x.laneBad l ∨ x.rd F.LNK_STATUS_state < 2 then s
  else
    let y := x.wrs [(F.LNK_STATUS_bad_lanes, x.rd F.LNK_STATUS_bad_lanes + 2 ^ l), (F.LNK_EVENT_lane_bad, 1)]
    let z := { y with nextHalf := decide (2 ≤ y.badLanes.length), marked := y.marked ++ [l] }
    let s1 := (s.setPort p z).raised .LNK_LANE_BAD [p, l]
    if z.widthLost then s1.portDown p else s1.portRetrain p

/-- The width of the port after a training: half from the second bad lane on, with its event and record (17 R381). -/
def State.applyWidth (s : State) (p : Nat) : State :=
  let x := s.port p
  if x.nextHalf && x.rd F.LNK_STATUS_half = 0 then
    ((s.setPort p (x.wrs [(F.LNK_STATUS_half, 1), (F.LNK_EVENT_half_width, 1)])).raised .LNK_HALF_WIDTH [p]).portRecord 1 0x11 4 p
  else s

/-! The stream of packets (15 R322, R327, R328). -/

/-- Data bytes padded to words. -/
def pad4 (n : Nat) : Nat := (n + 3) / 4 * 4

/-- Whether type, subtype, length and channel follow the tables of R327. -/
def pktOk (b : List Byte) : Bool :=
  let v := pktVc b
  let n := pktLen b
  let t := pktType b
  if t = 1 then v == 1 && 1 ≤ le b 26 2 && le b 26 2 ≤ 256 && n == 32 + pad4 (le b 26 2)
  else if t = 2 then v == 0 && n == 32 && 1 ≤ le b 24 2 && le b 24 2 ≤ 256
  else if t = 3 then v == 2 && le b 16 1 ≤ 4 && n == 32 + (if le b 16 1 = 0 then pad4 (le b 24 2) else 0) && le b 24 2 ≤ 256
  else if t = 4 then v == 6 && n == 32
  else if t = 5 then
    le b 16 1 ≤ 2 && v == (if le b 16 1 = 0 then 4 else 5) && le b 22 1 ≤ 63 && le b 17 1 ≤ 3 &&
    n == 32 + (if le b 17 1 = 0 then 320 else if le b 17 1 = 1 then 256 else if le b 17 1 = 2 then 128 else 2560)
  else if t = 6 then v == 7 && n == 32
  else if t = 7 then v == 1 && n == 4128
  else if t = 8 then v == 7 && n == 32
  else if t = 9 then
    1 ≤ pktSub b && pktSub b ≤ 8 && v == (if 4 ≤ pktSub b && pktSub b ≤ 6 then 3 else 7) && n == (if pktSub b = 3 then 48 else 32)
  else false

/-- The stream cut into packets: whole packets, whether a length broke the stream, and the part left over. Zero words between packets
are fill (log 14). A length outside R327 ends the reading of this flit. -/
def cutStream : Nat → List Byte → List (List Byte) × Bool × List Byte
  | 0, b => ([], false, b)
  | f + 1, b =>
    if b.length < 4 then ([], false, [])
    else if allZero (b.take 4) then cutStream f (b.drop 4)
    else
      let n := le b 2 2
      if n < 32 ∨ 4128 < n ∨ n % 4 ≠ 0 then ([], true, [])
      else if b.length < n then ([], false, b)
      else
        let (l, bad, r) := cutStream f (b.drop n)
        (b.take n :: l, bad, r)

/-- The bytes that a flit's payload adds to the stream: all of it within a packet, otherwise from `start`. -/
def streamPart (rx payload : List Byte) (start : Nat) : List Byte :=
  if rx.isEmpty then (if start = 0xFF then [] else payload.drop (4 * start)) else rx ++ payload

/-- Payload bytes of a packet for the transit count (03 R62). -/
def pktPayload (b : List Byte) : Nat := if pktType b = 1 then le b 26 2 else if pktType b = 3 then le b 24 2 else pktLen b - 32

/-- Whether a packet ends at this device (15 R329); a MEMBERSHIP is never routed. -/
def State.forUs (s : State) (b : List Byte) : Bool := pktDst b == 0xFFFF || pktDst b == s.devId || pktType b == 8

/-- A whole packet taken from port `p`: handed to its target, forwarded or dropped (15 R329, R330, R339). -/
def State.takePkt (s : State) (p : Nat) (b : List Byte) : State :=
  if s.forUs b then s.sends (.deliver p b)
  else if s.fenced then (s.bump F.HUB_GRP_COUNTS_fenced_drops).unreach b 5
  else if 32 ≤ pktHops b + 1 then s.dropPkt p 3 b
  else s.sendPkt (pktHop b)

/-- A packet that arrived after the stop instant: into its port's transit log, and counted (03 R62). -/
def State.logTransit (s : State) (p : Nat) (b : List Byte) : State :=
  ({ s with stop := { s.stop with transit := kput s.stop.transit p (kget s.stop.transit p [] ++ [b]) } } : State).wrs
    [(F.TB_TRANSIT_COUNT_packets p, s.rd (F.TB_TRANSIT_COUNT_packets p) + 1),
     (F.TB_TRANSIT_COUNT_bytes p, s.rd (F.TB_TRANSIT_COUNT_bytes p) + pktPayload b)]

/-- A packet dropped under 15 R328. -/
def State.badPkt (s : State) (p : Nat) : State := s.setPort p ((s.port p).bump F.LNK_DROPS_bad_packet)

/-- A packet that arrived whole at port `p` (15 R328 to R330, R339; 03 R62). During a global stop every packet is logged but those of
the link's own channel 7 (DEDUCED, log 20). -/
def State.arrive (s : State) (p : Nat) (b : List Byte) : State :=
  let s0 := (s.count (72 + 2 * p) b.length)
  if !pktOk b then s0.badPkt p
  else if s0.stopped && pktVc b != 7 then s0.logTransit p b
  else s0.takePkt p b

/-! Flits. -/

/-- Whether flit `seq` stands in the store. -/
def Port.holds (x : Port) (seq : Nat) : Bool := x.store.any (·.1 == seq)

/-- The port with flits up to `seq` acknowledged: they leave the store, and the packets that end in them their owners. -/
def Port.acked (x : Port) (seq : Nat) : Port :=
  if x.holds seq then
    let gone := (x.store.takeWhile (·.1 != seq)).map (·.1) ++ [seq]
    { x with store := x.store.drop gone.length, owners := x.owners.filter (fun e => !gone.contains e.1) }
  else x

/-- Credits returned on a channel. -/
def Port.credit (x : Port) (vc n : Nat) : Port :=
  { x with credits := kput x.credits vc (min (fullCredit vc) (kget x.credits vc 0 + n)) }

/-- Flits resent from a sequence number, in order (15 R324). -/
def State.resend (s : State) (p seq : Nat) : State :=
  s.sendAll (((s.port p).store.dropWhile (·.1 != seq)).map (fun e => .flit p e.2))

/-- A failure of the expected flit (15 R324): one NAK; eight in a row retrain, and the third time of the same number the port goes DOWN. -/
def State.flitFail (s : State) (p : Nat) : State :=
  let x := s.port p
  let y := { x.bump F.LNK_ERRS_retries with failSeq := some x.expect, fails := x.fails + 1 }
  let s1 := (s.setPort p y).sendCtl p 2 x.expect 0 0
  if y.fails < 8 then s1
  else if 2 ≤ x.retrain2 then s1.portDown p
  else (s1.setPort p { y with fails := 0, retrain2 := x.retrain2 + 1 }).requestRetrain p

/-- The egress port that a packet from port `p` goes on to, when it does (15 R329, R330). -/
def State.passesOn (s : State) (b : List Byte) : Option Nat :=
  if !pktOk b || s.stopped || s.forUs b || s.fenced || 32 ≤ pktHops b + 1 then none else (s.routeOf (pktDst b)).1

/-- A packet of a data flit: its channel's credits return as its buffer is free, at once, or for one that goes on when it leaves (15 R325). -/
def State.arriveOne (s : State) (p ack : Nat) (b : List Byte) : State :=
  match s.passesOn b with
  | some q => ({ s with relayed := s.relayed ++ [(p, q, pktHop b)] } : State).arrive p b
  | none => (s.arrive p b).sendCtl p 0 ack (pktVc b) (creditsOf b.length)

/-- The packets of one data flit, in order. -/
def State.arriveAll (s : State) (p : Nat) (l : List (List Byte)) : State := l.foldl (fun a b => a.arriveOne p (s.port p).ack b) s

/-- A data flit in order: accepted, its packets taken, acknowledged. -/
def State.dataFlit (s : State) (p : Nat) (fl : List Byte) : State :=
  let x := s.port p
  let c := cutStream 1100 (streamPart x.rx (sub fl 8 244) (le fl 6 1))
  let y := { x with expect := (x.expect + 1) % 4096, rx := c.2.2, failSeq := none, fails := 0, retrain2 := 0 }
  let z := if c.2.1 then y.bump F.LNK_DROPS_bad_packet else y
  let s1 := (s.setPort p z).arriveAll p c.1
  if c.1.isEmpty then s1.sendCtl p 0 z.ack 0 0 else s1

/-- What a HELLO flit brings before the port is UP (15 R334): its packets for the neighbour are handed on, malformed ones counted (R328); sequence
numbers start at UP (log 21). -/
def State.helloFlit (s : State) (p : Nat) (fl : List Byte) : State :=
  let c := cutStream 70 (streamPart [] (sub fl 8 244) (le fl 6 1))
  let s1 := c.1.foldl (fun a b =>
    if !pktOk b then a.badPkt p else if pktType b == 9 && pktSub b == 1 then a.sends (.deliver p b) else a) s
  if c.2.1 then s1.badPkt p else s1

/-- A flit that the FEC corrected (17 R367). -/
def State.fecRecord (s : State) (p : Nat) (fixed : Bool) : State := if fixed then s.portRecord 1 9 8 p else s

/-- LINK_FLIT: a flit arrives at port `p` (15 R322 to R328), over codewords of which `fecFixed` were corrected; `fecBad`: one was
uncorrectable. -/
def execLinkFlit (p : Fin 32) (flit : List Byte) (fecBad : Bool) (s : State) (fecFixed : Nat := 0) : Res :=
  let x := s.port p
  let st := x.rd F.LNK_STATUS_state
  let s0 := if st == 2 || st == 3 then
    (s.setPort p ((x.bump F.LNK_FEC_corrected fecFixed).bump F.LNK_FEC_uncorrectable (b2n fecBad))).fecRecord p (fecFixed != 0 && !fecBad)
    else s
  let x0 := s0.port p
  let bad := fecBad || flit.length != 256 || le flit 252 4 != (crc32 (flit.take 252)).toNat
  let seq := le flit 0 2 % 4096
  let ftype := le flit 0 2 / 4096
  let ack := le flit 2 2 % 4096
  if st = 2 then ok (if bad then s0.setPort p (x0.bump F.LNK_ERRS_crc_fail) else if ftype = 1 then s0.helloFlit p flit else s0)
  else if st ≠ 3 then ok s
  else if bad then
    let s1 := (s0.setPort p (x0.bump F.LNK_ERRS_crc_fail)).portRecord 1 9 8 p
    ok (if x0.failSeq = none ∨ seq = x0.expect then s1.flitFail p else s1)
  else
    let a := if ftype = 2 then (ack + 4095) % 4096 else ack
    let s1 := s0.setPort p ((x0.acked a).credit (le flit 4 1 % 8) (le flit 5 1))
    let s2 :=
      if ftype = 1 then
        (if seq = x0.expect then s1.dataFlit p flit
         else if x0.failSeq ≠ none ∨ 2048 ≤ (seq + 4096 - x0.expect) % 4096 then s1.sendCtl p 0 x0.ack 0 0
         else s1.flitFail p)
      else if ftype = 2 then (s1.setPort p ((s1.port p).bump F.LNK_ERRS_retries)).resend p ack
      else if ftype = 3 then s1.portRetrain p
      else s1
    ok (s2.egressDrain p)

/-- EGRESS_STALL_DROP: the head packet of a channel has waited 1 ms at port `p` (15 R330); the wait does not count during a global
stop. A lost credit is a CONTAINED failure (17 R367 class 12). -/
def execEgressStallDrop (p : Fin 32) (vc : BitVec 3) (s : State) : Res :=
  let x := s.port p
  match x.egress.find? (fun e => pktVc e.2 == vc.toNat) with
  | none => ok s
  | some e =>
    if s.stopped then ok s
    else
      ok (((((s.setPort p { x.wr F.LNK_EVENT_stall 1 with egress := x.egress.erase e }).hubEvent).portRecord 2 12 6 p).dropPkt p 4 e.2).freed p e.2)

/-- LINK_TRAINED: training or a retrain succeeds (15 R334); a port both of whose halves hold a bad lane goes DOWN (R321). -/
def execLinkTrained (p : Fin 32) (s : State) : Res :=
  let x := s.port p
  if x.rd F.LNK_STATUS_state = 1 then
    if x.widthLost then ok (s.portDown p)
    else
    ok (((s.setPort p (x.wrs [(F.LNK_STATUS_state, 2), (F.LNK_STATUS_spare_for, x.spareTo)])).applyWidth p).sends
      (.flit p (mkFlit 0 1 0 0 0 0 (ctrlPacket s.devId 1 (leBytes 8 s.groupDigest) []))))
  else if x.rd F.LNK_STATUS_state = 4 then
    if x.widthLost then ok (s.portDown p)
    else
      let s1 := (s.setPort p { x.wrs [(F.LNK_STATUS_state, 3), (F.LNK_STATUS_spare_for, x.spareTo)] with fails := 0 }).applyWidth p
      ok ((s1.sendAll (((s1.port p).store).map (fun e => .flit p e.2))).egressDrain p)
  else ok s

/-- LINK_TRAIN_TIMEOUT: 100 ms without training (15 R334). -/
def execLinkTrainTimeout (p : Fin 32) (s : State) : Res :=
  if (s.port p).rd F.LNK_STATUS_state = 1 then
    ok ((s.setPort p ((s.port p).wrs [(F.LNK_STATUS_state, 0), (F.LNK_EVENT_train_fail, 1)])).raised .LNK_TRAIN_FAIL [p])
  else ok s

/-- LINK_RETRAIN_TIMEOUT: a retrain took longer than 500 µs (15 R324). -/
def execLinkRetrainTimeout (p : Fin 32) (s : State) : Res :=
  if (s.port p).rd F.LNK_STATUS_state = 4 then ok (s.portDown p) else ok s

/-- LANE_LOCK_LOSS (15 R321). -/
def execLaneLockLoss (p : Fin 32) (lane : Fin 9) (s : State) : Res := ok (s.markLane p lane)

/-- LANE_BER_CHECK: the estimate over one second (15 R321). -/
def execLaneBerCheck (p : Fin 32) (lane : Fin 9) (above : Bool) (s : State) : Res := ok (if above then s.markLane p lane else s)

/-- O_PORT_LOCK_LOSS: an O port loses lock and retrains (15 R334). -/
def execOPortLockLoss (p : Fin 32) (s : State) : Res := ok (if 16 ≤ p.val then s.portRetrain p else s)

/-- A port that comes UP: full credit, sequence numbers from 0 (15 R325, R334). -/
def Port.up (x : Port) : Port :=
  { x.wr F.LNK_STATUS_state 3 with credits := fullCredits, expect := 0, nextSeq := 0, store := [], owners := [], rx := [],
                                   fails := 0, failSeq := none, retrain2 := 0 }

/-- HELLO (15 R334). -/
def execHello (p : Fin 32) (src : BitVec 16) (digest : Dword) (s : State) : Res :=
  let x := s.port p
  if x.rd F.LNK_STATUS_state ≠ 2 then ok s
  else
    let y := x.wr F.LNK_STATUS_peer src.toNat
    if s.peer? p ≠ some src.toNat then
      ok ((s.setPort p (y.wrs [(F.LNK_STATUS_state, 0), (F.LNK_EVENT_peer_mismatch, 1)])).raised .LNK_PEER_MISMATCH [p, src.toNat])
    else if digest.toNat ≠ s.groupDigest then
      ok ((s.setPort p (y.wrs [(F.LNK_STATUS_state, 0), (F.LNK_EVENT_digest_mismatch, 1)])).raised .LNK_DIGEST_MISMATCH [p, src.toNat])
    else
      ok ((s.setPort p y.up).egressDrain p)

/-- MEMBERSHIP: recorded and flooded once (15 R336). -/
def execMembership (p : Fin 32) (src : BitVec 16) (period digest : Dword) (fenced : Bool) (hops : Byte) (s : State) : Res :=
  let d := src.toNat
  let key := (d, period.toNat)
  if digest.toNat ≠ s.groupDigest ∨ s.image.members.contains d = false then ok (s.bump F.HUB_GRP_COUNTS_foreign)
  else if d = s.devId ∨ s.grp.heard.contains key = true then ok s
  else
    let g := { s.grp with
      latest := kput s.grp.latest d period.toNat
      fenced := if fenced then (if s.grp.fenced.contains d then s.grp.fenced else s.grp.fenced ++ [d]) else s.grp.fenced.filter (· != d)
      heard := s.grp.heard ++ [key] }
    let s1 := { s with grp := g }
    if 32 ≤ hops.toNat + 1 then ok (s1.countDrop p 3)
    else
      let pk := pktHop (memberPacket d period.toNat digest.toNat fenced)
      let pk := pk.take 8 ++ leBytes 1 (hops.toNat + 1) ++ pk.drop 9
      ok (s1.forEach ((List.range 32).filter (fun q => q != p.val && s1.portUp q)) (fun a q => a.egressPut q pk))

/-- The window offset of port `p`'s LNK_CTRL. -/
def lnkCtrlOff (p : Nat) : Nat := 0x200010 + 0x10000 * p

/-- LNK_CTRL op RETRAIN (15 R334). -/
def execLnkRetrain (m : Master) (p : Fin 32) (s : State) : Res := ok (s.guarded m (lnkCtrlOff p) (fun a => a.portRetrain p))
/-- LNK_CTRL op DISABLE: any state → DOWN, the store dropped (15 R334). -/
def execLnkDisable (m : Master) (p : Fin 32) (s : State) : Res := ok (s.guarded m (lnkCtrlOff p) (fun a => a.portDrop p))
/-- LNK_CTRL op ENABLE: DOWN → TRAINING (15 R334). -/
def execLnkEnable (m : Master) (p : Fin 32) (s : State) : Res := ok (s.guarded m (lnkCtrlOff p) (fun a => a.portTrain p))

end Sys2Proof.Machine
end

