-- ==== Sys2Proof/Machine/HbmCmds.lean ====
section
/-! DEFINITION. HBM's own commands: scrubbing (14 R308), temperature (R309, R310), row retirement (R311 to R316). -/

namespace Sys2Proof.Machine

/-- The window offset of a stack's register. -/
def stackOff (st o : Nat) : Nat := 0x100000 + 0x10000 * st + o

/-! Scrubbing (14 R308). -/

/-- The physical row that the active table has a row at. -/
def Stack.rowNow (x : Stack) (pc bank row : Nat) : Nat :=
  match x.active.find? (fun a => a.pc == pc && a.bank == bank && a.row == row) with
  | some a => 49120 + a.spare
  | none => row

/-- A scrub write-back of a burst at its physical place; a row that is being mirrored takes it at its spare too (R314). -/
def State.scrubStore (s : State) (pc o : Nat) (data : List Byte) : State :=
  let x := s.stack (pc / 32)
  let s1 := s.burstPut pc 32 (hbmKey pc o) data
  match x.build.find? (fun e => e.pc == pc % 32 && e.bank == bankOf o && x.rowNow e.pc e.bank e.row == rowOf o) with
  | none => s1
  | some e => s1.burstPut pc 32 (hbmKey pc (toRow o (49120 + e.spare))) data

/-- Whether the errors of a burst are corrected: some, and within the code's bound. -/
def State.corrects (s : State) (pc o : Nat) (errs : List (Nat × Byte)) : Bool :=
  !s.hbmBad.contains (hbmKey pc o / 32) &&
  (match rsDecode ((s.stack (pc / 32)).erased (pc % 32)) errs with | some (_ :: _) => true | _ => false)

/-- One granule scrubbed: its eight bursts read, and written back when one needed correction. -/
def State.scrubGranule (s : State) (pc o : Nat) (errs : List BurstErr) : State :=
  let bad := (List.range 8).any (fun j => s.corrects pc (o + 32 * j) (errsOf errs j))
  (List.range 8).foldl (fun (a : State) j =>
    match (a.busErrs pc (o + 32 * j) 0 errs j).burstRead pc (o + 32 * j) 0 (errsOf errs j) true with
    | (b, some d) => if bad then b.scrubStore pc (o + 32 * j) d else b
    | (b, none) => b) s

/-- HBM_SCRUB: the next granule of a pseudo-channel, in ascending offset over its 3 GiB, while the stack serves. -/
def execHbmScrub (st : Fin 16) (pc : Fin 32) (errs : List BurstErr) (s : State) : Res :=
  let x := s.stack st
  if x.rd F.HBM_STATUS_state ≠ 1 then ok s
  else
    let g := kget x.scrub pc 0
    let n := (g + 1) % 12582912
    let s1 := s.setStack st { x with scrub := if n = 0 then kdel x.scrub pc else kput x.scrub pc n }
    ok (s1.scrubGranule (32 * st.val + pc.val) (256 * g) errs)

/-! Temperature (14 R309, R310). -/

/-- Since when readings have been at or below a limit. -/
def coolSince (since : Option Nat) (temp limit now : Nat) : Option Nat := if temp ≤ limit then some (since.getD now) else none

/-- Whether that has lasted 10 ms. -/
def coolFor (since : Option Nat) (now : Nat) : Bool :=
  match since with
  | none => false
  | some a => decide (10 * msCycles ≤ now - a)

/-- The refresh code after a reading (R309): a rise at once, a fall once the readings allow it. -/
def refreshCode (old temp : Nat) (c85 c95 : Bool) : Nat :=
  if 95 < temp then 2
  else if old = 2 ∧ c95 = false then 2
  else if 85 < temp then 1
  else if 1 ≤ old ∧ c85 = false then 1
  else 0

/-- The record and the event of HBM_HOT. -/
def State.hbmHot (s : State) (st : Nat) : State :=
  ((s.setStack st ((s.stack st).wr F.HBM_STATUS_hot 1)).raised .HBM_HOT [st]).hbmRecord 1 6 st 0 0 0 0 []

/-- HBM_TEMP_READ. -/
def execHbmTempRead (st : Fin 16) (temp : Byte) (s : State) : Res :=
  let x := s.stack st
  let t := temp.toNat
  let c85 := coolSince x.cool85 t 82 s.time
  let c95 := coolSince x.cool95 t 92 s.time
  let hot := x.rd F.HBM_STATUS_throttled = 1
  let hotNow := if hot then decide (102 < t) else decide (105 < t)
  let y := ({ x with cool85 := c85, cool95 := c95 } : Stack).wrs
    [(F.HBM_TEMP_now, t), (F.HBM_TEMP_max, max t (x.rd F.HBM_TEMP_max)),
     (F.HBM_STATUS_refresh, refreshCode (x.rd F.HBM_STATUS_refresh) t (coolFor c85 s.time) (coolFor c95 s.time)),
     (F.HBM_STATUS_throttled, b2n hotNow)]
  let s1 := s.setStack st y
  ok (if hot = hotNow then s1 else s1.hbmHot st)

/-- HBM_TEMP_CLEAR: max takes the current reading. -/
def execHbmTempClear (m : Master) (st : Fin 16) (s : State) : Res :=
  ok (s.guarded m (stackOff st 8) (fun a => a.setStack st ((a.stack st).wr F.HBM_TEMP_max ((a.stack st).rd F.HBM_TEMP_now))))

/-! Row retirement (14 R311 to R316). -/

/-- An operation that the stack's state does not list. -/
def State.retBusy (s : State) (st : Nat) : State := s.logs .HBM_RET_BUSY [st]

/-- Burst `j` of a row copied to place `dst` as it stands, with its inverted check symbols when it is uncorrectable (R314). -/
def State.copyBurst (s : State) (src dst : Nat) (ue : Bool) : State :=
  { s with
    hbm := s.hbm.write dst (s.hbm.read src 32)
    hbmBad := if ue then (if s.hbmBad.contains (dst / 32) then s.hbmBad else s.hbmBad ++ [dst / 32]) else s.hbmBad.filter (· != dst / 32) }

/-- The bursts of a new row copied to its spare; those that read uncorrectable stay so there (R314). -/
def State.copyRow (s : State) (st : Nat) (e : Retire) (bad : List Nat) : State :=
  let pc := 32 * st + e.pc
  (List.range 32).foldl (fun (a : State) j =>
    let o := toRow (1024 * e.bank + 32 * j) e.row
    let src := a.hbmPhys pc o
    let b := (a.count (36 + 2 * st) 32).count (37 + 2 * st) 32
    let ue := bad.contains j || a.hbmBad.contains (src / 32)
    let c := if ue then
        (b.setStack st ((b.stack st).bump F.HBM_ECC_COUNTS_uncorrectable)).hbmRecord 2 1 st e.pc e.bank (rowOf (src % 0xC0000000)) j []
      else b
    c.copyBurst src (hbmKey pc (toRow o (49120 + e.spare))) ue) s

/-- HBM_ROW_COPY_DONE: every new row is copied; the stack is READY, and its swap is entered when auto_swap allows (R313). `uncorrectable`
names bursts that read uncorrectable as (entry of the new generation, burst). -/
def execHbmRowCopyDone (st : Fin 16) (uncorrectable : List (Nat × Nat)) (s : State) : Res :=
  let x := s.stack st
  if x.rd F.HBM_RET_STATUS_state ≠ 1 then ok s
  else
    let s1 := ((List.range x.build.length).zip x.build).foldl
      (fun a p => a.copyRow st p.2 ((uncorrectable.filter (·.1 == p.1)).map (·.2))) s
    ok ((s1.setStack st ((s1.stack st).wr F.HBM_RET_STATUS_state 2)).hbmAutoSwap st)

/-- HBM_RET_ADD: a candidate, as a hardware trigger would place it; a row above 49,151 is ignored. -/
def execHbmRetAdd (m : Master) (st : Fin 16) (s : State) : Res :=
  ok (s.guarded m (stackOff st 0x20) (fun a =>
    let x := a.stack st
    let row := x.rd F.HBM_RET_ADD_row
    if 49151 < row then a.retBusy st else a.hbmCandidate st (x.rd F.HBM_RET_ADD_pc) (x.rd F.HBM_RET_ADD_bank) row))

/-- HBM_RET_SCHEDULE: in READY, the swap at HBM_RET_SWAP_TN; HBM_LATE when it is not two ticks away. -/
def execHbmRetSchedule (m : Master) (st : Fin 16) (s : State) : Res :=
  ok (s.guarded m (stackOff st 0x20) (fun a =>
    let x := a.stack st
    if x.rd F.HBM_RET_STATUS_state ≠ 2 then a.retBusy st
    else
      match a.enterAct (x.rd F.HBM_RET_SWAP_TN_tn) 4 (1 + 256 * st.val) 3 with
      | (b, 0, _) => b.setStack st ((b.stack st).wr F.HBM_RET_STATUS_state 3)
      | (b, 1, _) => b.logs .HBM_LATE [st]
      | (b, _) => b.retBusy st))

/-- Whether an action is stack `st`'s table swap. -/
def isHbmSwap (st : Nat) (a : Act) : Bool := a.type == 4 && a.arg % 256 == 1 && a.arg / 256 % 256 == st

/-- HBM_RET_DISCARD: the new generation is dropped, its swap cancelled, mirroring ended. -/
def execHbmRetDiscard (m : Master) (st : Fin 16) (s : State) : Res :=
  ok (s.guarded m (stackOff st 0x20) (fun a =>
    let x := a.stack st
    if x.rd F.HBM_RET_STATUS_state = 0 then a.retBusy st
    else ((a.cancelActs (isHbmSwap st)).setStack st ({ x.wr F.HBM_RET_STATUS_state 0 with build := [] } : Stack).sync).hbmBuild st))

/-- HBM_TABLE_SWAP: the due action switches the stack to the new generation, which the CPC stores in the boot flash (R313, R315, R316). -/
def execHbmTableSwap (s : State) : Res :=
  match s.takeDue 4 (fun a => a.arg % 256 == 1) with
  | none => ok s
  | some (a, s1) =>
    let st := a.arg / 256 % 256
    let x := s1.stack st
    if x.rd F.HBM_RET_STATUS_state ≠ 3 then ok s1
    else
      let g := x.rd F.HBM_RET_STATUS_generation + 1
      let y := (({ x with active := x.nextTable, build := [], saved := x.nextTable, savedGen := g } : Stack).sync).wrs
        [(F.HBM_RET_STATUS_state, 0), (F.HBM_RET_STATUS_generation, g)]
      ok (((s1.setStack st y).newTable st x.active x.nextTable).hbmBuild st)

end Sys2Proof.Machine
end

