-- ==== Sys2Proof/Machine/SnapOps.lean ====
section
/-! DEFINITION. Snapshots (16): the plan, the mover, the commit board and the state table of R357. -/

namespace Sys2Proof.Machine

/-! The buddy region (16 R346). -/

/-- The buddy region. -/
def State.buddy? (s : State) : Option Region := s.image.regions.find? (fun r => r.attr % 2 == 1)

/-- The local base that every member's buddy region shares (R346). -/
def State.buddyBase (s : State) : Nat := (s.buddy?.map (·.base)).getD 0

/-- slot_size. -/
def State.slotSize (s : State) : Nat := ((s.buddy?.map (·.size)).getD 0 - 0x40000) / 2 / 0x100000 * 0x100000

/-- The local address of slot i. -/
def State.slotAt (s : State) (i : Nat) : Nat := 0x40000 + s.buddyBase + i * s.slotSize

/-- The global address of device d's local address a. -/
def devAddr (d a : Nat) : Nat := 2 ^ 48 * d + a

/-- The rank of a member (02 R36). -/
def State.rank (s : State) (d : Nat) : Nat := (s.image.members.filter (· < d)).length

/-- A write of the CPC, its outcome not awaited. -/
def State.cpcPut (s : State) (addr : Nat) (data : List Byte) : State := (s.hubWrite 0 addr data).1

/-! States and reports (R357). -/

def State.snapState (s : State) : Nat := s.rd F.HUB_SNAP_STATUS_state
def State.snapSet (s : State) (st : Nat) : State := s.wr F.HUB_SNAP_STATUS_state st
/-- N of the last cut that fired. -/
def State.snapN (s : State) : Nat := s.rd F.HUB_SNAP_STATUS_snapshot
/-- Whether this device is MEMBER. -/
def State.member (s : State) : Bool := s.rd F.HUB_GRP_STATUS_state == 1

/-- An error code reported. -/
def State.snapFail (s : State) (code : Nat) : State := (s.wr F.HUB_SNAP_STATUS_error code).raised .SNAP_ERROR [code]

/-! The plan (R344). -/

def planStep (p : List Byte) : Nat := le p 0 8
def planTable (p : List Byte) : Nat := le p 8 8
def planCursors (p : List Byte) : Nat := le p 16 2
def planTensors (p : List Byte) : Nat := le p 18 2
def planHolder (p : List Byte) : Nat := le p 20 2
def planCoord (p : List Byte) : Nat := le p 22 2
def planFence (p : List Byte) : Nat := le p 24 8
def planLossAddr (p : List Byte) : Nat := le p 32 8
def planLossLen (p : List Byte) : Nat := le p 40 1
def planBays (p : List Byte) : Nat := le p 48 8

/-- The plan's header, when it can be read. -/
def State.planHead (s : State) : State × Option (List Byte) := s.hubRead 0 (s.rd F.HUB_SNAP_PLAN_addr) 64 none []

/-- What the CPC reads of this device's memory at a local address; nothing when it meets an uncorrectable burst (14 R305). -/
def State.cpcRead (s : State) (a n : Nat) : State × List Byte :=
  match s.hubRead 0 (devAddr s.devId a) n none [] with
  | (s1, d) => (s1, d.getD [])

/-- The HBM region that holds n bytes at a global address of this device. -/
def State.hbmOf (s : State) (addr n : Nat) : Option Region :=
  if devOf addr ≠ s.devId then none
  else match s.target (addr % 2 ^ 48) n with
    | .hbm r => some r
    | _ => none

/-- The tensor entries after a header. -/
def tensorsOf (b : List Byte) (n : Nat) : List Tensor :=
  (List.range n).map (fun k => ⟨le b (32 * k) 8, le b (32 * k + 8) 8, le b (32 * k + 16) 4⟩)

/-- A tensor entry is valid. -/
def State.tensorOk (s : State) (t : Tensor) (b : List Byte) (k : Nat) : Bool :=
  t.addr % 256 == 0 && t.len % 256 == 0 && 256 ≤ t.len && t.len ≤ 2 ^ 40 && allZero (sub b (32 * k + 20) 12) &&
  (match s.hbmOf t.addr t.len with
   | some r => r.attr % 2 == 0
   | none => false)

/-- Whether a plan's header is valid. -/
def State.planOk (s : State) (h : List Byte) : Bool :=
  planCursors h ≤ 4096 && 1 ≤ planTensors h && planLossLen h ≤ 64 && allZero (sub h 41 7) && allZero (sub h 56 8) &&
  bitsOf (planFence h) 1 2 == 0 && planTable h % 32 == 0 && (planTable h != 0 || planCursors h == 0) &&
  (planTable h == 0 || (s.hbmOf (planTable h) (max 1 (32 * planCursors h))).isSome) &&
  (planLossLen h == 0 || devOf (planLossAddr h) == s.devId) &&
  (planFence h == 0 || planFence h % 2 == 1 || devOf (planFence h) == s.devId) &&
  planHolder h != s.devId && s.image.members.contains (planHolder h) && s.image.members.contains (planCoord h)

/-- What the hub reads when the cut fires (R345): header, tensors and cursor records of a valid plan. -/
def State.readPlan (s : State) : State × Option (List Byte × List Tensor × List Byte) :=
  let a := s.rd F.HUB_SNAP_PLAN_addr
  if a % 64 ≠ 0 ∨ (s.hbmOf a 64).isNone then (s, none)
  else
    match s.hubRead 0 a 64 none [] with
    | (s1, none) => (s1, none)
    | (s1, some h) =>
      if !s.planOk h then (s1, none)
      else
        match s1.hubRead 0 (a + 64) (32 * planTensors h) none [] with
        | (s2, none) => (s2, none)
        | (s2, some b) =>
          let ts := tensorsOf b (planTensors h)
          let good := (List.range ts.length).all (fun k => s.tensorOk (ts.getD k ⟨0, 0, 0⟩) b k) &&
            ts.all (fun t => (ts.filter (fun u => u.addr < t.addr + t.len && t.addr < u.addr + u.len)).length == 1)
          if !good then (s2, none)
          else if planCursors h = 0 then (s2, some (h, ts, []))
          else
            match s2.hubRead 0 (planTable h) (32 * planCursors h) none [] with
            | (s3, none) => (s3, none)
            | (s3, some c) => (s3, some (h, ts, c))

/-- Sum of the tensors' lengths. -/
def dataBytes (ts : List Tensor) : Nat := ts.foldl (fun n t => n + t.len) 0

/-! The commit (R354 to R356). -/

/-- A board entry or commit word. -/
def boardWord (n v : Nat) : List Byte := leBytes 4 n ++ leBytes 1 v ++ [0, 0, 0]

/-- The coordinator's verdict on N, written to every member in ascending device ID (R355): 1 COMMIT, 2 ABANDON. Another snapshot that is still
undecided stays so. -/
def State.verdict (s : State) (n v : Nat) : State :=
  s.image.members.foldl (fun a d => a.cpcPut (devAddr d (0x20000 + a.buddyBase)) (boardWord n v))
    { s with snap := { s.snap with coord := s.snap.coord.filter (fun c => c.1 != n) } }

/-- The board entry of rank r at this device. -/
def State.boardAt (s : State) (r : Nat) : State × List Byte := s.cpcRead (s.buddyBase + 8 * r) 8

/-- The board's first `n` entries. -/
def State.boardAll (s : State) (n : Nat) : State × List (List Byte) :=
  (List.range n).foldl (fun a r => let e := a.1.boardAt r; (e.1, a.2 ++ [e.2])) (s, [])

/-- The coordinator looks at its board (R355). -/
def State.boardLook (s : State) : State :=
  match s.snap.coord with
  | none => s
  | some (n, at_) =>
    let (s1, es) := s.boardAll s.image.members.length
    let late := s.rd F.HUB_SNAP_CFG_commit_ms * msCycles < s.time - at_
    if es.any (fun e => le e 0 4 == n && le e 4 1 == 2) ∨ s.member = false ∨ late then s1.verdict n 2
    else if es.all (fun e => le e 0 4 == n && le e 4 1 == 1) then s1.verdict n 1
    else s1

/-- This device's entry for N at the coordinator's board (R354): 1 HELD, 2 FAILED. -/
def State.board (s : State) (coord n v : Nat) : State :=
  (s.cpcPut (devAddr coord (s.buddyBase + 8 * s.rank s.devId)) (boardWord n v)).boardLook

/-- A cut with N fires: a snapshot of a lower number that this device, its coordinator, has not decided is abandoned (R355). -/
def State.coordOver (s : State) (n : Nat) : State :=
  match s.snap.coord with
  | some (m, _) => if m < n then s.verdict m 2 else s
  | none => s

/-- The commit of N begins at the coordinator (R355). -/
def State.coordBegin (s : State) (coord n : Nat) : State :=
  if coord ≠ s.devId then s else ({ s with snap := { s.snap with coord := some (n, s.time) } } : State).boardLook

/-- A cut of N refused (R349): the code, and FAILED to the board when the plan names a coordinator, which abandons N (R355). -/
def State.snapRefuse (s : State) (n code : Nat) : State :=
  let (s1, h) := (s.snapFail code).planHead
  match h with
  | none => s1
  | some h =>
    if s1.image.members.contains (planCoord h) then
      (if planCoord h = s1.devId then (s1.board (planCoord h) n 2).verdict n 2 else s1.board (planCoord h) n 2)
    else s1

/-- The copy in progress fails or is given up: IDLE, its code, FAILED to the board (R357). -/
def State.snapDrop (s : State) (code : Nat) : State :=
  ((s.snapSet 0).snapFail code).board (planCoord s.snap.plan) s.snapN 2

/-- The mover still reads the step's tensors (R351, R352). -/
def State.snapReading (s : State) : Bool := s.snapState == 2 && !s.on F.HUB_SNAP_STATUS_released

/-- CUT → COPYING: the mover starts (R351). -/
def State.snapStart (s : State) : State := if s.snapState = 1 then s.snapSet 2 else s

/-! The mover (R351 to R353). -/

/-- The tag of a copy write; its epoch is the snapshot's number (log 34). -/
def copyTag : Nat := 1

/-- One request of the copy to the holder. -/
def State.copyPut (s : State) (addr : Nat) (data : List Byte) : State :=
  let r : Req := { s.cpcReq addr with tag := BitVec.ofNat 32 copyTag, epoch := BitVec.ofNat 8 s.snapN }
  ({ s with snap := { s.snap with issued := s.snap.issued + data.length } } : State).sendWrite r 0xFF data

/-- A byte string sent to the holder in requests of at most 256 bytes. -/
def State.copyAll (s : State) : Nat → Nat → List Byte → State
  | 0, _, _ => s
  | n + 1, addr, b => if b.isEmpty then s else (s.copyPut addr (b.take 256)).copyAll n (addr + 256) (b.drop 256)

/-- The local address of the slot that takes N at the holder: the one without the last committed snapshot (R347). -/
def State.slotFor (s : State) : Nat := if s.on F.HUB_SNAP_LAST_valid then 1 - s.rd F.HUB_SNAP_LAST_slot else 0

/-- One tensor read, sent and digested; the data's offset within the slot. None when a burst is uncorrectable. -/
def State.moveTensor (s : State) (t : Tensor) (off : Nat) (errs : List BurstErr) : State × Option Nat :=
  match s.hubRead 0 t.addr t.len none errs with
  | (s1, none) => (s1, none)
  | (s1, some b) =>
    (s1.copyAll (t.len / 256 + 1) (devAddr (planHolder s.snap.plan) (s.slotAt (s.rd F.HUB_SNAP_STATUS_slot) + off)) b,
     some (rawDigest 0 (t.len / 8) b))

/-- Every tensor in plan order, with the errors that its reads meet; the digests so far, and whether all could be read. -/
def State.moveAll (s : State) (errs : List (List BurstErr)) : List Tensor → Nat → List Nat → State × Option (List Nat)
  | [], _, ds => (s, some ds)
  | t :: l, off, ds =>
    match s.moveTensor t off (errs.getD ds.length []) with
    | (s1, none) => (s1, none)
    | (s1, some d) => s1.moveAll errs l (off + t.len) (ds ++ [d])

/-- The manifest (R353). -/
def State.manifest (s : State) (ds : List Nat) : List Byte :=
  let h := s.snap.plan
  let ts := s.snap.tensors
  let offs := ts.foldl (fun (a : List Nat × Nat) t => (a.1 ++ [a.2], a.2 + t.len)) ([], 0x400000)
  let head := leBytes 4 0x50414E53 ++ leBytes 2 1 ++ leBytes 2 s.devId ++ leBytes 4 s.snapN ++ leBytes 4 ts.length ++
    leBytes 8 (planStep h) ++ leBytes 8 s.snap.cutTn ++ leBytes 8 s.sec.uid ++ leBytes 8 (s.rd F.HUB_GROUP_DIGEST_digest) ++
    leBytes 8 (s.rd F.HUB_STOW_GEN_generation) ++ leBytes 8 (dataBytes ts) ++ leBytes 8 (planTable h) ++
    leBytes 2 s.snap.keys.length ++ leBytes 2 (planCursors h) ++ leBytes 1 (planLossLen h) ++ leBytes 3 0 ++
    leBytes 8 (planLossAddr h) ++ List.replicate 40 0
  let tens := ((List.range ts.length).map (fun k =>
    let t := ts.getD k ⟨0, 0, 0⟩
    leBytes 8 t.addr ++ leBytes 8 t.len ++ leBytes 4 t.id ++ leBytes 4 0 ++ leBytes 8 (offs.1.getD k 0) ++ leBytes 16 (ds.getD k 0))).flatten
  let strs := (s.snap.keys.map (fun e => leBytes 2 e.1 ++ leBytes 6 0 ++ leBytes 8 e.2.1 ++ leBytes 8 e.2.2 ++ leBytes 8 0)).flatten
  let body := head ++ tens ++ strs ++ s.snap.cursors
  body ++ sha384 body

/-- An acknowledgement of a copy write (R353): the copy is held when the totals meet, and fails on another status. A FENCED
device holds none (R356; 15 R339): it stays COPYING (DEDUCED, log 114). -/
def State.snapAck (s : State) (epoch : Nat) (st : Status) (n : Nat) : State :=
  if s.snapState ≠ 2 ∨ epoch ≠ s.snapN % 256 then s
  else if st ≠ .ok then (s.logs .SNAP_COPY_FAIL [s.snapN]).snapDrop 6
  else
    let s1 := { s with snap := { s.snap with acked := s.snap.acked + n } }
    if s1.on F.HUB_SNAP_STATUS_released && s1.snap.acked == s1.snap.issued && !s1.fenced then
      (s1.snapSet 3).board (planCoord s1.snap.plan) s1.snapN 1
    else s1

/-! The settings area: HUB_SNAP_LAST and HUB_SNAP_LAST_STEP (R356, R357). -/

/-- Keys of the settings area (log 35): 1 HUB_SNAP_LAST, 2 HUB_SNAP_LAST_STEP. -/
def State.saveSnap (s : State) : State :=
  let m := kput (kput s.fw.settings 1 (rget s.regs 0x520).toNat) 2 (rget s.regs 0x528).toNat
  { s with fw := { s.fw with settings := m } }

/-- The values of the settings area at a start. -/
def State.loadSnap (s : State) : State :=
  s.setRegs (rput (rput s.regs 0x520 (BitVec.ofNat 64 (kget s.fw.settings 1 0))) 0x528 (BitVec.ofNat 64 (kget s.fw.settings 2 0)))

/-- HUB_SNAP_LAST set. -/
def State.setLast (s : State) (n slot witness step : Nat) : State :=
  (s.wrs [(F.HUB_SNAP_LAST_snapshot, n), (F.HUB_SNAP_LAST_slot, slot), (F.HUB_SNAP_LAST_valid, 1), (F.HUB_SNAP_LAST_witness, witness),
    (F.HUB_SNAP_LAST_STEP_step, step)]).saveSnap

end Sys2Proof.Machine
end

