-- ==== Sys2Proof/Machine/Snap.lean ====
section
/-! DEFINITION. The commands of snapshots, restore and replay (16), and the shelf engine's writes (R359, R360; 22 R457 to R459). -/

namespace Sys2Proof.Machine

/-- Bytes of this device that the hub reads, or free bytes where they cannot be read (log 36). -/
def State.readOrFree (s : State) (addr n : Nat) : State × List Byte :=
  match s.hubRead 0 addr n none [] with
  | (s1, some b) => (s1, b)
  | (s1, none) => let g := s1.draw; (g.2, (List.range n).map (Config.freeByte g.1))

/-! The shelf engine. -/

/-- SHELF_IO: raised, with the error code and the register bit (16, 22). -/
def State.shelfIo (s : State) : State :=
  (s.wrs [(F.SHELF_STATUS_shelf_io, 1), (F.HUB_SNAP_STATUS_error, 0x20)]).raised .SHELF_IO []

/-! The NVMe subset (R457). Where the queues, the PRP list and the buffers stand in staging memory is the model's choice (DESIGN CHOICE, log 37);
commands, queue entries and the controller's registers are laid out as NVMe lays them out (PRESUMED, log 123). -/

/-- The bus address of an offset of staging memory (R456). -/
def stagingBus (o : Nat) : Nat := 2 ^ 63 + o
/-- The admin queue pair of 32 entries, the I/O pair of 256, the PRP list, the buffer of admin data and that of blocks. -/
def adminSq : Nat := 0
def adminCq : Nat := 0x1000
def ioSq : Nat := 0x4000
def ioCq : Nat := 0x8000
def prpList : Nat := 0xA000
def adminBuffer : Nat := 0xB000
def shelfBuffer : Nat := 0x100000

/-- The shelf port's state with other bytes in staging memory. -/
def State.stagePut (s : State) (o : Nat) (data : List Byte) : State :=
  { s with shelf := { s.shelf with staging := s.shelf.staging.write o data } }

/-- A register of the controller written. -/
def State.nvmeReg (s : State) (off n v : Nat) : State := s.sends (.shelf true off n (leBytes n v))

/-- A submission queue entry: opcode, command identifier, namespace, the two PRPs, and command dwords 10 to 12. -/
def nvmeEntry (op cid nsid prp1 prp2 c10 c11 c12 : Nat) : List Byte :=
  leBytes 2 op ++ leBytes 2 cid ++ leBytes 4 nsid ++ List.replicate 16 0 ++ leBytes 8 prp1 ++ leBytes 8 prp2 ++
    leBytes 4 c10 ++ leBytes 4 c11 ++ leBytes 4 c12 ++ List.replicate 12 0

/-- An admin command: its entry in the queue, and the doorbell. -/
def State.nvmeAdmin (s : State) (op nsid prp1 c10 c11 : Nat) : State :=
  let x := s.shelf
  let s1 := s.stagePut (adminSq + 64 * x.adTail) (nvmeEntry op x.cid nsid prp1 0 c10 c11 0)
  ({ s1 with shelf := { s1.shelf with adTail := (x.adTail + 1) % 32, cid := (x.cid + 1) % 2 ^ 16 } } : State).nvmeReg 0x1000 4 ((x.adTail + 1) % 32)

/-- An I/O command on `n` blocks in the buffer, described by PRPs: one page, two, or a list. -/
def State.nvmeIo (s : State) (op lba n : Nat) : State :=
  let x := s.shelf
  let page := fun (k : Nat) => stagingBus (shelfBuffer + 4096 * k)
  let prp2 := if n ≤ 1 then 0 else if n = 2 then page 1 else stagingBus prpList
  let s1 := if 2 < n then s.stagePut prpList (((List.range (n - 1)).map (fun k => leBytes 8 (page (k + 1)))).flatten) else s
  let s2 := s1.stagePut (ioSq + 64 * x.ioTail)
    (nvmeEntry op x.cid x.nsid (if n = 0 then 0 else page 0) prp2 (lba % 2 ^ 32) (lba / 2 ^ 32) (n - 1))
  ({ s2 with shelf := { s2.shelf with ioTail := (x.ioTail + 1) % 256, cid := (x.cid + 1) % 2 ^ 16 } } : State).nvmeReg 0x1008 4 ((x.ioTail + 1) % 256)

/-- The controller reset by clearing CC.EN, given its admin queues, and enabled. -/
def State.nvmeEnable (s : State) : State :=
  ((((({ s with shelf := { s.shelf with queues := false, adTail := 0, ioTail := 0 } } : State).nvmeReg 0x14 4 0).nvmeReg 0x24 4 0x1F001F).nvmeReg
    0x28 8 (stagingBus adminSq)).nvmeReg 0x30 8 (stagingBus adminCq)).nvmeReg 0x14 4 0x460001

/-- Set Features Number of Queues, then the I/O pair: Create I/O Completion Queue, its interrupts disabled, and Create I/O Submission Queue. -/
def State.nvmeQueues (s : State) : State :=
  let s1 := ((s.nvmeAdmin 9 0 0 7 0).nvmeAdmin 5 0 (stagingBus ioCq) 0xFF0001 1).nvmeAdmin 1 0 (stagingBus ioSq) 0xFF0001 0x10001
  { s1 with shelf := { s1.shelf with queues := true } }

/-- Identify, of the controller and of the namespace. -/
def State.nvmeIdentify (s : State) : State :=
  (s.nvmeAdmin 6 0 (stagingBus adminBuffer) 1 0).nvmeAdmin 6 s.shelf.nsid (stagingBus adminBuffer) 0 0

/-- Delete I/O Submission Queue, Delete I/O Completion Queue. -/
def State.nvmeDelete (s : State) : State :=
  let s1 := (s.nvmeAdmin 0 0 0 1 0).nvmeAdmin 4 0 0 1 0
  { s1 with shelf := { s1.shelf with queues := false } }

/-- Get Log Page: 512 bytes of SMART / Health Information. -/
def State.nvmeHealth (s : State) : State := s.nvmeAdmin 2 0xFFFFFFFF (stagingBus adminBuffer) 0x7F0002 0

/-- The controller reset, its queues created again (R459). -/
def State.nvmeReset (s : State) : State := (s.bump F.SHELF_ERRS_resets).nvmeEnable.nvmeQueues

/-- The I/O command outstanding: Write 1, Flush 0. -/
def State.shelfCmd (s : State) (op lba n : Nat) : State :=
  let s1 := s.nvmeIo op lba n
  { s1 with shelf := { s1.shelf with cmdAt := some s.time, op := op } }

/-- Data placed in the buffer, and the Write of its blocks. -/
def State.shelfWrite (s : State) (lba : Nat) (data : List Byte) : State := (s.stagePut shelfBuffer data).shelfCmd 1 lba (data.length / 4096)

/-- Bytes from offset `o` of the blocks from `base` on, read in Reads of at most 256 KiB: each comes into the buffer, and goes from there to a
global address where one is given (R456). -/
def State.shelfFetch (s : State) (base o : Nat) (put : Option Nat) (d : List Byte) : Nat → State
  | 0 => s
  | f + 1 =>
    if d.isEmpty then s
    else
      let k := o % 4096
      let p := d.take (0x40000 - k)
      let s1 := (s.nvmeIo 2 (base + o / 4096) ((k + p.length + 4095) / 4096)).stagePut (shelfBuffer + k) p
      let s2 := match put with
        | some a => s1.cpcPut a (s1.shelf.staging.read (shelfBuffer + k) p.length)
        | none => s1
      s2.shelfFetch base (o + p.length) (put.map (· + p.length)) (d.drop (0x40000 - k)) f

/-- The first block of a job's shelf. -/
def State.shelfBase (s : State) (j : ShelfJob) : Nat := j.shelf * s.rd F.HUB_SNAP_SHELF_shelf_lbas

/-- Bytes filled with zeros to a block of 4 KiB. -/
def padBlock (d : List Byte) : List Byte := d ++ List.replicate (4096 - d.length) 0

/-- The shelf header (R360). -/
def shelfHeader (j : ShelfJob) : List Byte :=
  padBlock (leBytes 4 0x464C4853 ++ leBytes 4 j.number ++ leBytes 2 j.origin ++ leBytes 1 (b2n (j.wit == 2)) ++ leBytes 5 0 ++
    leBytes 8 j.step ++ leBytes 8 j.blocks ++ j.digest)

/-- Whether 128 bytes are a valid witness record of N (R361). -/
def witnessOk (w : List Byte) (n : Nat) : Bool :=
  w.length == 128 && le w 0 4 == n && 1 ≤ le w 4 1 && le w 4 1 ≤ 64 && sub w 80 48 == sha384 (w.take 80)

/-- The witness record in a job's slot. -/
def State.slotWitness (s : State) (j : ShelfJob) : State × List Byte := s.cpcRead (s.slotAt j.slot) 128

/-- The copy stops (R360, R459): ERROR, SHELF_IO, the failed command counted, the controller reset. -/
def State.shelfStop (s : State) : State :=
  let s1 := { s with snap := { s.snap with job := none }, shelf := { s.shelf with cmdAt := none } }
  ((s1.bump F.SHELF_ERRS_io_errors).wr F.HUB_SNAP_SHELF_STATUS_state 2).shelfIo

/-- The command of a job's phase is issued. A block of the slot that cannot be read is an I/O error. -/
def State.shelfIssue (s : State) (j : ShelfJob) : State :=
  let s0 := { s with snap := { s.snap with job := some j } }
  let base := s.shelfBase j
  if j.phase = 0 then s0.shelfWrite base (padBlock [])
  else if j.phase = 1 then
    let n := min 64 (j.blocks - j.next)
    let r := s0.hubRead 0 (devAddr s.devId (s.slotAt j.slot + 4096 * j.next)) (4096 * n) none []
    match r.2 with
    | some b => r.1.shelfWrite (base + 1 + j.next) b
    | none => r.1.shelfStop
  else if j.phase = 5 ∨ j.phase = 9 then
    let r := s0.slotWitness j
    r.1.shelfWrite (base + 1) (padBlock r.2)
  else if j.phase = 3 ∨ j.phase = 7 then s0.shelfWrite base (shelfHeader j)
  else s0.shelfCmd 0 0 0

/-- Bytes of the manifest's head in slot i of this device's buddy region. -/
def State.slotHead (s : State) (i : Nat) : State × List Byte := s.cpcRead (0x1000 + s.slotAt i) 128

/-- Whether a manifest's head is that of snapshot n of another device than `dev`. -/
def holdsCopy (h : List Byte) (n dev : Nat) : Bool := le h 0 4 == 0x50414E53 && le h 8 4 == n && le h 6 2 != dev

/-- The slot that holds snapshot n of another device (R359). -/
def State.slotOf (s : State) (n : Nat) : State × Option Nat :=
  if s.buddy?.isNone then (s, none)
  else
    let r0 := s.slotHead 0
    let r1 := r0.1.slotHead 1
    if holdsCopy r0.2 n s.devId then (r0.1, some 0) else (r1.1, if holdsCopy r1.2 n s.devId then some 1 else none)

/-- The manifest's length that a head gives. -/
def manifestLen (h : List Byte) : Nat := 128 + 48 * le h 12 4 + 32 * le h 72 2 + 32 * le h 74 2 + 48

/-- A copy of slot i begins, or SHELF_IO says why it cannot (R359, R360; 22 R458, R459): on the shelf after the newest complete copy, which the CPC
knows across starts from the shelves' headers (DEDUCED, log 115). -/
def State.shelfBegin (s0 : State) (i n : Nat) : State :=
  let r := s0.slotHead i
  let s := r.1
  let h := r.2
  let lbas := s.rd F.HUB_SNAP_SHELF_shelf_lbas
  let blocks := (0x400000 + le h 56 8 + 4095) / 4096
  let sh := match s.snap.newest with | some j => (j.shelf + 1) % s.rd F.HUB_SNAP_SHELF_shelves | none => 0
  if s.rd F.SHELF_STATUS_state ≠ 2 ∨ lbas < blocks + 1 ∨ s.rd F.SHELF_NS_blocks < (sh + 1) * lbas then s.shelfIo
  else
    let d := s.cpcRead (0x1000 + s.slotAt i + manifestLen h - 48) 48
    let j : ShelfJob := { number := n, origin := le h 6 2, step := le h 16 8, slot := i, shelf := sh, blocks := blocks, digest := d.2 }
    let w := d.1.slotWitness j
    (w.1.wr F.HUB_SNAP_SHELF_STATUS_state 1).shelfIssue { j with wit := if witnessOk w.2 n then 2 else 0 }

/-- A commit of N reaches this device as a holder (R359): the copy begins, or waits for the one in progress. -/
def State.shelfCommit (s : State) (n : Nat) : State :=
  if s.on F.HUB_SNAP_CFG_auto_shelf && 2 ≤ s.rd F.HUB_SNAP_SHELF_shelves then
    let (s1, i) := s.slotOf n
    match i with
    | none => s1
    | some i =>
      if s1.snap.job.isSome then
        ({ s1 with snap := { s1.snap with waiting := some n } } : State).wr F.HUB_SNAP_SHELF_STATUS_pending 1
      else s1.shelfBegin i n
  else s

/-- The commit that waits, once the shelf engine is free. -/
def State.shelfNext (s : State) : State :=
  match s.snap.waiting with
  | none => s
  | some n => (({ s with snap := { s.snap with waiting := none } } : State).wr F.HUB_SNAP_SHELF_STATUS_pending 0).shelfCommit n

/-- After the last flush: the shelf is the newest complete copy; a witness that came late is written now. -/
def State.shelfDone (s : State) (j : ShelfJob) : State :=
  let s1 := { s with snap := { s.snap with newest := some j, job := none } }
  let s2 := s1.wrs [(F.HUB_SNAP_SHELF_STATUS_newest, j.shelf), (F.HUB_SNAP_SHELF_STATUS_newest_valid, 1),
    (F.HUB_SNAP_SHELF_STATUS_snapshot, j.number)]
  if j.wit = 1 then s2.shelfIssue { j with phase := 5 }
  else s2.wr F.HUB_SNAP_SHELF_STATUS_state 0

/-- A command of the job completed: the next one. -/
def State.shelfStep (s : State) (j : ShelfJob) : State :=
  if j.phase = 0 then s.shelfIssue { j with phase := 1 }
  else if j.phase = 1 then
    let nx := j.next + min 64 (j.blocks - j.next)
    if nx < j.blocks then s.shelfIssue { j with next := nx }
    else if j.wit = 1 then s.shelfIssue { j with next := nx, phase := 9 } else s.shelfIssue { j with next := nx, phase := 2 }
  else if j.phase = 9 then s.shelfIssue { j with phase := 2, wit := 2 }
  else if j.phase = 2 then (if j.wit = 1 then s.shelfIssue { j with phase := 9 } else s.shelfIssue { j with phase := 3 })
  else if j.phase = 3 then s.shelfIssue { j with phase := 4 }
  else if j.phase = 5 then s.shelfIssue { j with phase := 6, wit := 2 }
  else if j.phase = 6 then s.shelfIssue { j with phase := 7 }
  else if j.phase = 7 then s.shelfIssue { j with phase := 8 }
  else s.shelfDone j

/-- A commit that waits is taken up when no copy is in progress any more. -/
def State.shelfFree (s : State) : State := if s.snap.job.isNone then s.shelfNext else s

/-- A command that ends with an error or not at all (22 R459): a copy stops, SHELF_IO is raised, the controller is reset. -/
def State.shelfFailed (s : State) : State :=
  (if s.snap.job.isSome then s.shelfStop else (s.bump F.SHELF_ERRS_io_errors).shelfIo).nvmeReset.shelfFree

/-- SHELF_IO_COMPLETE: the polled completion of the command outstanding (16 R360; 22 R457, R459). -/
def execShelfIoComplete (good : Bool) (s : State) : Res :=
  match s.snap.job with
  | none => ok s
  | some j =>
    if s.shelf.cmdAt.isNone then ok s
    else
      let s1 := ({ s with shelf := { s.shelf with cmdAt := none } } : State).nvmeReg 0x100C 4 s.shelf.ioTail
      ok (if good then (s1.shelfStep j).shelfFree else s1.shelfFailed)

/-- The witness record of snapshot n in slot i goes to the shelf of that snapshot: with the copy in progress, or after it. -/
def State.witnessGoes (s : State) (i n : Nat) : State :=
  match s.snap.job with
  | some j => if j.slot = i ∧ j.number = n ∧ j.wit = 0 then { s with snap := { s.snap with job := some { j with wit := 1 } } } else s
  | none =>
    match s.snap.newest with
    | some j =>
      if j.slot = i ∧ j.number = n ∧ j.wit = 0 ∧ s.rd F.SHELF_STATUS_state = 2 then
        (s.wr F.HUB_SNAP_SHELF_STATUS_state 1).shelfIssue { j with phase := 5, wit := 1 }
      else s
    | none => s

/-- A witness record arrived in a slot of this device, which is the holder (R361). -/
def State.witnessArrived (s : State) (i : Nat) : State := (s.slotHead i).1.witnessGoes i (le (s.slotHead i).2 8 4)

/-! The cut and the copy. -/

/-- The streams that a plan saves: present tiles of its bays, ascending, with TILE_V_KEY and TILE_V_STEP (R348). -/
def State.streams (s : State) (bays : Nat) : List (Nat × Nat × Nat) :=
  ((List.range 1200).filter (fun t => s.present t && ((s.bayOf t).map (bitOf bays)).getD false)).map
    (fun t => (t, s.trd t F.TILE_V_KEY_key, s.trd t F.TILE_V_STEP_step))

/-- The cut of N (R348 to R350, R357). -/
def State.cut (s0 : State) (n : Nat) : State :=
  let s := s0.coordOver n
  let st := s.snapState
  if !s.member then s.snapRefuse n 5
  else if st = 1 ∨ st = 2 ∨ st = 4 then s.snapRefuse n 1
  else if n ≤ s.snapN then s.snapRefuse n 4
  else
    let s1 := if st = 3 then s.wr F.HUB_SNAP_STATUS_error 7 else s
    let s2 := s1.wrs [(F.HUB_SNAP_STATUS_state, 1), (F.HUB_SNAP_STATUS_released, 0), (F.HUB_SNAP_STATUS_snapshot, n),
      (F.HUB_SNAP_STATUS_slot, s.slotFor), (F.HUB_SNAP_RESULT_restored, 0)]
    match s2.readPlan with
    | (s3, none) => (s3.snapSet 0).snapRefuse n 2
    | (s3, some (h, ts, c)) =>
      let s4 := { s3 with snap := { s3.snap with plan := h, tensors := ts, cursors := c, keys := s.streams (planBays h), cutTn := s.tn,
                                                 issued := 0, acked := 0 } }
      if s4.slotSize < 0x400000 + dataBytes ts then (s4.snapSet 0).snapRefuse n 3
      else
        let s5 := s4.coordBegin (planCoord h) n
        let k := max 1 (s5.rd F.HUB_SNAP_CFG_interval)
        let s6 := if s5.on F.HUB_SNAP_LAST_valid && s5.rd F.HUB_SNAP_LAST_STEP_step + k < planStep h then
            (s5.wr F.HUB_SNAP_STATUS_overdue 1).raised .SNAP_OVERDUE [n] else s5
        if s6.stopped then s6 else s6.snapStart

/-- SNAPSHOT_CUT: the action fires (R348). -/
def execSnapshotCut (s : State) : Res :=
  match s.takeDue 2 with
  | none => ok s
  | some (a, s1) => ok ((s1.cut (a.arg % 2 ^ 32)).cutEnds a.slot true)

/-- SNAP_RELEASE: the mover's reads are done (R351, R352). The requests of the whole copy are sent by this command (log 38).
`errs`: the errors that each tensor's reads meet; `confirmed`: the confirmation of a release fence outside the device's memory shows no error. A
fence that cannot be written raises nothing (DEDUCED, log 85). -/
def execSnapRelease (s : State) (errs : List (List BurstErr) := []) (confirmed : Bool := true) : Res :=
  if s.snapState ≠ 2 ∨ s.on F.HUB_SNAP_STATUS_released then ok s
  else
    match s.moveAll errs s.snap.tensors 0x400000 [] with
    | (s1, none) => ok ((s1.logs .SNAP_COPY_FAIL [s.snapN]).snapDrop 6)
    | (s1, some ds) =>
      let m := s1.manifest ds
      let s2 := s1.copyAll (m.length / 256 + 1) (devAddr (planHolder s.snap.plan) (0x1000 + s.slotAt (s.rd F.HUB_SNAP_STATUS_slot))) m
      let s3 := s2.wr F.HUB_SNAP_STATUS_released 1
      let f := planFence s.snap.plan
      if f = 0 then ok (s3.raised .SNAP_RELEASED [s.snapN])
      else
        let w := s3.hubWrite (f % 2) (f / 8 * 8) (leBytes 8 s.snapN)
        ok (if w.2 = 0 ∨ w.2 = 1 ∧ confirmed = true then w.1.raised .SNAP_RELEASED [s.snapN] else w.1.confirmed (w.2 != 1))

/-- SNAP_ACK_TIMEOUT: an acknowledgement is missing after 1 ms (R353). -/
def execSnapAckTimeout (s : State) : Res :=
  if s.snapState = 2 ∧ s.snap.acked < s.snap.issued then ok ((s.logs .SNAP_COPY_FAIL [s.snapN]).snapDrop 6) else ok s

/-- SNAP_COMMIT_TIMEOUT: commit_ms passes at the coordinator (R355). -/
def execSnapCommitTimeout (s : State) : Res :=
  match s.snap.coord with
  | some (n, _) => ok (s.verdict n 2)
  | none => ok s

/-- A commit of N (R356): recorded, IDLE; and as a holder, its ward's copy goes to the shelf (R359). -/
def State.snapCommit (s : State) : State :=
  (((s.setLast s.snapN (s.rd F.HUB_SNAP_STATUS_slot) 0 (planStep s.snap.plan)).snapSet 0).shelfCommit s.snapN)

/-- SNAP_COMMIT_POLL: in HELD, a MEMBER reads its commit word (R356). -/
def execSnapCommitPoll (s : State) : Res :=
  if s.snapState ≠ 3 ∨ s.member = false then ok s
  else
    match s.hubRead 0 (devAddr s.devId (0x20000 + s.buddyBase)) 8 none [] with
    | (s1, none) => ok s1
    | (s1, some w) =>
      if le w 0 4 ≠ s.snapN then ok s1
      else if le w 4 1 = 1 then ok s1.snapCommit
      else if le w 4 1 = 2 then ok ((s1.snapSet 0).snapFail 7)
      else ok s1

/-! HUB_SNAP_CTRL. -/

/-- The window offset of HUB_SNAP_CTRL. -/
def snapCtrl : Nat := 0x510

/-- No LAUNCH holds a bay. -/
def State.noBayHeld (s : State) : Bool := s.bays.all (fun e => e.2.holder.isNone)

/-- Checks 1 to 5 of R362: the code of the first failure. -/
def State.restoreCheck (s : State) (src : SourceIn) : Option Nat :=
  let m := src.manifest
  let n := s.rd F.HUB_SNAP_SRC_snapshot
  let t := le m 12 4
  let k := le m 72 2
  let strs := (List.range k).map (fun j => 128 + 48 * t + 32 * j)
  let curs := (List.range (le m 74 2)).map (fun j => 128 + 48 * t + 32 * k + 32 * j)
  let head := src.shelfHeader
  if !(src.reachable && (s.rd F.HUB_SNAP_SRC_kind == 0 || s.rd F.SHELF_STATUS_state == 2) && 128 ≤ m.length && le m 0 4 == 0x50414E53 && le m 4 2 == 1 && le m 8 4 == n &&
      (s.rd F.HUB_SNAP_SRC_kind == 0 || (le head 0 4 == 0x464C4853 && le head 4 4 == n && 80 ≤ head.length))) then some 0x10
  else if !(m.length == manifestLen m && m.drop (m.length - 48) == sha384 (m.take (m.length - 48))) then some 0x11
  else if !(le m 6 2 == s.devId && le m 40 8 == s.rd F.HUB_GROUP_DIGEST_digest) then some 0x12
  else if !(strs.all (fun o => s.present (le m o 2)) && (List.range t).all (fun i =>
      match s.hbmOf (le m (128 + 48 * i) 8) (le m (136 + 48 * i) 8) with
      | some r => r.attr % 2 == 0
      | none => false)) then some 0x13
  else if !(curs.all (fun o => le m (o + 16) 8 == le m 16 8) &&
      (s.on F.HUB_SNAP_CFG_align_to_data || strs.all (fun o => le m (o + 16) 8 == le m 16 8))) then some 0x14
  else none

/-- The first block of the shelf that HUB_SNAP_SRC names. -/
def State.srcBase (s : State) : Nat := s.rd F.HUB_SNAP_SRC_shelf * s.rd F.HUB_SNAP_SHELF_shelf_lbas

/-- Bytes of a shelf's slot image read, from block 1 on; nothing where the source is no attached shelf. -/
def State.srcFetch (s : State) (o : Nat) (put : Option Nat) (d : List Byte) : State :=
  if s.rd F.HUB_SNAP_SRC_kind = 1 ∧ s.rd F.SHELF_STATUS_state = 2 then s.shelfFetch (s.srcBase + 1) o put d (d.length + 1) else s

/-- A source that cannot be read: a Read of an attached shelf failed (22 R459). -/
def State.srcFailed (s : State) (src : SourceIn) : State :=
  if !src.reachable && s.rd F.HUB_SNAP_SRC_kind == 1 && s.rd F.SHELF_STATUS_state == 2 then s.shelfFailed else s

/-- The Reads of the restore from a shelf, outstanding since now or none. -/
def State.readsAt (s : State) (t : Option Nat) : State := { s with shelf := { s.shelf with readAt := t } }

/-- RESTORE (R362): accepted in IDLE with no bay held; checks 1 to 5. A shelf's header and manifest are read first. -/
def execRestore (m : Master) (src : SourceIn) (s : State) : Res :=
  ok (s.guarded m snapCtrl (fun a =>
    if a.snapState ≠ 0 ∨ a.noBayHeld = false then a.snapFail 1
    else
      let b := ((if a.rd F.HUB_SNAP_SRC_kind = 1 ∧ a.rd F.SHELF_STATUS_state = 2 then a.shelfFetch a.srcBase 0 none (src.shelfHeader.take 4096) 2
        else a).srcFetch 0x1000 none src.manifest).srcFailed src
      match a.restoreCheck src with
      | some c => b.snapFail c
      | none => ({ b.snapSet 4 with snap := { b.snap with manifest := src.manifest } } : State).readsAt
          (if a.rd F.HUB_SNAP_SRC_kind = 1 then some a.time else none)))

/-- The named tensors of a manifest hold undefined values (R362). -/
def State.loseTensors (s : State) (m : List Byte) : State :=
  let g := s.draw
  (List.range (le m 12 4)).foldl (fun a i => a.cpcPut (le m (128 + 48 * i) 8)
    ((List.range (le m (136 + 48 * i) 8)).map (fun k => Config.freeByte g.1 (le m (128 + 48 * i) 8 + k)))) g.2

/-- Check 6: each tensor copied back, from a shelf by way of staging memory (22 R456), and compared; the first that differs. -/
def State.restoreTensors (s : State) (m : List Byte) (ts : List (List Byte)) : State × Option Nat :=
  (List.range (le m 12 4)).foldl
    (fun (acc : State × Option Nat) i =>
      match acc.2 with
      | some _ => acc
      | none =>
        let o := 128 + 48 * i
        let d := ts.getD i []
        if d.length = le m (o + 8) 8 ∧ rawDigest 0 (d.length / 8) d = le m (o + 32) 16 then
          (if acc.1.rd F.HUB_SNAP_SRC_kind = 1 then acc.1.srcFetch (le m (o + 24) 8) (some (le m o 8)) d else acc.1.cpcPut (le m o 8) d, none)
        else (acc.1, some (le m (o + 16) 4)))
    (s, none)

/-- Step 7 of R362: cursors, then each stream, its step aligned under R363. -/
def State.restoreRest (s : State) (m : List Byte) : State :=
  let t := le m 12 4
  let k := le m 72 2
  let n := le m 16 8
  let c := le m 74 2
  let strs := (List.range k).map (fun j => 128 + 48 * t + 32 * j)
  let s1 := if c = 0 then s else s.cpcPut (le m 64 8) (sub m (128 + 48 * t + 32 * k) (32 * c))
  let s2 := strs.foldl (fun a o =>
    let step := if a.on F.HUB_SNAP_CFG_align_to_data then n else le m (o + 16) 8
    a.setTile (le m o 2) ((a.tile (le m o 2)).wrs [(F.TILE_V_KEY_key, le m (o + 8) 8), (F.TILE_V_STEP_step, step)])) s1
  s2.wr F.HUB_SNAP_RESULT_aligned ((strs.filter (fun o => le m (o + 16) 8 != n)).length)

/-- RESTORE_COMPLETE (R362, R363). -/
def execRestoreComplete (src : SourceIn) (s : State) : Res :=
  if s.snapState ≠ 4 then ok s
  else
    let m := s.snap.manifest
    let s0 := (s.snapSet 0).readsAt none
    if !src.reachable then ok (((s0.srcFailed src).loseTensors m).snapFail 0x10)
    else
      match s0.restoreTensors m src.tensors with
      | (s1, some id) => ok (((s1.loseTensors m).wr F.HUB_SNAP_RESULT_bad_tensor id).snapFail 0x15)
      | (s1, none) =>
        let n := le m 8 4
        let s2 := (s1.restoreRest m).setLast n (if s.rd F.HUB_SNAP_SRC_kind = 0 then s.rd F.HUB_SNAP_SRC_slot else s.rd F.HUB_SNAP_LAST_slot)
          (b2n (witnessOk src.witness n)) (le m 16 8)
        ok ((s2.wrs [(F.HUB_SNAP_RESULT_restored, 1), (F.HUB_SNAP_RESULT_replay, 0)]).raised .RESTORE_DONE [n])

/-- SHELF_CMD_TIMEOUT: 10 s without a completion (22 R459). A restore whose Read it is fails (R362). -/
def execShelfCmdTimeout (s : State) : Res :=
  if s.snapState = 4 ∧ s.shelf.readAt.isSome = true then
    ok (((s.snapSet 0).readsAt none |>.shelfFailed |>.loseTensors s.snap.manifest).snapFail 0x10)
  else if s.snap.job.isSome && s.shelf.cmdAt.isSome then ok s.shelfFailed else ok s

/-- REPLAY_CHECK (R365): accepted between a restore and the next cut. -/
def execReplayCheck (m : Master) (src : SourceIn) (s : State) : Res :=
  ok (s.guarded m snapCtrl (fun a =>
    if a.rd F.HUB_SNAP_RESULT_restored = 0 then a.snapFail 1
    else
      let mf := a.snap.manifest
      let w := src.witness
      let len := le mf 76 1
      let a := (a.srcFetch 0 none w).srcFailed src
      if !(src.reachable && witnessOk w (le mf 8 4) && le w 8 8 == le mf 16 8 + 1 && le w 4 1 == len) then a.wr F.HUB_SNAP_RESULT_replay 3
      else
        let r := a.readOrFree (le mf 80 8) len
        r.1.wr F.HUB_SNAP_RESULT_replay (if r.2 = sub w 16 len then 1 else 2)))

/-- WITNESS (R361). -/
def execWitness (m : Master) (s : State) : Res :=
  ok (s.guarded m snapCtrl (fun a =>
    let len := planLossLen a.snap.plan
    if !(a.on F.HUB_SNAP_LAST_valid && a.rd F.HUB_SNAP_LAST_snapshot == a.snapN && len != 0 && a.rd F.HUB_SNAP_LAST_witness == 0) then a.snapFail 1
    else
      let r := a.readOrFree (planLossAddr a.snap.plan) len
      let body := leBytes 4 a.snapN ++ leBytes 1 len ++ leBytes 3 0 ++ leBytes 8 (a.rd F.HUB_SNAP_LAST_STEP_step + 1) ++ r.2 ++
        List.replicate (64 - len) 0
      ((r.1.cpcPut (devAddr (planHolder a.snap.plan) (a.slotAt (a.rd F.HUB_SNAP_LAST_slot))) (body ++ sha384 body)).wr
        F.HUB_SNAP_LAST_witness 1).saveSnap))

/-- ABANDON (R357): in COPYING or HELD the mover stops, FAILED goes to the board. -/
def execSnapAbandon (m : Master) (s : State) : Res :=
  ok (s.guarded m snapCtrl (fun a => if a.snapState = 2 ∨ a.snapState = 3 then a.snapDrop 7 else a))

/-- CLEAR_ERROR. -/
def execSnapClearError (m : Master) (s : State) : Res := ok (s.guarded m snapCtrl (fun a => a.wr F.HUB_SNAP_STATUS_error 0))

end Sys2Proof.Machine
end

