-- ==== Sys2Proof/Machine/TimeOps.lean ====
section
/-! DEFINITION. What TN's movement does: dropped and due actions (03 R55 to R58, R65; 15 R339; 18 R401), setting TN (R56), and the group's
evaluation at a heartbeat (15 R335 to R339). -/

namespace Sys2Proof.Machine

/-! Dropped actions. -/

/-- A firmware operation refused: its code (21). -/
def State.fwFail (s : State) (code : Nat) : State := (s.wr F.HUB_FW_STATUS_error code).raised .FW_ERROR [code]

/-- The report of a dropped action's owner (03 R55): stowage (02 R41), an HBM stack (14 R315), firmware (21 R443), the snapshot unit
(16 R349) with the packet that entered the action (13 R283). -/
def State.dropOwner (s : State) (a : Act) : State :=
  if a.type = 2 then (s.snapRefuse (a.arg % 2 ^ 32) 5).cutEnds a.slot false
  else if a.type = 4 ∧ a.arg % 256 = 0 then
    if s.rd F.HUB_STOW_STATUS_state = 4 then
      (s.wrs [(F.HUB_STOW_STATUS_state, 3), (F.HUB_STOW_STATUS_error, 0x0F), (F.HUB_STOW_STATUS_error_offset, 0)]).raised .STOW_SWAP_REFUSED [] |>.launchAll
    else s
  else if a.type = 4 then
    let st := a.arg / 256 % 256
    if (s.stack st).rd F.HBM_RET_STATUS_state = 3 then
      (((s.setStack st ((s.stack st).wr F.HBM_RET_STATUS_state 2)).raised .HBM_SWAP_REFUSED [st]).hbmRecord 1 7 st 0 0 0 0 []).hbmAutoSwap st
    else s
  else if a.type = 5 then (if s.rd F.HUB_FW_STATUS_state = 4 then (s.wr F.HUB_FW_STATUS_state 3).fwFail 0x0A else s)
  else s

/-- An action dropped with TB_ACT_REFUSED or TB_ACT_MISSED: its event bit, then its owner's report. -/
def State.dropAct (s : State) (refused : Bool) (a : Act) : State :=
  ((s.wr (if refused then F.TB_EVENT_act_refused else F.TB_EVENT_act_missed) 1).raised
    (if refused then .TB_ACT_REFUSED else .TB_ACT_MISSED) [a.slot, a.type, a.tn]).dropOwner a

/-- Why an action that falls due is dropped: `some true` refused, `some false` missed, none fires (03 R55, R65; 15 R339; 18 R401). -/
def State.dropWhy (s : State) (a : Act) : Option Bool :=
  if s.pwrMb && a.type != 7 then some false
  else if s.tickLost && (a.type == 2 || a.type == 4 || a.type == 5) then some true
  else if s.fenced && a.type == 2 then some true
  else if s.stopped && (a.type == 3 || a.type == 6 || a.type == 8) then some false
  else none

/-- The rank of an action type among those of one tick (03 R58). -/
def actRank (type : Nat) : Nat :=
  match type with
  | 7 => 0 | 1 => 1 | 2 => 2 | 4 => 3 | 5 => 4 | 8 => 5 | 6 => 6 | _ => 7

/-- An action placed among sorted ones (03 R58: rank, then slot). -/
def insertAct (a : Act) : List Act → List Act
  | [] => [a]
  | b :: l =>
    if actRank a.type < actRank b.type ∨ (actRank a.type = actRank b.type ∧ a.slot < b.slot) then a :: b :: l else b :: insertAct a l

def sortActs (l : List Act) : List Act := l.foldl (fun m a => insertAct a m) []

/-- The actions of the new TN leave the table in firing order: dropped ones are reported, the others fall due. -/
def State.commitDue (s : State) : State :=
  let now := sortActs (s.tb.pend.filter (fun a => a.tn == s.tn))
  let s1 := s.setPend (s.tb.pend.filter (fun a => a.tn != s.tn))
  now.foldl (fun a x => match s.dropWhy x with
    | some r => a.dropAct r x
    | none => { a with tb := { a.tb with due := a.tb.due ++ [x] } }) s1

/-- TN set (03 R56): pending actions that it passes over are dropped with TB_ACT_MISSED. -/
def State.setTn (s : State) (tn : Nat) : State :=
  let old := s.tn
  let gone := fun (a : Act) => old < a.tn && a.tn ≤ tn
  let s1 := (s.setPend (s.tb.pend.filter (fun a => !gone a))).wr F.TB_TN_tn tn
  (sortActs (s.tb.pend.filter gone)).foldl (fun a x => a.dropAct false x) s1

/-- Stacks that wait READY with auto_swap take their swap once the timebase permits (14 R313). -/
def State.autoSwaps (s : State) : State := s.forEach (List.range 16) (fun a st => a.hbmAutoSwap st)

/-! The group (15). -/

/-- A change of HUB_GRP_STATUS.state, with tn_low. -/
def State.grpState (s : State) (st : Nat) : State :=
  if s.rd F.HUB_GRP_STATUS_state = st then s else s.wrs [(F.HUB_GRP_STATUS_state, st), (F.HUB_GRP_STATUS_tn_low, s.tn)]

/-- Whether member d is present in period p (R337). -/
def State.grpPresent (s : State) (p d : Nat) : Bool :=
  if d = s.devId then !s.fenced
  else (match kget? s.grp.latest d with
    | some l => decide (p ≤ l + 2)
    | none => false) && !s.grp.fenced.contains d

/-- The PRESENT registers for a list of flags by rank, from register n. -/
def putPresent : Regs → Nat → Nat → List Bool → Regs
  | r, _, 0, _ => r
  | r, n, k + 1, l =>
    putPresent (setFld r (F.HUB_GRP_PRESENT_present n) ((List.range 64).foldl (fun v i => v + b2n (l.getD i false) * 2 ^ i) 0)) (n + 1) k (l.drop 64)

/-- FENCED: every ACTIVE queue is GUILTY with PARTITIONED (R339). -/
def State.fence (s : State) : State :=
  s.forEach ((s.queues.filter (fun e => e.2.state == 1)).map (·.1)) (fun a q => a.feCause q 0x8A)

/-- The evaluation of period p (R337, R338). -/
def State.evaluate (s : State) (p : Nat) : State :=
  let ms := s.image.members
  let here := ms.map (s.grpPresent p)
  let n := (here.filter (· == true)).length
  let anchor := s.grpPresent p s.image.anchor
  let quorum := ms.length < 2 * n || (2 * n == ms.length && anchor)
  let s1 := (s.setRegs (putPresent s.regs 0 256 here)).wrs
    [(F.HUB_GRP_STATUS_present, n), (F.HUB_GRP_STATUS_anchor_present, b2n anchor), (F.HUB_GRP_STATUS_quorum, b2n quorum)]
  let st := s.rd F.HUB_GRP_STATUS_state
  if st = 2 then s1
  else if quorum then s1.grpState 1
  else if st = 1 then (s1.grpState 2).fence.boardLook
  else s1.boardLook

/-- A heartbeat edge (R335, R337): the MEMBERSHIP of the period on every UP port, then the evaluation unless a wake holds it back
(18 R401). A group of one member sends none and stays MEMBER. -/
def State.heartbeat (s : State) : State :=
  let p := s.tn / 100
  if s.image.members.length ≤ 1 then s
  else
    let pk := memberPacket s.devId p s.groupDigest s.fenced
    let s1 := s.forEach ((List.range 32).filter s.portUp) (fun a q => a.egressPut q pk)
    if s1.pwrMb then s1
    else if 0 < s1.grp.resume then
      let s2 := { s1 with grp := { s1.grp with resume := s1.grp.resume - 1 } }
      if s2.grp.resume = 0 then s2.evaluate p else s2
    else s1.evaluate p

/-- FORMING, as a start leaves the group (R338). -/
def State.forming (s : State) : State := ({ s with grp := {} } : State).grpState 0

/-- A group of one member is MEMBER from tick lock (R335). -/
def State.soloMember (s : State) : State :=
  if s.image.members.length = 1 then
    (s.wrs [(F.HUB_GRP_STATUS_present, 1), (F.HUB_GRP_STATUS_quorum, 1), (F.HUB_GRP_STATUS_anchor_present, 1),
      (F.HUB_GRP_PRESENT_present 0, 1)]).grpState 1
  else s

end Sys2Proof.Machine
end

