-- ==== Sys2Proof/Machine/StartOps.lean ====
section
/-! DEFINITION. Putting an image in force (02 R37, R42 to R45), verifying a boot image (21 R438, R439; 19 R406), and the steps of a start
(18 R388 to R393; 16 R357; 19 R413; 21 R443). -/

namespace Sys2Proof.Machine

/-! An image in force. -/

/-- A stowage failure: its code and offset (02). -/
def State.stowFail (s : State) (code off : Nat) : State :=
  (s.wrs [(F.HUB_STOW_STATUS_error, code), (F.HUB_STOW_STATUS_error_offset, off)]).raised .STOW_ERROR [code, off]

/-- The group digest (02 R37). -/
def Image.groupDigest (i : Image) : Nat := leNat ((sha384 (i.groupRaw ++ sub i.tickRaw 8 4)).take 8)

/-- The sites of the tiles that a bay holds. -/
def Image.sites (i : Image) : List Nat := ((i.bays.map (·.tiles)).flatten.filter i.present).map i.site
/-- The sites that an image maps: those of its present tiles, in a bay or not (02 R28). -/
def Image.mapped (i : Image) : List Nat := ((List.range 1200).filter i.present).map i.site

/-- Tiles whose site an image changes lose their scratchpad's contents (17 R379). -/
def State.moveTiles (s : State) (old new : Image) : State :=
  s.forEach ((List.range 1200).filter (fun t => old.present t && new.present t && old.site t != new.site t))
    (fun a t => let g := a.draw; g.2.setTile t { g.2.tile t with spad := { undef := some g.1 } })

/-- The tiles that some bay holds, ascending. -/
def Image.heldTiles (i : Image) : List Nat := (List.range 1200).filter (fun t => i.present t && i.bays.any (fun b => b.tiles.contains t))

/-- Sites of a swapped-in image: those no bay holds are gated, new ones ask for power, in ascending logical tile number (02 R29; 18 R395);
those that a start still has to power keep their places. -/
def State.powerSites (s : State) (i : Image) : State :=
  let keep := s.pwr.sites.filter (fun k => i.sites.contains k)
  let there := keep ++ (s.pwr.siteQ.map (·.2)).flatten
  ({ s with pwr := { s.pwr with sites := keep } } : State).forEach ((i.heldTiles.map i.site).filter (fun k => !there.contains k)) (fun a k =>
    let r := a.activate (k / 160) 1 k
    if r.2 then { r.1 with pwr := { r.1.pwr with sites := r.1.pwr.sites ++ [k] } } else r.1)

/-! Self-test ages (R371, R374). -/

/-- The time at which ages stand: in mothball they hold (18 R401). -/
def State.ageNow (s : State) : Nat := if s.pwrMb then s.pwr.mbAt else s.time

/-- The stations of bay b. -/
def State.bayStations (s : State) (b : Nat) : List Nat := (List.range 64).filter (fun k => (s.image.vaults.getD k {}).bay == b)

/-- The self-test age of bay b in cycles: since its least recently passed tile or station passed, counted from the start at the earliest
(log 41). -/
def State.bayAge (s : State) (b : Nat) : Nat :=
  let ts := (s.bayTiles b).map (fun t => (s.tile t).lastPass) ++ (s.bayStations b).map (fun k => kget s.safe.stnPass k 0)
  ts.foldl (fun m p => max m (s.ageNow - max p s.safe.since)) 0

/-- SAFE_STATUS.degraded: any bay is degraded. -/
def State.showDegraded (s : State) : State :=
  s.wr F.SAFE_STATUS_degraded (b2n ((List.range 64).any (fun b => s.rd (F.SAFE_ST_AGE_degraded b) == 1)))

/-- A passing test may end the bay's degradation. -/
def State.agePass (s : State) (b : Nat) : State :=
  if s.bayAge b ≤ 500 * msCycles then (s.wr (F.SAFE_ST_AGE_degraded b) 0).showDegraded else s

/-- An image put in force (02 R44, R45): all of it at once, the floor raised, the lock set; the ages of the bays as they are now (17 R374); then
the LAUNCHes that waited for it. -/
def State.putInForce (s : State) (i : Image) : State :=
  let s1 := { s with stow := { s.stow with inForce := some i, staged := none, floor := i.generation, locked := true } }
  let s2 := s1.wrs [(F.HUB_STOW_STATUS_state, 2), (F.HUB_STOW_STATUS_warm_only, 0), (F.HUB_STOW_GEN_generation, i.generation),
    (F.HUB_STOW_STAGED_generation, 0), (F.HUB_GROUP_DIGEST_digest, i.groupDigest), (F.TB_PERIOD_period, i.period)]
  ((s2.logs .STOW_APPLIED [i.generation]).forEach (List.range 64) State.agePass).launchAll

/-! Boot images (21 R438, R439; 19 R406). -/

/-- The stepping bits of R439: of the hub and of every compute die. -/
def State.steppings (s : State) : Nat × List Nat :=
  (if s.rd (F.HUB_DIE_CAP_step_num 0) = 1 then 1 else 2, (List.range 8).map (fun d => if s.rd (F.HUB_DIE_CAP_step_num (d + 1)) = 0 then 1 else 2))

/-- The bytes of the boot image that a memory holds. -/
def bootBytes (m : Mem) : List Byte := m.read 0 (le (m.read 16 4) 0 4)

/-- The checks of R439 on a memory: the code of the first failure. `len`: the received length; `id`: the relayed identifier. -/
def State.fwVerify (s : State) (m : Mem) (len id : Option Nat) : Option Nat :=
  let n := le (m.read 16 4) 0 4
  if !(464 ≤ n && n ≤ 0x1000000 && n % 8 == 0 && (match len with | some l => l == n | none => true)) then some 1
  else
    let b := m.read 0 n
    let g := n - 208
    if !(le b 0 4 == 0x4D524946 && le b 4 2 == 1 && le b 20 1 ≤ 64 && allZero (sub b 21 235) && le b g 2 == 0 && allZero (sub b (g + 2) 6) &&
        allZero (sub b (g + 105) 7)) then some 2
    else if !s.keyIs 0 (sub b (g + 8) 97) then some 3
    else if !(signedBy (sub b (g + 8) 97) (sub b (g + 112) 96) (b.take g) &&
        (match id with | some v => v == leNat ((sha384 b).take 8) | none => true)) then some 4
    else if le b 20 1 < s.rd F.SEC_FUSE_svn then some 5
    else if (le b 6 1 &&& s.steppings.1) == 0 || s.steppings.2.any (fun k => (le b 7 1 &&& k) == 0) then some 6
    else none

/-- The bank of a number: 0 A, 1 B. -/
def State.bank (s : State) (k : Nat) : Mem := if k = 0 then s.fw.bankA else s.fw.bankB
def State.setBank (s : State) (k : Nat) (m : Mem) : State :=
  if k = 0 then { s with fw := { s.fw with bankA := m } } else { s with fw := { s.fw with bankB := m } }

/-- The boot record of the settings area (log 35): keys 10 and 11 bank A and B verified, 12 the trial bank + 1, 13 the active bank. -/
def State.bootRecord (s : State) (k : Nat) : Nat := kget s.fw.settings k 0
def State.setBootRecord (s : State) (k v : Nat) : State := { s with fw := { s.fw with settings := kput s.fw.settings k v } }

/-! The settings area (21 R447; log 45): the format number of item k stands under key 20 + k. -/

def State.settingFormat (s : State) (k : Nat) : Nat := kget s.fw.settings (20 + k) (Config.factoryFormat k)
/-- Version of the image in force. -/
def State.fwVersion (s : State) : Nat := s.rd F.HUB_FW_VERSION_version
/-- Item k stands in the format of the image in force. -/
def State.ownFormat (s : State) (k : Nat) : State :=
  { s with fw := { s.fw with settings := kput s.fw.settings (20 + k) (Config.ownFormat s.fwVersion k) } }

/-- Item k reset to its default. At a cold start the controllers have no generation in force yet. -/
def State.resetSetting (s : State) (k : Nat) : State :=
  let s1 := (s.wr F.HUB_FW_STATUS_settings_reset 1).raised .FW_SETTINGS_RESET [k]
  if k = 0 then
    let cold := s.rd F.PWR_STATUS_state = 0 ∧ s.rd F.PWR_STATUS_warm = 0
    s1.forEach (List.range 16) (fun a n => let x := a.stack n
      let y := (({ x with saved := [], savedGen := 0, active := if cold then [] else x.active } : Stack).sync)
      a.setStack n (if cold then y.wr F.HBM_RET_STATUS_generation 0 else y))
  else if k = 1 then (s1.wr F.HUB_SNAP_LAST_valid 0).saveSnap
  else ({ s1 with pwr := { s1.pwr with coldKept := 0 } } : State).wr F.PWR_STATUS_cold_fails 0

/-- The image in force reads the settings: an item in a format older than any it reads is reset. Outside a trial it is then in the image's
own format. -/
def State.readSettings (s : State) : State :=
  s.forEach [0, 1, 2] (fun a k =>
    if a.settingFormat k < Config.oldestFormat a.fwVersion k then
      let b := a.resetSetting k
      if b.bootRecord 12 = 0 then b.ownFormat k else b
    else a)

/-- The boot ROM's checks (19 R406): those of R439 without the stepping, which is its last. -/
def State.bootFit (s : State) (m : Mem) : Bool := s.fwVerify m none none == none || s.fwVerify m none none == some 6

/-- A booted image: what SEC_ and HUB_FW_ registers say of it, and the attestation key that follows from it (19 R405). -/
def State.booted (s : State) (k : Nat) (m : Mem) : State :=
  let b := bootBytes m
  (({ s with sec := { s.sec with bootDone := true, bootImage := b } } : State).wrs
    [(F.SEC_STATUS_boot_bank, k), (F.SEC_STATUS_boot_ok, 1), (F.SEC_FUSE_image_svn, le b 20 1), (F.HUB_FW_VERSION_version, le b 8 8)]).readSettings

/-- Secure boot (19 R406): the active bank, else the other; none when both fail. -/
def State.secureBoot (s : State) : Option State :=
  let k := s.bootRecord 13
  if s.bootFit (s.bank k) then some (s.booted k (s.bank k))
  else if s.bootFit (s.bank (1 - k)) then some (s.booted (1 - k) (s.bank (1 - k)))
  else none

/-! The state that a start keeps. -/

/-- Registers with some bits taken from older ones: (offset, mask). -/
def keepBits (old new : Regs) (l : List (Nat × Nat)) : Regs :=
  l.foldl (fun r e =>
    let m := BitVec.ofNat 64 e.2
    rput r e.1 ((rget r e.1 &&& ~~~m) ||| (rget old e.1 &&& m))) new

/-- Every bit of the registers from a to b. -/
def allBits (a b : Nat) : List (Nat × Nat) := (List.range ((b - a) / 8)).map (fun i => (a + 8 * i, 2 ^ 64 - 1))

/-- Kept by every start: the fuses' copies and trims, PWR_EVENT, the failure counters, the boot record's bank. -/
def keptAlways : List (Nat × Nat) :=
  [(F.SEC_STATUS_lifecycle.off, 3), (F.SEC_FUSE_svn.off, 0xFF007F)] ++ allBits 0x20018 0x20038 ++
  [(F.TB_OSC_TRIM_factory.off, 0xFFFF), (F.TB_TICKIN_OFFSET_factory.off, 0xFFFF)] ++
  (List.range 32).map (fun p => ((F.TB_LINK_DELAY_factory p).off, 0xFFFF)) ++
  (List.range 58).map (fun n => ((F.TB_SENSOR_TRIM_factory n).off, 0xFFFF)) ++
  [(F.PWR_EVENT_input_range.off, 0x1FF), (F.PWR_STATUS_warm_fails.off, 0x7E00), (F.HUB_FW_STATUS_active_bank.off, 0x10000)]

/-- The site states, which a warm start keeps (17 R376), and the cold start of RETURN (19 R411). -/
def keptSites : List (Nat × Nat) := allBits (F.SAFE_SITE_state 0).off (F.SAFE_SITE_state 80).off

/-- Kept by a warm start (18 R391; 17 R376, R384, SAFE_AGE): capability words, link delays, sites, ageing, failed stations, untrusted, TN. -/
def keptWarm : List (Nat × Nat) :=
  allBits 0x100 0x168 ++ (List.range 32).map (fun p => ((F.TB_LINK_DELAY_measured p).off, 0xFFFFFFFF00000000)) ++
  keptSites ++ allBits (F.SAFE_AGE_spad_words 0).off (F.SAFE_AGE_spad_words 1280).off ++
  [(F.SAFE_STATION_FAILED_failed.off, 2 ^ 64 - 1), (F.SAFE_STATUS_untrusted.off, 4), (F.TB_TN_tn.off, 2 ^ 64 - 1),
   (F.TB_ACT_FREE_free.off, 2 ^ 64 - 1), (F.TB_PERIOD_period.off, 0x1FFFF)]

/-- A record among others by rising number. -/
def insertRec (b : List Byte) : List (List Byte) → List (List Byte)
  | [] => [b]
  | c :: l => if le b 0 4 < le c 0 4 then b :: c :: l else c :: insertRec b l

/-- The last 16 UNCONTAINED records, oldest first (17 R383). -/
def State.lastUncontained (s : State) : List (List Byte) :=
  let un := (((List.range 512).map s.recAt).filter (fun b => le b 4 1 == 3)).foldl (fun l b => insertRec b l) []
  un.drop (un.length - 16)

/-- Records placed from entry 0. -/
def State.putRecs (s : State) : Nat → List (List Byte) → State
  | n, [] => (s.wr F.SAFE_REC_PTR_write n).newestRec ((n + 511) % 512)
  | n, b :: l => (s.putRec n b).putRecs (n + 1) l

/-- An HBM stack at a start (14 R307, R313, R316; 18 R389): in self-refresh until its PHYs are trained when a warm start finds VIO kept. -/
def Stack.start (x : Stack) (warm vio : Bool) : Stack :=
  if warm then
    let marks := x.regs.filter (fun e => (F.HBM_ERASE_line_a 0).off ≤ e.1 && e.1 < (F.HBM_ERASE_line_a 32).off)
    let back := (x.build.map (fun e => (e.pc, e.bank, x.rowNow e.pc e.bank e.row))).filter (fun c => !x.pending.contains c)
    let room := 64 - x.pending.length
    (({ Stack.reset with
        regs := marks.foldl (fun r e => rput r e.1 e.2) Stack.reset.regs
        active := x.active, pending := x.pending ++ back.take room, burnt := x.burnt, saved := x.saved, savedGen := x.savedGen,
        caMark := x.caMark } : Stack).sync).wrs
      [(F.HBM_RET_STATUS_generation, x.rd F.HBM_RET_STATUS_generation), (F.HBM_STATUS_state, if vio then 2 else 0),
       (F.HBM_RET_STATUS_dropped, min (back.length - room) 0x3FF)]
  else
    (({ Stack.reset with active := x.saved, saved := x.saved, savedGen := x.savedGen, burnt := x.burnt } : Stack).sync).wr
      F.HBM_RET_STATUS_generation x.savedGen

/-- A tile's registers that a warm start keeps: the totals of its rings, which count since cold start (20). -/
def Tile.keepTotals (x : Tile) (y : Tile) : Tile :=
  y.onRings (fun z e => z.wr (F.TILE_EVT_PTR_total e) (x.rd (F.TILE_EVT_PTR_total e)))

/-- What a warm start keeps of a bundle's end: its trained values (18 R391), and that it is down. -/
def Bundle.kept (x : Bundle) : Bundle := { bad := x.bad, spares := x.spares, txSpares := x.txSpares, half := x.half, down := x.down }

/-- Every received lane of the end that is marked bad is on a spare. -/
def Bundle.served (x : Bundle) : Bool := x.bad.all (fun l => x.spares.contains l)
/-- The lanes that spares serve once the end is trained: those that wait for a substitution are given one (17 R380). -/
def Bundle.trainedSpares (x : Bundle) : List Nat := if x.served then x.spares else x.bad.eraseDups.take 2

/-- Die-bridge training of end `b` (18 R389): every bundle when cold; when warm those that are down or hold an unsubstituted bad lane. One
that does not train is left down (R390). Both ends put a lane on its spare. -/
def State.trainedBundle (s : State) (warm : Bool) (fail : List Nat) (b : Nat) : Bundle :=
  let x := s.bundle b
  if (!warm || x.down || !x.served) && fail.contains b then { (if warm then x.kept else {}) with down := true }
  else if warm then { x.kept with spares := x.trainedSpares, txSpares := (s.bundle (opposite b)).trainedSpares, down := false }
  else {}

/-- Step 4: die-bridge training. -/
def State.trainBundles (s : State) (warm : Bool) (fail : List Nat) : State :=
  { s with pkg := { s.pkg with bundles := (List.range 376).map (fun b => (b, s.trainedBundle warm fail b)) } }

/-- A change of PWR_STATUS.state, which the sideband reports (22 R462). -/
def State.pwrState (s : State) (st : Nat) : State :=
  if s.rd F.PWR_STATUS_state = st then s else (s.wr F.PWR_STATUS_state st).ibi 3

/-- Every nonce drawn anew (19 R408). -/
def State.newNonces (s : State) : State :=
  s.forEach [0, 1, 2] (fun a b => let g := a.draw; g.2.wr (F.SEC_NONCE_nonce b) (Config.freeNonce g.1).toNat)

/-- The domains that a warm start, PERST_N and OFF leave on (18 R386, R389): VSAFE and VAON, and VIO while it stays on. -/
def domainsKept (vio : Bool) : List Nat := [28, 29] ++ (if vio then (List.range 8).map (fun d => 3 * d + 2) else [])

/-- The first moment of a start (18 R389 to R391; 16 R357; 19 R413; 02 R41, R45): what it keeps, everything else at reset. A pending swap
action stays with the other tick actions, which R391 does not name (DESIGN CHOICE, log 101). Pins of the test port's logic are in reset
(19 R413, 01 R25). -/
def State.kept (s : State) (warm : Bool) (i : StartIn) : State :=
  let g := s.free
  let r := keepBits s.regs (keepBits s.regs State.resetRegs keptAlways) (if warm then keptWarm else if s.pwr.sitesKept then keptSites else [])
  {
    pending := s.pending, time := s.time, free := g + 1201, log := s.log, out := s.out, regs := r
    pkg := { bundles := (List.range 376).map (fun b => (b, if warm then (s.bundle b).kept else { down := true })), tap := { s.pkg.tap with st := .reset, ir := [], dr := [], bypass := false }
             oa := { aperture := { undef := some 0 } }, ob := { aperture := { undef := some 1 } } }
    stow := { s.stow with
      inForce := if warm then s.stow.inForce else none
      staged := if warm then s.stow.staged else none
      copyOp := none
      locked := false }
    tb := if warm then { s.tb with run := 0, srcTn := none, missing := 0, badFrame := 0, user := [] } else { edge := s.tb.edge }
    hbm := if warm && s.pwr.vioKept then s.hbm else { undef := some (g + 1200) }
    hbmBad := if warm && s.pwr.vioKept then s.hbmBad else []
    stackMap := (List.range 16).map (fun k => (k, (s.stack k).start warm s.pwr.vioKept))
    tiles := if warm then s.tiles.map (fun (e : Nat × Tile) => (e.1, e.2.keepTotals { Tile.reset with spad := { undef := some (g + e.1) } })) else []
    spadGen := some g
    snap := { newest := s.snap.newest }
    safe := { recs := if warm then s.safe.recs else 0, window := if warm then s.safe.window else [] }
    pwr := { aux := s.pwr.aux, v48 := s.pwr.v48, off := false, inputs := some i, startAt := s.time, trip := s.pwr.trip, coldKept := s.pwr.coldKept,
             vioKept := warm && s.pwr.vioKept, retained := s.pwr.retained && warm }
    sec := { s.sec with bootDone := false, bootImage := [], checking := none }
    fw := { bankA := s.fw.bankA, bankB := s.fw.bankB, recovery := s.fw.recovery, settings := s.fw.settings }
    pcie := { perst := s.pcie.perst }
    i3c := s.i3c }

/-- The timebase begins to follow the source of the image in force (03 R54, R56): ACQUIRING, or FREE_RUN with TN 0. -/
def State.enterTick (s : State) : State :=
  let i := s.image
  let s1 := s.wrs [(F.TB_STATUS_source, i.source), (F.TB_STATUS_depth, 0)]
  let s2 := { s1 with tb := { s1.tb with run := 0, srcTn := none, missing := 0, acqStart := s1.time, source := i.source } }
  if i.source = 2 then (s2.wr F.TB_STATUS_state 4).setTn 0 else s2.wr F.TB_STATUS_state 1

/-- The state a start begins from: what it keeps, the last UNCONTAINED records of a warm start, the step shown, new nonces, the
retained snapshot. -/
def State.wipe (s : State) (warm : Bool) (i : StartIn) : State :=
  let k1 := if warm then ((s.kept warm i).putRecs 0 s.lastUncontained).enterTick else s.kept warm i
  ((((k1.wrs [(F.PWR_STATUS_step, 1), (F.PWR_STATUS_warm, b2n warm), (F.PWR_STATUS_retained, b2n (s.pwr.retained && !i.crcBad)),
    (F.PWR_STATUS_hbm_kept, b2n (warm && s.pwr.vioKept))]).wrs
    ((if warm then domainsKept s.pwr.vioKept else []).map (fun d => (F.PWR_DOMAIN_on d, 1)))).wr
      F.PWR_STATUS_state (s.rd F.PWR_STATUS_state)).pwrState 0).newNonces.loadSnap

/-! The steps. -/

/-- The time that the world gives step k, in µs. -/
def State.stepUs (s : State) (k : Nat) : Nat := ((s.pwr.inputs.map (fun i => (i.stepUs.getD (k - 1) 0).toNat))).getD 0

/-- Step k done, in the time the world took. -/
def State.stepDone (s : State) (k : Nat) : State :=
  s.wrs [(F.PWR_STEP_us k, s.stepUs k), (F.PWR_STEP_done k, 1), (F.PWR_STATUS_step, k + 1)]

/-- The limit of step k in µs (18 R389): 8 and 11 have none of this kind. -/
def stepLimit (k : Nat) : Nat := ([2000000, 1000000, 10000000, 5000000, 20000000, 180000000, 5000000, 2 ^ 32, 30000000, 2000000] : List Nat).getD (k - 1) (2 ^ 32)

/-- Step k skipped by a warm start. -/
def State.stepSkip (s : State) (k : Nat) : State :=
  s.wrs [(F.PWR_STEP_skipped k, 1), (F.PWR_STEP_done k, 1), (F.PWR_STATUS_step, k + 1)]

/-- The PCI Express link trained after a reset of the endpoint (22 R453, R454); the rate and the width are what training finds. -/
def State.linkTrained (s : State) : State :=
  if s.pcie.perst then s
  else
    let g := s.draw
    g.2.wrs [(F.HUB_PCIE_STATUS_link_up, 1), (F.HUB_PCIE_STATUS_speed, 1 + Config.freeChoice g.1 % 7),
      (F.HUB_PCIE_STATUS_width, 2 ^ (Config.freeChoice g.1 / 7 % 5))]

/-- A capability word's stepping is supported (01 R23). -/
def capOk (n : Nat) (w : Dword) : Bool :=
  if n = 0 then bits w 0 8 == 1 && bits w 12 4 == 0xA && (bits w 8 4 == 1 || bits w 8 4 == 2)
  else bits w 0 8 == 2 && bits w 12 4 == 0xB && bits w 8 4 ≤ 1

/-- The fields that hold a factory trim (03 R67), in the order in which a start's input lists them: oscillator, TICK_IN, links, sensors. -/
def trimFields : List Fld :=
  [F.TB_OSC_TRIM_factory, F.TB_TICKIN_OFFSET_factory] ++ (List.range 32).map F.TB_LINK_DELAY_factory ++ (List.range 58).map F.TB_SENSOR_TRIM_factory

/-- The trim applied at the register of a factory field: the fuse value and the user offset of the last tick edge (03 R67). -/
def State.trim (s : State) (f : Fld) : Int := signed 16 (s.rd f) + signed 16 (kget s.tb.user f.off 0)

/-- The fuse read (18 R389; 01 R22, R23; 03 R67): the capability words and the trims, and the package's features when the combination is
supported. -/
def State.fuseRead (s : State) (caps : List Dword) (trims : List (BitVec 16)) : State × Bool :=
  let s1 := (s.setRegs ((List.range 11).foldl (fun r n => rput r (0x100 + 8 * n) (caps.getD n 0)) s.regs)).wrs
    (trimFields.zip (trims.map (·.toNat)))
  let good := (List.range 9).all (fun n => capOk n (caps.getD n 0))
  let f := (List.range 4).foldl (fun v k => v + b2n ((List.range 9).all (fun n => bits (caps.getD n 0) (16 + k) 1 == 1)) * 2 ^ (16 + k)) 0
  (s1.setRegs (rput s1.regs 0x160 (if good then BitVec.ofNat 64 (f + 2 ^ 31) else 0)), good)

/-- The domains in the order in which they rise (18 R393): VAON, VSAFE, then VHUB, VCPC, VSER, VUCI, the VIO, the VSRAM, the VCORE. -/
def domainOrder : List Nat :=
  [29, 28, 24, 25, 26, 27] ++ (List.range 8).map (fun d => 3 * d + 2) ++ (List.range 8).map (fun d => 3 * d + 1) ++ (List.range 8).map (fun d => 3 * d)

/-- Power sequencing (18 R393): each domain within its limits before the next begins to rise, so that one that does not settle leaves the
later ones off. -/
def State.domainsOn (s : State) (fail : Option Nat) : State :=
  let l := match fail with
    | some k => domainOrder.takeWhile (· != k)
    | none => domainOrder
  let s1 := l.foldl (fun a i => a.wr (F.PWR_DOMAIN_on i) 1) s
  { s1 with pwr := { s1.pwr with vioKept := s1.pwr.vioKept || (List.range 8).all (fun d => l.contains (3 * d + 2)) } }

/-- The firmware's state at a start (21 R443): VERIFIED when the boot record marks the inactive bank verified; a trial is abandoned. -/
def State.fwStart (s : State) : State :=
  let t := s.bootRecord 12
  let s1 := if t = 0 then s else ((s.setBootRecord (10 + (t - 1)) 0).setBootRecord 12 0)
  let inactive := 1 - s1.bootRecord 13
  s1.wrs [(F.HUB_FW_STATUS_active_bank, s1.bootRecord 13), (F.HUB_FW_STATUS_state, if s1.bootRecord (10 + inactive) = 1 then 3 else 0)]

/-- The recovery image is entered when it passes its check (18 R392; 21 R448). It runs steps 1 to 3 and no others, from a device in which
nothing else has been started; what PWR_STATUS and PWR_STEPn say of the start that failed stays. -/
def State.recover (s : State) : State :=
  if (s.fwVerify s.fw.recovery none none).isSome then s
  else
    let w := match s.pwr.inputs with
      | some i => ((s.wipe false i).domainsOn none).fuseRead i.caps i.trims |>.1
      | none => s
    let said := w.setRegs (keepBits s.regs w.regs ((F.PWR_STATUS_step.off, 2 ^ 64 - 1) :: allBits (F.PWR_STEP_us 1).off ((F.PWR_STEP_us 11).off + 8)))
    let s1 := (said.fwStart.booted 0 s.fw.recovery).wrs [(F.SEC_STATUS_recovery, 1), (F.SEC_STATUS_boot_bank, 0)]
    let s2 := ({ s1 with pwr := { s1.pwr with inputs := none } } : State)
    ((s2.pwrState 3).pwrEvent F.PWR_EVENT_recovery).linkTrained

/-- A start fails at a step (18 R390, R392). -/
def State.startFail (s : State) (step code : Nat) (n : EvName) : State :=
  let warm := s.on F.PWR_STATUS_warm
  let f := if warm then F.PWR_STATUS_warm_fails else F.PWR_STATUS_cold_fails
  let s1 := (s.wrs [(F.PWR_STATUS_failed, 1), (F.PWR_STATUS_fail_code, code), (F.PWR_STATUS_step, step), (F.PWR_STEP_failed step, 1),
    (F.PWR_STATUS_elapsed_ms, (s.time - s.pwr.startAt) / msCycles)]).bump f
  let s2 := { s1 with pwr := { s1.pwr with coldKept := s1.rd F.PWR_STATUS_cold_fails } }
  let s3 := (((s2.logs n [step]).pwrEvent F.PWR_EVENT_start_failed).logs .START_FAILED [step, code]).ibi 4
  if code = 2 ∨ code = 6 ∨ (warm = false ∧ 3 ≤ s3.pwr.coldKept) then s3.recover else s3

/-- Step k ends: STEP_TIMEOUT when it passed its limit (18 R390), otherwise the start goes on. -/
def State.stepThen (s : State) (k : Nat) (f : State → State) : State :=
  let s1 := s.stepDone k
  if stepLimit k < s1.rd (F.PWR_STEP_us k) then s.startFail k 8 .STEP_TIMEOUT else f s1

/-- Rows that the HBM full test found bad enter the active generation (14 R311, R316): a bad spare row gives its entry a new spare; a row that no
longer fits in the table stays in use. None when a bank has no spare left (18 R390). -/
def State.testRows (s : State) : List (Nat × Nat × Nat × Nat) → Option State
  | [] => some s
  | (st, pc, bank, row) :: l =>
    let x := (s.stack st).burn pc bank row
    match x.origOf pc bank row with
    | none => (s.setStack st x).testRows l
    | some r =>
      if r = row && x.active.any (fun e => e.pc == pc && e.bank == bank && e.row == row) then s.testRows l
      else if r = row && 4096 ≤ x.active.length then
        ((s.raised .HBM_RETIRE_FULL [st, pc, bank, row]).hbmRecord 1 4 st pc bank row 0 []).testRows l
      else
        match x.spare? pc bank with
        | none => none
        | some i =>
          let e : Retire := ⟨pc, bank, r, i⟩
          let kept := x.active.filter (fun a => !(a.pc == pc && a.bank == bank && a.row == r))
          ((s.setStack st (({ x with active := kept ++ [e] } : Stack).sync)).rowRetired st e).testRows l

/-- The tables of a cold start against the ageing threshold (17 R381). -/
def State.ageTables (s : State) : State := s.forEach (List.range 16) (fun a st => a.ageTable st 0 (a.stack st).active.length)

/-- The sites that step 7 tests (17 R376, R377): all when cold; when warm the SUSPECT ones and those newly mapped. -/
def State.bistSites (s : State) (warm : Bool) : List Nat :=
  if !warm then List.range 1280
  else
    let new := (s.stow.staged.map Image.mapped).getD []
    let old := (s.stow.inForce.map Image.mapped).getD []
    (List.range 1280).filter (fun k => s.siteState k == 1 || (new.contains k && !old.contains k))

/-- Step 7: each site tested, GOOD or FAILED. -/
def State.bist (s : State) (warm : Bool) (fail : List Nat) : State :=
  s.forEach (s.bistSites warm) (fun a k => a.setSite k (if fail.contains k then 2 else if a.siteState k = 2 && warm then 2 else 0))

/-- A row with three or more FAILED sites. -/
def State.rowLost (s : State) : Bool :=
  (List.range 80).any (fun r => 3 ≤ ((List.range 16).filter (fun c => s.siteState (16 * r + c) == 2)).length)

/-- The start ends ON (18 R389, R392). -/
def State.startOn (s : State) : State :=
  let s1 := ((s.stepDone 11).wrs [(F.PWR_STATUS_step, 0), (F.PWR_STATUS_warm_fails, 0), (F.PWR_STATUS_cold_fails, 0),
    (F.PWR_STATUS_elapsed_ms, (s.time - s.pwr.startAt) / msCycles)])
  (({ s1 with pwr := { s1.pwr with coldKept := 0, inputs := none }, safe := { s1.safe with since := s1.time } } : State).pwrState 1).soloMember.autoSwaps

/-- Tick lock (03 R54): a warm start's timebase that already follows the source of the image goes on. -/
def State.lockTick (s : State) : State :=
  let st := s.rd F.TB_STATUS_state
  if s.rd F.TB_STATUS_source = s.image.source ∧ (st = 1 ∨ st = 2 ∨ st = 4) then s else s.enterTick
/-- The timebase is LOCKED or free-running: nothing is left to wait for. -/
def State.tickReady (s : State) : Bool := s.rd F.TB_STATUS_state == 2 || s.rd F.TB_STATUS_state == 4

/-- Why an attach fails (22 R455): 0 it does not. Of several reasons the first in the order of the rule (DESIGN CHOICE, log 123). -/
def probeReason (p : ShelfProbe) : Nat :=
  if !p.link then 1
  else if 0x4000000 < p.barBytes then 4
  else if p.cls ≠ 0x010802#24 then 2
  else if p.version.toNat < 0x10400 then 3
  else if !p.nsThere then 6
  else if p.blockSize ≠ 4096 ∨ p.metadata ≠ 0 then 5
  else 0

/-- Shelf attach (22 R455): SPERST_N is released and the controller enumerated, its BARs placed in the shelf window; a controller that fits is
enabled and given its queues. ATTACHING lasts within the command (log 123). -/
def State.shelfTake (s : State) (p : ShelfProbe) : State :=
  let r := probeReason p
  let s1 := { s with shelf := { s.shelf with
    perst := false, owned := r == 0, nsid := s.rd F.SHELF_CFG_nsid, bars := if p.link ∧ p.barBytes ≤ 0x4000000 then p.barBytes else 0 } }
  let s2 := s1.wrs [(F.SHELF_STATUS_state, if r = 0 then 2 else 0), (F.SHELF_STATUS_reason, r),
    (F.SHELF_STATUS_speed, p.speed.toNat), (F.SHELF_STATUS_width, p.width.toNat), (F.SHELF_NS_blocks, if r = 0 then p.blocks.toNat else 0)]
  if r = 0 then s2.nvmeEnable.nvmeIdentify.nvmeQueues
  else ((if r = 5 ∨ r = 6 then s2.nvmeEnable.nvmeIdentify else s2).pwrEvent F.PWR_EVENT_shelf_attach_fail).logs .SHELF_ATTACH_FAIL [r]

/-- Each die's sites that a bay holds, in ascending row and column: one SITE_POWER_UP powers the next of them (18 R394). -/
def Image.siteQueues (i : Image) : KMap (List Nat) :=
  (List.range 8).map (fun d => (d, (List.range 160).filterMap (fun k => if i.sites.contains (160 * d + k) then some (160 * d + k) else none)))

/-- From the image in force on: the sites of its bays ask for power, shelf attach, link training, tick lock (steps 8 to 11). -/
def State.startTail (s : State) : State :=
  let p : ShelfProbe := match s.pwr.inputs with
    | some i => i.shelf
    | none => {}
  let s1 := ({ s with pwr := { s.pwr with siteQ := s.image.siteQueues } } : State).stepDone 8
  (s1.shelfTake p).stepThen 9 (fun s2 =>
    ((s2.forEach s2.enabledPorts (fun a q => a.portTrain q)).forming).stepThen 10 (fun s3 =>
      if s3.lockTick.tickReady then s3.lockTick.startOn else s3.lockTick))

/-- Step 8 of a warm start (02 R42): the staged image, or the one in force, checked again, within 2 s (18 R389); without one the start waits for
LOAD. A failed check drops a staged image with the one in force: R42 gives the state NEEDS_REISSUE and says nothing of it (DESIGN CHOICE,
log 102). -/
def State.warmLoad (s : State) : State :=
  match (match s.stow.staged with | some i => some i | none => s.stow.inForce) with
  | none => s
  | some i =>
    if 2000000 < s.stepUs 8 then (s.wr (F.PWR_STEP_us 8) (s.stepUs 8)).startFail 8 8 .STEP_TIMEOUT
    else
    match s.stowRecheck i with
    | none => (s.putInForce i).startTail
    | some e =>
      (({ s with stow := { s.stow with inForce := none, staged := none } } : State).wr F.HUB_STOW_STATUS_state 5).stowFail e.1 e.2

/-- Every stack's PHYs are trained, those marked under HBM_CA_PARITY again (14 R302): READY. -/
def State.stacksReady (s : State) : State :=
  s.forEach (List.range 16) (fun a k => a.setStack k { (a.stack k).wr F.HBM_STATUS_state 1 with caMark := [] })

/-- Steps 6 to 8. -/
def State.startEnd (s : State) (warm : Bool) (i : StartIn) : State :=
  let tail := fun (s6 : State) =>
    let s7 := s6.bist warm i.bistFail
    if s7.rowLost then s7.startFail 7 6 .PWR_ROW_LOST
    else
      ({ s7 with pwr := { s7.pwr with retained := true } } : State).stepThen 7 (fun a =>
        let b := a.forEach (List.range 16) (fun c k => c.hbmBuild k)
        if warm then b.warmLoad else b)
  if warm then tail (s.stepSkip 6)
  else
    match s.testRows i.hbmBad with
    | none => s.startFail 6 5 .HBM_TEST_FAIL
    | some s6 => s6.ageTables.stepThen 6 tail

/-- Steps 3 to 8. -/
def State.startRest (s : State) (warm : Bool) (i : StartIn) : State :=
  match s.fwStart.secureBoot with
  | none => s.startFail 3 3 .BOOT_FAIL
  | some s2 =>
    s2.stepThen 3 (fun s3 => (s3.trainBundles warm i.bundleFail).stepThen 4 (fun s4 =>
      if i.hbmTrainFail then s4.startFail 5 4 .HBM_TRAIN_FAIL
      else s4.stacksReady.stepThen 5 (fun s5 => s5.startEnd warm i)))

/-- Steps 2 to 8. -/
def State.startFuses (s : State) (warm : Bool) (i : StartIn) : State :=
  let s1 := s.linkTrained
  if warm then (s1.stepSkip 2).startRest true i
  else
    let r := s1.fuseRead i.caps i.trims
    if !r.2 then r.1.startFail 2 2 .DIE_MISMATCH
    else r.1.stepThen 2 (fun s2 => if 3 ≤ s2.pwr.coldKept then s2.recover else s2.startRest false i)

/-- Steps 1 to 8 of a start of a kind. -/
def State.startRun (s : State) (warm : Bool) (i : StartIn) : State :=
  let s0 := s.wipe warm i
  match i.domainFail with
  | some k => (((s0.domainsOn (some k)).wr (F.PWR_DOMAIN_fault k) 1).pwrEvent F.PWR_EVENT_domain_fault).startFail 1 1 .PWR_DOMAIN
  | none => (s0.domainsOn none).stepThen 1 (fun s1 => s1.startFuses warm i)

/-- Everything but what a start keeps at its reset value, as the first moment of a start leaves it, with no start in progress. -/
def State.blank (s : State) (warm : Bool := true) : State :=
  let w := s.wipe warm { domainFail := none, caps := [], bundleFail := [], hbmTrainFail := false, hbmBad := [], bistFail := [], stepUs := [],
                          shelf := {} }
  ({ w with pwr := { w.pwr with inputs := none, vioKept := s.pwr.vioKept } } : State).wrs
    [(F.PWR_STATUS_warm, 0), (F.PWR_STATUS_retained, 0), (F.PWR_STATUS_hbm_kept, 0)]

/-- Step 1 of a start of a kind begins and holds while PERST_N is asserted (22 R453), of a warm one with HBM in self-refresh. -/
def State.startHold (s : State) (warm : Bool) : State :=
  let s1 := (s.blank warm).wrs
    [(F.PWR_STATUS_warm, b2n warm), (F.PWR_STATUS_retained, b2n s.pwr.retained), (F.PWR_STATUS_hbm_kept, b2n (warm && s.pwr.vioKept))]
  let s2 := if warm then s1.forEach (List.range 16) (fun a k => a.setStack k ((a.stack k).wr F.HBM_STATUS_state 2)) else s1
  { s2 with pwr := { s2.pwr with resetHeld := true, heldCold := !warm } }

/-- A start asked for (18 R388, R392): a warm one is cold when retained state is invalid, by a lost supply or by its CRC, or three warm ones
have failed. Retained state whose CRC fails holds no count of failed warm starts. While PERST_N is asserted it holds in step 1. -/
def State.startUp (s : State) (warm : Bool) (i : StartIn) : State :=
  let s1 := if i.crcBad then ({ s with pwr := { s.pwr with retained := false } } : State).wr F.PWR_STATUS_warm_fails 0 else s
  let w := warm && s1.pwr.retained && s1.rd F.PWR_STATUS_warm_fails < 3
  if s1.pcie.perst then s1.startHold w else s1.startRun w i

end Sys2Proof.Machine
end

