-- ==== Sys2Proof/Machine/Stow.lean ====
section
/-! DEFINITION. The commands of the stowage block (02 R41 to R44, R468). -/

namespace Sys2Proof.Machine

/-- The window offset of HUB_STOW_CTRL. -/
def stowCtrl : Nat := 0x210

def State.stowState (s : State) : Nat := s.rd F.HUB_STOW_STATUS_state

/-- An operation not allowed in the state (R41): STOW_STATE. A failure that has no place in an image shows error_offset 0 (DESIGN CHOICE, log 125). -/
def State.stowRefuse (s : State) : State := s.stowFail 0x0D 0

/-- A copy begins: CHECKING; the operation tells where its end leads (2 LOAD, 1 STAGE) and, for a LOAD, from which state. -/
def State.stowCopy (s : State) (op : Nat) : State :=
  { s.wr F.HUB_STOW_STATUS_state 1 with stow := { s.stow with copyOp := some op } }

/-- STOW_LOAD: LOAD in UNSTOWED or NEEDS_REISSUE. -/
def execStowLoad (m : Master) (s : State) : Res :=
  ok (s.guarded m stowCtrl (fun a => if a.stowState = 0 ∨ a.stowState = 5 then a.stowCopy (16 * a.stowState + 2) else a.stowRefuse))

/-- The staged image dropped. -/
def State.dropStaged (s : State) : State :=
  ({ s with stow := { s.stow with staged := none } } : State).wrs [(F.HUB_STOW_STAGED_generation, 0), (F.HUB_STOW_STATUS_warm_only, 0)]

/-- STOW_STAGE: STAGE in STOWED, or in STAGED, whose image it drops. -/
def execStowStage (m : Master) (s : State) : Res :=
  ok (s.guarded m stowCtrl (fun a => if a.stowState = 2 ∨ a.stowState = 3 then a.dropStaged.stowCopy 1 else a.stowRefuse))

/-- A stowage swap action. -/
def isStowSwap (a : Act) : Bool := a.type == 4 && a.arg % 256 == 0

/-- STOW_SCHEDULE (R43): lateness, then warm_only, then the action. -/
def execStowSchedule (m : Master) (s : State) : Res :=
  ok (s.guarded m stowCtrl (fun a =>
    if a.stowState ≠ 3 then a.stowRefuse
    else if a.rd F.HUB_STOW_SWAP_TN_tn < a.tn + 2 then a.stowFail 0x0E 0
    else if a.on F.HUB_STOW_STATUS_warm_only then a.stowFail 0x11 0
    else
      match a.enterAct (a.rd F.HUB_STOW_SWAP_TN_tn) 4 0 3 with
      | (b, 0, _) => b.wr F.HUB_STOW_STATUS_state 4
      | (b, 1, _) => b.stowFail 0x0E 0
      | (b, _) => b.stowFail 0x10 0))

/-- STOW_DISCARD (R41): refused once the swap has committed; LAUNCHes held back for it go on. -/
def execStowDiscard (m : Master) (s : State) : Res :=
  ok (s.guarded m stowCtrl (fun a =>
    if a.stowState = 3 ∨ (a.stowState = 4 ∧ a.tb.pend.any (fun x => isStowSwap x && a.committed x) = false ∧ a.tb.due.any isStowSwap = false) then
      ((a.cancelActs isStowSwap).dropStaged.wr F.HUB_STOW_STATUS_state 2).launchAll
    else a.stowRefuse))

/-- The pieces of an HBM source, read by the CPC up to the first that cannot be read (R468): the bytes, and the offset of that piece. R468 has
an address outside HBM neither mapped nor denied: a scratchpad window is read, and a loft, shelf or register window cannot be (DESIGN CHOICE,
log 105). Bits 63 to 48 of the source are ignored, and an uncorrectable scratchpad word is reported at the start of its piece (DESIGN CHOICE,
log 125). -/
def State.stowRead (s : State) (a : Nat) (errs : List BurstErr) : List (Nat × (Nat × Nat)) → List Byte → State × Except Nat (List Byte)
  | [], acc => (s, .ok acc)
  | (j, (i, n)) :: l, acc =>
    match s.check .cpc ((a + i) % 2 ^ 48) n 1 false with
    | (s1, .ok (.hbm r)) =>
      match s1.hbmRead r ((a + i) % 2 ^ 48) n (s.global (a + i)) ((errs.filter (·.burst == j)).map (fun e => { e with burst := 0 })) with
      | (s2, some b) => s2.stowRead a errs l (acc ++ b)
      | (s2, none) => (s2, .error i)
    | (s1, .ok (.spad t o)) =>
      match s1.spadServe .cpc t o n (wordErrs ((errs.filter (·.burst == j)).map (fun e => { e with burst := 0 }))) with
      | (s2, some b) => s2.stowRead a errs l (acc ++ b)
      | (s2, none) => (s2, .error i)
    | (s1, _) => (s1, .error i)

/-- The bytes that the copy brings, or the offset of the first 8-byte unit that cannot be read (R468). HUB_STOW_SRC and HUB_STOW_LEN are
taken here, when the copy completes (DESIGN CHOICE, log 106). Of an image above 4 MiB the first 4 MiB are read, before check 1 refuses it, so that a
read failure among them is what is reported (DESIGN CHOICE, log 125). -/
def State.stowBytes (s : State) (image : List Byte) (hostFail : Option Nat) (errs : List BurstErr) : State × Except Nat (List Byte) :=
  let n := s.rd F.HUB_STOW_LEN_length
  let m := min n 4194304
  if s.on F.HUB_STOW_LEN_src_space then
    let a := s.rd F.HUB_STOW_SRC_addr
    let ps := pieces (m / 32 + 2) a 0 m
    s.stowRead a errs ((List.range ps.length).zip ps) []
  else if !s.linkUp then (s, .error 0)
  else
    match hostFail with
    | some o => (s, .error (o / 8 * 8))
    | none =>
      if image.length < m then (s, .error (image.length / 8 * 8))
      else ((s.sends (.hostRead (s.rd F.HUB_STOW_SRC_addr) m)).count 68 m, .ok (image.take m))

/-- Whether a staged image may be put in force only by a warm start (R43). -/
def State.warmOnly (s : State) (j : Image) : Bool :=
  let i := s.image
  i.deviceId != j.deviceId || i.uid != j.uid || i.spaceRaw != j.spaceRaw || i.groupRaw != j.groupRaw || i.tickRaw != j.tickRaw

/-- A checked image takes effect as its operation says. -/
def State.stowDone (s : State) (op : Nat) (i : Image) : State :=
  if op = 1 then
    ({ s with stow := { s.stow with staged := some i } } : State).wrs
      [(F.HUB_STOW_STATUS_state, 3), (F.HUB_STOW_STATUS_warm_only, b2n (s.warmOnly i)), (F.HUB_STOW_STAGED_generation, i.generation)]
  else
    let s1 := s.putInForce i
    if s1.rd F.PWR_STATUS_state = 0 ∧ s1.rd F.PWR_STATUS_step = 8 ∧ s1.rd F.PWR_STATUS_failed = 0 then s1.startTail else s1

/-- The state that a failed copy or check returns to (R41). -/
def stowBack (op : Nat) : Nat := if op = 1 then 2 else op / 16

/-- STOW_COPY_COMPLETE: the copy ends, and the image is checked (R39, R41, R468). -/
def execStowCopyComplete (image : List Byte) (hostFail : Option Nat) (errs : List BurstErr) (s : State) : Res :=
  match s.stow.copyOp with
  | none => ok s
  | some op =>
    let s0 := { s with stow := { s.stow with copyOp := none } }
    match s0.stowBytes image hostFail errs with
    | (s1, .error o) => ok ((s1.wr F.HUB_STOW_STATUS_state (stowBack op)).stowFail 0x12 o)
    | (s1, .ok b) =>
      match s1.stowCheck b (s.rd F.HUB_STOW_LEN_length) with
      | .error e =>
        let s2 := (s1.wr F.HUB_STOW_STATUS_state (stowBack op)).stowFail e.1 e.2
        ok (match if e.1 = 12 then (imageOf b).absentRef b e.2 else none with
          | some t => s2.logs .TILE_ABSENT [t]
          | none => s2)
      | .ok i => ok (s1.stowDone op i)

/-- TABLE_SWAP: the due stowage action applies the staged image when no affected bay runs a LAUNCH (R43, R44). -/
def execTableSwap (s : State) : Res :=
  match s.takeDue 4 (fun a => a.arg % 256 == 0) with
  | none => ok s
  | some (_, s1) =>
    if s1.stowState ≠ 4 then ok s1
    else
      match s1.stow.staged with
      | none => ok s1
      | some j =>
        let i := s1.image
        if (i.bays ++ j.bays).any (fun d => i.affected j d.id && (s1.bay d.id).holder.isSome) then
          ok (((s1.wr F.HUB_STOW_STATUS_state 3).stowFail 0x0F 0).logs .STOW_SWAP_REFUSED []).launchAll
        else ok (((s1.moveTiles i j).putInForce j).powerSites j)

end Sys2Proof.Machine
end

