-- ==== Sys2Proof/Machine/Timebase.lean ====
section
/-! DEFINITION. The commands of the timebase (03): edges, frames and tokens, the states of R54, delay measurement (R51), tick actions
entered by software (R57, R60), RELOCK and CLEAR_STATS, and the PHASE_START action. -/

namespace Sys2Proof.Machine

def State.tbState (s : State) : Nat := s.rd F.TB_STATUS_state
def State.tbSource (s : State) : Nat := s.rd F.TB_STATUS_source

/-- A TB_EVENT bit raised with its event. -/
def State.tbRaise (s : State) (f : Fld) (n : EvName) : State := (s.wr f 1).raised n []

/-- The timebase in another state. -/
def State.tbSet (s : State) (st : Nat) : State := ({ s with tb := { s.tb with run := 0 } } : State).wr F.TB_STATUS_state st

/-- LOCKED left: the count of ticks begins (TB_STATUS.holdover_ticks). -/
def State.tbLeave (s : State) (st : Nat) : State :=
  (if s.tbState = 2 then s.wr F.TB_STATUS_holdover_ticks 0 else s).tbSet st

/-- LOCKED → HOLDOVER (R54): TICK_LOST, and the safety monitor's record (R55, 17 R367 class 13). -/
def State.tickLoss (s : State) : State :=
  ((s.tbLeave 3).tbRaise F.TB_EVENT_tick_lost .TICK_LOST).record { sev := 2, cls := 13, kind := 0 }

/-- LOCKED or HOLDOVER → CONFLICT (R54): TICK_TN_MISMATCH, and from LOCKED, where the tick is lost only now, the safety monitor's record (R55). -/
def State.tnConflict (s : State) : State :=
  let s1 := (s.tbLeave 5).tbRaise F.TB_EVENT_tn_mismatch .TICK_TN_MISMATCH
  if s.tbState = 2 then s1.record { sev := 2, cls := 13, kind := 1 } else s1

/-- LOCKED: a start that waited for it ends (18 R389). -/
def State.tbLocked (s : State) : State :=
  let s1 := s.tbSet 2
  if s1.rd F.PWR_STATUS_state = 0 ∧ s1.rd F.PWR_STATUS_step = 11 ∧ s1.rd F.PWR_STATUS_failed = 0 then s1.startOn else s1.autoSwaps

/-- The lock edge (R54, R56): TN is the source's. -/
def State.tbLock (s : State) (tn : Nat) : State := ((s.tbSet 2).setTn tn).tbLocked

/-- TB_PHASE_ERR takes a measured error. -/
def State.phaseErr (s : State) (e : Int) : State :=
  s.wrs [(F.TB_PHASE_ERR_last, (e % 2 ^ 32).toNat), (F.TB_PHASE_ERR_worst, max (s.rd F.TB_PHASE_ERR_worst) (min e.natAbs (2 ^ 32 - 1)))]

/-- An edge of the source, measured (R54). `tn`: the source's TN for it, when known; `hold`: the token's holdover bit. An edge is valid
within ±25 ns of the expected edge, and good below 0.5 ns. Beyond 25 ns it is none of the expected edges: those are missing, which TICK_EDGE_MISSING
says, and the source's count goes on with that. -/
def State.sourceEdge (s : State) (phase : Int) (tn : Option Nat) (hold : Bool) : State :=
  let valid := decide (phase.natAbs ≤ 25000)
  let good := decide (phase.natAbs < 500)
  let s0 := s.phaseErr phase
  let s1 := if valid then { s0 with tb := { s0.tb with srcTn := tn, missing := 0 } } else s0
  if !valid then { s1 with tb := { s1.tb with run := 0 } }
  else if s.tbState = 1 then
    let run := if good then s1.tb.run + 1 else 0
    let s2 := { s1 with tb := { s1.tb with run := run } }
    match tn with
    | some v => if good ∧ 16 ≤ run then s2.tbLock v else s2
    | none => s2
  else if s.tbState = 3 then
    let run := if tn == some s.tn && !hold then s1.tb.run + 1 else 0
    if 16 ≤ run then s1.tbLocked else { s1 with tb := { s1.tb with run := run } }
  else s1

/-- The tokens of R50, one TICK packet out of every relay port (15 R327); the egress writes the departure offset. Packets of channel 7 enter the egress
after the stop instant too, which R61 says of earlier packets only (DESIGN CHOICE, log 126). -/
def State.tokens (s : State) : State :=
  s.forEach ((List.range 32).filter (fun p => bitOf s.image.relayMask p && s.portUp p)) (fun a p =>
    a.egressPut p (tickPacket s.devId s.tn 0 (s.rd F.TB_STATUS_depth) (s.tbState != 2)))

/-- The DELAY_REQ of R51 out of every enabled port that is UP (15 R334); the egress writes t1. -/
def State.askDelays (s : State) : State :=
  s.forEach (s.enabledPorts.filter s.portUp) (fun a p => a.egressPut p (ctrlPacket a.devId 2 (leBytes 8 0) []))

/-! Calibration (R67). -/

/-- The offsets of the calibration registers: oscillator, TICK_IN, links, sensors. -/
def trimRegs : List Nat := trimFields.map (·.off)

/-- A user offset takes effect at a tick edge. -/
def State.latchTrims (s : State) : State :=
  { s with tb := { s.tb with user := (trimRegs.map (fun o => (o, bits (rget s.regs o) 16 16))).filter (fun e => e.2 != 0) } }

/-- Ticks counted since LOCKED was left. -/
def State.countLost (s : State) : State :=
  if (s.tbState = 3 ∨ s.tbState = 5 ∨ s.tbState = 1 ∨ s.tbState = 0) ∧ (s.pwrOn || s.pwrMb) = true then s.bump F.TB_STATUS_holdover_ticks else s

/-- TICK_EDGE: TN counts (R47), the firewall counts anew (01 R21), tokens leave (R50), the heartbeat runs before the actions (15 R337), and those of this TN fall due. -/
def execTickEdge (s : State) : Res :=
  let s1 := ({ s with tb := { s.tb with edge := s.time } } : State).firewallTick.wr F.TB_TN_tn (s.tn + 1)
  let s2 := s1.latchTrims.countLost.tokens
  let s3 := if s2.tn % 1024 = 0 then s2.askDelays else s2
  let s4 := if s3.tn % 100 = 0 then s3.heartbeat else s3
  ok s4.commitDue.autoSwaps

/-- TICK_IN_EDGE: a rising edge of the pair, on source 0 (R49, R54), seen `phase` ps after the local expected edge. TB_TICKIN_OFFSET is added
to its time (R53; DEDUCED, log 108). -/
def execTickInEdge (phase : Int) (s : State) : Res :=
  if s.tbSource = 0 ∧ s.tbState ≠ 0 then
    ok (s.sourceEdge (phase + s.trim F.TB_TICKIN_OFFSET_factory) (s.tb.srcTn.map (· + 1)) false)
  else ok s

/-- Whether a TICK_IN frame is right (R49). -/
def frameOk (f : BitVec 80) : Bool := f.extractLsb' 0 8 == 0xA5#8 && f.extractLsb' 72 8 == crc8 (f.extractLsb' 8 64)

/-- A TN that the source states: in LOCKED or HOLDOVER one that differs is a conflict (R54). -/
def State.sourceTn (s : State) (tn : Nat) : State :=
  if (s.tbState = 2 ∨ s.tbState = 3) ∧ tn ≠ s.tn then s.tnConflict else s

/-- TICK_FRAME (R49). R49 speaks of the CRC alone: a frame with another sync byte fails too, and after TICK_FRAME_BAD the count of failing frames in
a row begins anew (DESIGN CHOICE, log 107). -/
def execTickFrame (frame : BitVec 80) (s : State) : Res :=
  if s.tbSource ≠ 0 ∨ s.tbState = 0 then ok s
  else if frameOk frame then
    let tn := (frame.extractLsb' 8 64).toNat
    ok (({ s with tb := { s.tb with srcTn := some tn, badFrame := 0 } } : State).sourceTn tn)
  else if s.tb.badFrame = 0 then ok { s with tb := { s.tb with badFrame := 1 } }
  else ok (({ s with tb := { s.tb with badFrame := 0 } } : State).tbRaise F.TB_EVENT_frame_bad .TICK_FRAME_BAD)

/-- TICK: a token on source 1 (R50, R51, R54). `arrival`: when it came, in ps after the local expected edge; the sender's edge lies the port's
delay and the token's departure offset before that. -/
def execTick (p : Fin 32) (tn : Dword) (offset : Word) (depth : Byte) (holdover : Bool) (arrival : Int) (s : State) : Res :=
  if s.tbSource ≠ 1 ∨ s.tbState = 0 ∨ p.val ≠ s.image.sourcePort then ok s
  else
    let s1 := (s.wr F.TB_STATUS_depth (min 255 (depth.toNat + 1))).sourceTn tn.toNat
    if s1.tbState = 2 ∧ holdover = true then ok ({ s1 with tb := { s1.tb with srcTn := some tn.toNat } } : State).tickLoss
    else ok (s1.sourceEdge (arrival - signed 32 (s.rd (F.TB_LINK_DELAY_measured p)) - (offset.toNat : Int)) (some tn.toNat) holdover)

/-- TICK_EDGE_MISSING: the expected edge of the source has not come (R54). The source's count goes on with the expected edges. -/
def execTickEdgeMissing (s : State) : Res :=
  if s.tbSource = 2 ∨ s.tbState = 0 ∨ s.tbState = 4 then ok s
  else
    let n := s.tb.missing + 1
    let s1 := { s with tb := { s.tb with missing := n, run := 0, srcTn := s.tb.srcTn.map (· + 1) } }
    ok (if s.tbState = 2 ∧ 3 ≤ n then s1.tickLoss else s1)

/-- TICK_LOCK_TIMEOUT: 4,096 periods without lock (R54; 18 R390). -/
def execTickLockTimeout (s : State) : Res :=
  if s.tbState = 1 then
    let s1 := (s.tbSet 0).tbRaise F.TB_EVENT_lock_fail .TICK_LOCK_FAIL
    ok (if s1.rd F.PWR_STATUS_state = 0 ∧ s1.rd F.PWR_STATUS_step = 11 ∧ s1.rd F.PWR_STATUS_failed = 0 then s1.startFail 11 7 .TICK_LOCK_FAIL else s1)
  else ok s

/-- DELAY_REQ: answered with DELAY_RESP (R51, 15 R327). -/
def execDelayReq (p : Fin 32) (t1 t2 t3 : Dword) (s : State) : Res :=
  if s.portUp p then ok (s.egressPut p (ctrlPacket s.devId 3 (leBytes 8 t1.toNat) (leBytes 8 t2.toNat ++ leBytes 8 t3.toNat))) else ok s

/-- The delay of R51. -/
def delayOf (t1 t2 t3 t4 : Nat) (asym : Int) : Int := (((t4 : Int) - t1) - ((t3 : Int) - t2)) / 2 + asym

/-- DELAY_RESP: the port's measured delay (R51). -/
def execDelayResp (p : Fin 32) (t1 t2 t3 t4 : Dword) (s : State) : Res :=
  if s.portUp p then
    let d := delayOf t1.toNat t2.toNat t3.toNat t4.toNat (s.trim (F.TB_LINK_DELAY_factory p))
    ok (s.wr (F.TB_LINK_DELAY_measured p) (d % 2 ^ 32).toNat)
  else ok s

/-! Tick actions by software. -/

/-- The window offset of TB_ACT_CMD. -/
def actCmd : Nat := 0x10050

/-- TB_ACT_ADD: op ADD of the writing master's bank (R57, R60). -/
def execTbActAdd (m : Master) (type : BitVec 4) (s : State) : Res :=
  ok (s.guarded m actCmd (fun a =>
    match bankOfMaster m with
    | none => a
    | some b =>
      let r := a.addAct (a.rd (F.TB_ACT_TN_tn.bank b)) type.toNat (a.rd (F.TB_ACT_ARG_arg.bank b)) b
      r.1.actResult b r.2.1 (if r.2.1 = 0 then some r.2.2 else none)))

/-- TB_ACT_CANCEL: op CANCEL (R57): no action in the slot, a type of another block, a committed action, or cancelled. -/
def execTbActCancel (m : Master) (slot : BitVec 10) (s : State) : Res :=
  ok (s.guarded m actCmd (fun a =>
    match bankOfMaster m with
    | none => a
    | some b =>
      match a.tb.pend.find? (fun x => x.slot == slot.toNat) with
      | none => a.actResult b 5 none
      | some x =>
        if x.type = 4 ∨ x.type = 5 then a.actResult b 3 none
        else if a.committed x then a.actResult b 1 none
        else (a.cancelActs (fun y => y.slot == slot.toNat)).actResult b 0 none))

/-! TB_CTRL. -/

/-- The window offset of TB_CTRL. -/
def tbCtrl : Nat := 0x10020

/-- RELOCK: accepted only in CONFLICT (R56). -/
def execRelock (m : Master) (s : State) : Res :=
  ok (s.guarded m tbCtrl (fun a =>
    if a.tbState = 5 then { a.tbSet 1 with tb := { (a.tbSet 1).tb with acqStart := a.time, missing := 0 } } else a))

/-- CLEAR_STATS. -/
def execClearStats (m : Master) (s : State) : Res := ok (s.guarded m tbCtrl (fun a => a.wr F.TB_PHASE_ERR_worst 0))

/-- PHASE_START: n added to the counter on every tile of the bay, as a remote arrival (R57; 12 R254). -/
def execPhaseStart (s : State) : Res :=
  match s.takeDue 3 with
  | none => ok s
  | some (a, s1) => ok (s1.forEach (s1.bayTiles (bitsOf a.arg 0 6)) (fun b t => b.signalRemote .hub t (bitsOf a.arg 8 8) (bitsOf a.arg 16 32)))

end Sys2Proof.Machine
end

