-- ==== Sys2Proof/Machine/StopCmds.lean ====
section
/-! DEFINITION. The global stop (03 R61 to R66): the stop instant, the markers that close ports, and the two ways to resume. -/

namespace Sys2Proof.Machine

/-- A mask of port numbers. -/
def maskOf (l : List Nat) : Nat := l.foldl (fun m p => m ||| 2 ^ p) 0

/-- A packet sent on every enabled port that is UP, or will be after its retrain. -/
def State.toPorts (s : State) (b : List Byte) : State :=
  s.forEach (s.enabledPorts.filter (fun p => s.portUp p || (s.port p).rd F.LNK_STATUS_state == 4)) (fun a p => a.egressPut p b)

/-- Present tiles, ascending. -/
def State.presentTiles (s : State) : List Nat := (List.range 1200).filter s.present

/-- Every queue's timer started, held or left as it is (13 R288). -/
def State.timeAll (s : State) : State := s.forEach (s.queues.map (·.1)) (fun a q => a.timing q)

/-- The stop instant (R61): issue and dispatch stop, every ring records STOP and freezes once the cycle of its
tile's counters is over (20 R420, R422), the enabled ports are open but those
whose STOP_DONE has already come (R63). On source 2 the STOP marker goes out (R66). A device that is stopped stays as it is (R65). -/
def State.stopNow (s : State) : State :=
  if s.stopped then s
  else
    let s1 := ({ s with stop := { at_ := s.time } } : State).wrs
      ([(F.TB_STOP_STATUS_stopped, 1), (F.TB_STOP_STATUS_open_ports, maskOf (s.enabledPorts.filter (fun p => !s.stop.early.contains p)))] ++
       (List.range 32).map (fun p => (F.TB_TRANSIT_COUNT_packets p, 0)) ++ (List.range 32).map (fun p => (F.TB_TRANSIT_COUNT_bytes p, 0)))
    let s2 := s1.forEach s1.presentTiles (fun a t =>
      a.setTile t ((a.tile t).endCycle.onRings (fun x e => (x.event a.tn a.sinceEdge e 0xB 0).freeze a.tn a.sinceEdge e 1)))
    let s3 := s2.timeAll
    if s.tbSource = 2 then s3.toPorts (ctrlPacket s.devId 7 [] []) else s3

/-- GLOBAL_STOP: the action reaches the tiles. -/
def execGlobalStop (s : State) : Res :=
  match s.takeDue 1 with
  | none => ok s
  | some (_, s1) => ok s1.stopNow

/-- STOP: the marker of a device that has stopped, on source 2 (R66). -/
def execStop (_p : Fin 32) (s : State) : Res := ok (if s.tbSource = 2 then s.stopNow else s)

/-- STOP_DONE_SEND: egress has sent every packet issued before the stop instant (R61). -/
def execStopDoneSend (s : State) : Res :=
  if s.stopped ∧ s.stop.sent = false ∧ s.enabledPorts.all (fun p => (s.port p).egress.isEmpty) = true then
    ok (({ s with stop := { s.stop with sent := true } } : State).toPorts (ctrlPacket s.devId 8 [] []))
  else ok s

/-- STOP_DONE: the marker closes its port (R63); one that comes before this device's own stop closes it for that stop (log 56). -/
def execStopDone (p : Fin 32) (s : State) : Res :=
  let o := s.rd F.TB_STOP_STATUS_open_ports
  ok (if !s.stopped then { s with stop := { s.stop with early := s.stop.early ++ [p.val] } }
    else if bitOf o p then s.wr F.TB_STOP_STATUS_open_ports (o - 2 ^ p.val) else s)

/-- STOP_PORT_OPEN: ports still open 1 ms after the stop instant are reported and left out of quiescence (R63). -/
def execStopPortOpen (s : State) : Res :=
  let o := s.rd F.TB_STOP_STATUS_open_ports
  ok (if s.stopped ∧ o ≠ 0 ∧ o ≠ s.stop.gaveUp then
      ({ s with stop := { s.stop with gaveUp := o } } : State).tbRaise F.TB_EVENT_port_open .STOP_PORT_OPEN
    else s)

/-- A tile's operations issued before the stop have completed, as far as their targets are on this device (R61, R63). A loft write is posted:
it has left the die once it has reached the hub, and its flush read, once sent, is waited for (10 R221). -/
def State.settled (s : State) (x : Tile) : Bool :=
  x.mRun.all (fun c => x.drain.map (·.cmd) == some c) && x.vRun.isEmpty && x.reqs.all (fun r => devOf r.addr != s.devId) &&
  x.loads.all (fun l => devOf l.addr != s.devId) && x.stores.all (fun e => devOf e.addr != s.devId || e.out)

/-- TB_STOP_STATUS.quiescent (R63): every enabled port closed or given up, every on-die operation complete: those of the tiles, an aborting one's
too, the rows on their way over the mesh, the copy units', the snapshot mover's reads and a dump's copy. -/
def State.quiescent (s : State) : Bool :=
  s.stopped && (List.range 32).all (fun p => !bitOf (s.rd F.TB_STOP_STATUS_open_ports) p || bitOf s.stop.gaveUp p) &&
  s.tiles.all (fun e => s.settled e.2) && s.flying.isEmpty && s.disp.all (fun e => e.2.queue.isNone) && !s.snapReading &&
  s.rd F.HUB_DUMP_STATUS_state != 3

/-- Issue restarts (R64): rings thaw, engines and queues go on, the snapshot mover starts (16 R351), destroys take their steps (13 R298). -/
def State.resumeIssue (s : State) : State :=
  let s1 := s.forEach s.presentTiles (fun a t => a.setTile t ((a.tile t).onRings (fun x e => x.thaw e (some 1))))
  let s2 := s1.dPumpAll.snapStart
  ((s2.forEach (s2.queues.map (·.1)) (fun a q => if 3 ≤ (a.queue q).state then a.destroyStep q else a)).timeAll).launchAll

/-- The stop ends: its counts are cleared, packets held back leave. With `replay` the logged packets stand ready, in arrival order and port by
port, to be applied before issue restarts (R64; `State.replayed`). -/
def State.endStop (s : State) (replay : Bool) : State :=
  let l := (s.stop.transit.map (fun e => e.2.map (fun b => (e.1, b)))).flatten
  let s1 := ({ s with stop := {} } : State).wrs
    ([(F.TB_STOP_STATUS_stopped, 0), (F.TB_STOP_STATUS_open_ports, 0)] ++
     (List.range 32).map (fun p => (F.TB_TRANSIT_COUNT_packets p, 0)) ++ (List.range 32).map (fun p => (F.TB_TRANSIT_COUNT_bytes p, 0)))
  let s2 := s.stop.held.foldl State.sendPkt s1
  if replay then { s2 with stop := { replay := some l } } else s2.resumeIssue

/-- A resume: only when quiescent, otherwise STOP_BUSY (R64). -/
def State.resumeOr (s : State) (replay : Bool) : State := if s.quiescent then s.endStop replay else s.logs .STOP_BUSY []

/-- A RESUME_REPLAY written. -/
def State.resumeReplay (s : State) (m : Master) : State := s.guarded m tbCtrl (fun a => a.resumeOr true)
/-- RESUME_DISCARD. -/
def execResumeDiscard (m : Master) (s : State) : Res := ok (s.guarded m tbCtrl (fun a => a.resumeOr false))

end Sys2Proof.Machine
end

