-- ==== Sys2Proof/Machine/Observe.lean ====
section
/-! DEFINITION. Counter samples (20 R436), the debug freeze of the event rings (R422) and tensor dumps (R432, R433). -/

namespace Sys2Proof.Machine

/-- The byte counters of sample set j (R434, R436): the first one and how many. E ports are 0 to 15, O ports 16 to 31. -/
def sampleSet (j : Nat) : Nat × Nat :=
  match j with
  | 0 => (136, 16) | 1 => (0, 8) | 2 => (8, 12) | 3 => (20, 16) | 4 => (36, 32) | 5 => (68, 2) | 6 => (70, 2) | 7 => (72, 32)
  | _ => (104, 32)

/-- A set captured: its counters, and the TN. -/
def State.sampleOne (s : State) (j : Nat) : State :=
  let c := sampleSet j
  let r := (List.range c.2).foldl (fun r i => setFld r (F.HUB_CNT_SAMPLE_bytes (c.1 + i)) (fld s.regs (F.HUB_CNT_bytes (c.1 + i)))) s.regs
  (s.setRegs r).wr (F.HUB_CNT_TN_tn j) s.tn

/-- COUNTER_SAMPLE (R436). -/
def execCounterSample (s : State) : Res :=
  match s.takeDue 7 with
  | none => ok s
  | some (a, s1) => ok (s1.forEach ((List.range 9).filter (bitOf a.arg)) State.sampleOne)

/-- The window offset of DBG_EVT_FREEZE. -/
def evtFreezeOff : Nat := 0x50108

/-- A write of DBG_EVT_FREEZE.all: 1 freezes every ring with reason 3, 0 thaws the rings frozen for it (R422). -/
def State.evtAll (s : State) (b : Bool) : State :=
  (s.wr F.DBG_EVT_FREEZE_all (b2n b)).forEach s.presentTiles (fun a t =>
    a.setTile t ((a.tile t).endCycle.onRings (fun x e => if b then x.freeze a.tn a.sinceEdge e 3 else x.thaw e (some 3))))

/-- EVT_FREEZE. -/
def execEvtFreeze (m : Master) (s : State) : Res := ok (s.guarded m evtFreezeOff (fun a => a.evtAll true))
/-- EVT_THAW. -/
def execEvtThaw (m : Master) (s : State) : Res := ok (s.guarded m evtFreezeOff (fun a => a.evtAll false))

/-! Dumps. -/

/-- The window offset of HUB_DUMP_CTRL. -/
def dumpCtrl : Nat := 0x620

def State.dumpState (s : State) : Nat := s.rd F.HUB_DUMP_STATUS_state

/-- The dump ends: its holds are released, its state and error shown. -/
def State.dumpEnd (s : State) (st err : Nat) : State :=
  (({ s with dump := {} } : State).forEach s.dump.held (fun a t => a.setTile t { a.tile t with hold := false })).wrs
    [(F.HUB_DUMP_STATUS_state, st), (F.HUB_DUMP_STATUS_error, err), (F.HUB_DUMP_STATUS_held, 0)]

/-- Whether what ARM takes is as R432 says: a source in an HBM region, the length, aligned ends, a watch tile in a bay. -/
def State.dumpOk (s : State) : Bool :=
  let src := s.rd F.HUB_DUMP_SRC_addr
  let n := s.rd F.HUB_DUMP_LEN_length
  src % 256 == 0 && n % 256 == 0 && 256 ≤ n && n ≤ 2 ^ 34 && s.rd F.HUB_DUMP_DST_addr % 256 == 0 &&
  s.present (s.rd F.HUB_DUMP_CTRL_tile) && (s.bayOf (s.rd F.HUB_DUMP_CTRL_tile)).isSome && (s.hbmOf src n).isSome

/-- DUMP_ARM (R432, R433): one at a time; an ARM outside R432's ranges ends at once with COPY_FAULT (log 39). -/
def execDumpArm (m : Master) (s : State) : Res :=
  ok (s.guarded m dumpCtrl (fun a =>
    if 1 ≤ a.dumpState ∧ a.dumpState ≤ 3 then a.wr F.HUB_DUMP_STATUS_error 3
    else if a.dumpOk then
      ({ a with dump := { bay := (a.bayOf (a.rd F.HUB_DUMP_CTRL_tile)).getD 0 } } : State).wrs
        [(F.HUB_DUMP_STATUS_state, 1), (F.HUB_DUMP_STATUS_error, 0), (F.HUB_DUMP_STATUS_held, 0)]
    else a.wrs [(F.HUB_DUMP_STATUS_state, 5), (F.HUB_DUMP_STATUS_error, 2)]))

/-- DUMP_CANCEL: the dump is cancelled and its holds released. -/
def execDumpCancel (m : Master) (s : State) : Res :=
  ok (s.guarded m dumpCtrl (fun a => if 1 ≤ a.dumpState ∧ a.dumpState ≤ 3 then a.dumpEnd 5 4 else a))

/-- DUMP_COPY_DONE: the range copied and digested, the holds released (R432). `hostOk`: every write outside the device's
memory was performed, and its confirmation shows no error. -/
def execDumpCopyDone (hostOk : Bool) (errs : List BurstErr) (s : State) : Res :=
  if s.dumpState ≠ 3 then ok s
  else
    let src := s.rd F.HUB_DUMP_SRC_addr
    let dst := s.rd F.HUB_DUMP_DST_addr
    let n := s.rd F.HUB_DUMP_LEN_length
    let sp := s.rd F.HUB_DUMP_CTRL_dst_space
    let (s1, data, good) := s.copyRead 0 src none errs (cut256 (n / 256 + 2) src n)
    let (s2', wrote) := s1.copyWrite sp dst data (cut256 (n / 256 + 2) dst n)
    let s2 := s2'.confirmed (wrote != 1 || hostOk)
    if good && (wrote == 0 || wrote == 1 && hostOk) then
      let d := rawDigest 0 (n / 8) data
      ok ((s2.dumpEnd 4 0).wrs [(F.HUB_DUMP_DIG_LO_digest, d), (F.HUB_DUMP_DIG_HI_digest, d / 2 ^ 64)])
    else ok ((s2.dumpEnd 5 2).logs .DUMP_ERROR [2])

end Sys2Proof.Machine
end

