-- ==== Sys2Proof/Machine/Power.lean ====
section
/-! DEFINITION. The power controller (18): supplies and starts (R385 to R393), site power (R394), issue shares (R396 to R398), mothball and
wake (R400 to R402). -/

namespace Sys2Proof.Machine

def State.pwrSt (s : State) : Nat := s.rd F.PWR_STATUS_state

/-! Supplies and starts. -/

/-- Domains of a list set on or off. -/
def State.domains (s : State) (l : List Nat) (b : Bool) : State := s.wrs (l.map (fun i => (F.PWR_DOMAIN_on i, b2n b)))

/-- Every domain fed from 48 V switches off: OFF (R386, R398; 19 R413). VSAFE and VAON stay. The status register has no code for OFF
(log 40). -/
def State.off48 (s : State) : State :=
  let s1 := s.blank
  (({ s1 with pwr := { s1.pwr with off := true, vioKept := false } } : State).domains (List.range 28) false).wr F.PWR_STATUS_step 0

/-- Both supplies are there, so that a start can run (R385, R386). -/
def State.powered (s : State) : Bool := s.pwr.aux && s.pwr.v48

/-- A start asked for while the supplies are there. -/
def State.startIf (s : State) (warm : Bool) (i : StartIn) : State := if s.powered then s.startUp warm i else s

/-- AUX_POWER_ON: the auxiliary supply is applied, for a cold start (R388). VAON and VSAFE rise; the rest of step 1 waits until the 48 V input is
valid (R393): `v48` tells whether it already is. Otherwise VIN_RETURN brings it, and no state is retained that could make that start warm. -/
def execAuxPowerOn (i : StartIn) (s : State) (v48 : Bool := true) : Res :=
  if s.pwr.aux then ok s
  else
    let s1 := { s with pwr := { s.pwr with aux := true, v48 := v48, trip := false } }
    if v48 then ok (s1.startUp false i)
    else
      ok (({ s1 with pwr := { s1.pwr with inputs := some i, startAt := s.time } } : State).domains [28, 29] true |>.wrs
        [(F.PWR_STATUS_step, 1), (F.PWR_STATUS_warm, 0), (F.PWR_STATUS_failed, 0)])

/-- AUX_POWER_OFF: VAON and VSAFE fall; retained state is invalid, debug CLOSED, and what VAON held is lost (R385, R388; 19 R413). -/
def execAuxPowerOff (s : State) : Res :=
  let s1 := ({ s with pwr := { s.pwr with aux := false, v48 := false, trip := false, retained := false }, i3c := {} } : State).off48
  let s2 := s1.domains (List.range 30) false
  ok ((s2.setRegs (rput s2.regs F.PWR_EVENT_input_range.off 0)).wr F.PWR_STATUS_warm_fails 0)

/-- VIN_RETURN: the 48 V input is back (R386). -/
def execVinReturn (i : StartIn) (s : State) : Res :=
  if s.pwr.aux && s.pwr.off then ok (({ s with pwr := { s.pwr with v48 := true } } : State).startUp true i) else ok s

/-- An UNCONTAINED record of a supply or a temperature (17 R367 class 15). `kind`: the bit of PWR_EVENT, 9 the 115 °C shutdown (log 19). -/
def State.supplyRecord (s : State) (kind die : Nat) (detail : List Byte) : State :=
  s.record { sev := 3, cls := 15, kind := kind, die := die, detail := detail }

/-- VIN_RANGE_FAULT: PWR_INPUT, a supply failure of every die (R386). -/
def execVinRangeFault (mv : BitVec 16) (s : State) : Res :=
  let s1 := (((s.wr F.PWR_INPUT_mv mv.toNat).pwrEvent F.PWR_EVENT_input_range).logs .PWR_INPUT [mv.toNat]).ibi 2
  ok ((s1.supplyRecord 0 8 []).stopDies (List.range 8))

/-- VIN_LOW_SHUTDOWN: below 36 V for 100 µs (R386). -/
def execVinLowShutdown (mv : BitVec 16) (s : State) : Res :=
  ok ({ (s.wr F.PWR_INPUT_mv mv.toNat).off48 with pwr := { (s.wr F.PWR_INPUT_mv mv.toNat).off48.pwr with v48 := false } })

/-- The window offset of PWR_CTRL. -/
def pwrCtrl : Nat := 0x30008

/-- WARM_START (R388); in RECOVERY only a cold start acts (R392). -/
def execWarmStart (m : Master) (i : StartIn) (s : State) : Res :=
  ok (s.guarded m pwrCtrl (fun a => if a.pwrSt = 3 then a else a.startIf true i))

/-- COLD_START (R388), which in RECOVERY clears the cold count (R392). -/
def State.coldStart (s : State) (i : StartIn) : State :=
  (if s.pwrSt = 3 then ({ s with pwr := { s.pwr with coldKept := 0 } } : State).wr F.PWR_STATUS_cold_fails 0 else s).startIf false i

/-- COLD_START. -/
def execColdStart (m : Master) (i : StartIn) (s : State) : Res := ok (s.guarded m pwrCtrl (fun a => a.coldStart i))

/-- A start is in progress, not failed and not held. -/
def State.starting (s : State) : Bool := s.pwrSt == 0 && s.pwr.inputs.isSome && s.rd F.PWR_STATUS_failed == 0 && !s.pwr.resetHeld

/-- START_RETRY: 1 s after a failed start (R392); DIE_MISMATCH and PWR_ROW_LOST are not retried. -/
def execStartRetry (i : StartIn) (s : State) : Res :=
  let c := s.rd F.PWR_STATUS_fail_code
  if s.pwrSt = 0 ∧ s.rd F.PWR_STATUS_failed = 1 ∧ s.pwr.resetHeld = false ∧ c ≠ 2 ∧ c ≠ 6 then ok (s.startIf (s.on F.PWR_STATUS_warm) i) else ok s

/-- STEP_TIMEOUT: the step in progress passes its limit (R389, R390). Step 8 has one only while an image is checked, step 11 that of 03
R54. -/
def execStepTimeout (s : State) : Res :=
  let k := s.rd F.PWR_STATUS_step
  if s.starting && k != 11 && !(k == 8 && s.stow.copyOp.isNone) then ok (s.startFail k 8 .STEP_TIMEOUT) else ok s

/-- The monitor limits of a domain, in units of 0.5 mV (R387). -/
def domainLimits (i : Nat) : Nat × Nat :=
  if 24 ≤ i then (if i = 26 then (1710, 1890) else (1520, 1680))
  else if i % 3 = 0 then (1424, 1576)
  else if i % 3 = 1 then (1614, 1786)
  else (2090, 2310)

/-- What the monitor of domain i makes of a reading, both in 0.5 mV: its trim added (R387; 03 R67). -/
def State.domainVolts (s : State) (i : Nat) (raw : BitVec 16) : Nat := ((raw.toNat : Int) + s.trim (F.TB_SENSOR_TRIM_factory (28 + i))).toNat

/-- DOMAIN_FAULT: a domain outside its limits for 10 µs (R387): a supply failure of its dies; of VSER and VUCI, the ports go DOWN. -/
def execDomainFault (i : Fin 30) (raw : BitVec 16) (s : State) : Res :=
  let v := s.domainVolts i raw
  if s.rd (F.PWR_DOMAIN_on i) = 0 ∨ ((domainLimits i).1 ≤ v ∧ v ≤ (domainLimits i).2) then ok s
  else
    let s1 := (s.wrs [(F.PWR_DOMAIN_mv i, v / 2), (F.PWR_DOMAIN_fault i, 1)]).pwrEvent F.PWR_EVENT_domain_fault
    let s2 := (s1.logs .PWR_DOMAIN [i, v / 2]).supplyRecord 4 (if i.val < 24 then i.val / 3 else 8) [BitVec.ofNat 8 i]
    if i.val < 24 then ok (s2.stopDies [i.val / 3])
    else if i.val = 26 ∨ i.val = 27 then
      ok (s2.forEach ((List.range 16).map (· + (if i.val = 26 then 0 else 16)))
        (fun a p => if (a.port p).rd F.LNK_STATUS_state = 0 then a else a.portDown p))
    else ok (s2.stopDies (List.range 8))

/-- SITE_POWER_UP: die `d` powers its next site (R394): one that a bay holds, or the one of a PRETEST; another uses its slot and stays gated
(R402). -/
def execSitePowerUp (d : Fin 8) (s : State) : Res :=
  match kget s.pwr.siteQ d [] with
  | [] => ok s
  | k :: l =>
    let s1 := { s with pwr := { s.pwr with siteQ := kput s.pwr.siteQ d l } }
    if s.safe.pretest.map (·.1) = some k then
      ok { s1 with pwr := { s1.pwr with sites := s1.pwr.sites ++ [k] }, safe := { s1.safe with pretest := some (k, 1) } }
    else if s.image.sites.contains k && !s.pwr.sites.contains k then ok { s1 with pwr := { s1.pwr with sites := s1.pwr.sites ++ [k] } }
    else ok s1

/-! The current budget and issue shares. -/

/-- The grants of die `d` settled and its rate r set (R395): the grants in hand stay, up to the new rate. -/
def State.setRate (s : State) (d r : Nat) : State :=
  (s.settleGrants d (min (s.grantParts d) (r * usCycles))).wr (F.PWR_DIE_ramp d) r

/-- The thresholds of R398, in °C. -/
def thermalLimits : List Nat := [95, 96, 97, 98, 99, 100, 105]
/-- The share that a threshold imposes on a compute die. -/
def limitShare (k : Nat) : Nat := ([14, 12, 10, 8, 6, 4, 0] : List Nat).getD k 16

/-- The thresholds in force at die `d` (8: the hub), as a mask. -/
def State.hot (s : State) (d : Nat) : Nat := kget s.pwr.thermal d 0

/-- The thermal share of a compute die: its lowest, and 4 while the hub stands at its own limit (R398). -/
def State.thermalShare (s : State) (d : Nat) : Nat :=
  ((List.range 7).filter (bitOf (s.hot d))).foldl (fun m k => min m (limitShare k)) (if bitOf (s.hot 8) 6 then 4 else 16)

/-- PWR_DIE of every compute die follows its shares; the POWER_RAMP rate is limited to 4 from 100 °C (R396, R398). -/
def State.shares (s : State) : State :=
  s.forEach (List.range 8) (fun a d =>
    let t := a.thermalShare d
    let q := min t a.pwr.power
    let r := min (kget a.pwr.rampSet d 24) (if bitOf (a.hot d) 5 then 4 else 24)
    (if a.rate d = r then a else a.setRate d r).wrs
      [(F.PWR_DIE_share d, q), (F.PWR_DIE_thermal d, b2n (decide (t < 16))), (F.PWR_DIE_power d, b2n (decide (a.pwr.power < 16))),
       (F.PWR_DIE_halted d, b2n (q == 0))])

/-- After a change of the shares: engines that were halted go on. -/
def State.sharesGo (s : State) : State := s.shares.dPumpAll

/-- One threshold at die `d` after a reading: in force from the first reading that reaches it until every reading for 1 ms has been at least
2 °C below it, and T ≤ 102 °C for the halt (R398). `temp` is in sixteenths of a degree. -/
def State.threshold (s : State) (d temp k : Nat) : State :=
  let lim := 16 * thermalLimits.getD k 0
  let m := s.hot d
  let key := 8 * d + k
  let since := if temp + 32 ≤ lim then some ((kget? s.pwr.coolAt key).getD s.time) else none
  let cool := match since with | some t => kput s.pwr.coolAt key t | none => kdel s.pwr.coolAt key
  let on := decide (lim ≤ temp) || (bitOf m k &&
    !((match since with | some t => decide (msCycles ≤ s.time - t) | none => false) && (k != 6 || d == 8 || decide (temp ≤ 16 * 102))))
  let m1 := m - (if bitOf m k then 2 ^ k else 0) + (if on then 2 ^ k else 0)
  { s with pwr := { s.pwr with thermal := kput s.pwr.thermal d m1, coolAt := cool } }

/-- The highest of a die's sensors after trim, in sixteenths of a degree from 0 °C up (R398; 03 R67): `raw` is the readings before trim, in the
same unit, three of a compute die and four of the hub. -/
def State.hottest (s : State) (d : Nat) (raw : List (BitVec 16)) : Nat :=
  (raw.zip (List.range raw.length)).foldl (fun m e => max m (e.1.toInt + s.trim (F.TB_SENSOR_TRIM_factory (3 * d + e.2))).toNat) 0

/-- DIE_TEMP_SAMPLE: the sensors of a die, read every 10 µs (R398). -/
def execDieTempSample (d : Fin 9) (raw : List (BitVec 16)) (s : State) : Res :=
  let x := s.hottest d raw
  let t := min (x / 16) 255
  let busy := d.val < 8 && s.rd (F.PWR_DIE_share d) != 16
  let s0 := s.wr (F.PWR_DIE_temp d) t
  let s1 := if busy then s0.bump (F.PWR_DIE_throttled_us d) 10 else s0
  if 115 ≤ t then
    ok ((((({ s1 with pwr := { s1.pwr with trip := true } } : State).logs .THERMTRIP [d, t]).supplyRecord 9 d [BitVec.ofNat 8 t]).stopDies
      (if d.val = 8 then List.range 8 else [d.val])).off48)
  else
    let old := s.hot d
    let s2 := s1.forEach (List.range 7) (fun a k => a.threshold d x k)
    let new := s2.hot d
    let s3 := if old = 0 ∧ new ≠ 0 ∧ d.val < 8 then ((s2.pwrEvent F.PWR_EVENT_thermal_throttle).logs .THERMAL_THROTTLE [d, t]).ibi 2 else s2
    let s4 := if bitOf old 6 = false ∧ bitOf new 6 = true ∧ d.val < 8 then
      ((s3.pwrEvent F.PWR_EVENT_thermal_halt).logs .THERMAL_HALT [d, t]).ibi 2 else s3
    ok s4.sharesGo

/-- The power share after a sample (R397), and the time of the change. -/
def State.powerShare (s : State) (i : PowerIn) : Nat × Nat :=
  let p := s.pwr.power
  let hot := s.rd F.PWR_BUDGET_sustained_w ≤ i.average.toNat + 100 || i.above8ms
  if 11500 < i.watts.toNat then (4, s.time)
  else if hot then (if 100 * usCycles ≤ s.time - s.pwr.powerAt then (p - 2, s.time) else (p, s.pwr.powerAt))
  else if p < 16 ∧ msCycles ≤ s.time - s.pwr.powerAt then (p + 1, s.time)
  else (p, s.pwr.powerAt)

/-- POWER_SAMPLE: the input sampled every 10 µs (R397). -/
def execPowerSample (i : PowerIn) (s : State) : Res :=
  let s1 := s.wrs [(F.PWR_INPUT_mv, i.mv.toNat), (F.PWR_INPUT_current, i.current.toNat), (F.PWR_INPUT_watts, i.watts.toNat),
    (F.PWR_BUDGET_average_w, i.average.toNat), (F.PWR_BUDGET_max_10ms_w, max (s.rd F.PWR_BUDGET_max_10ms_w) i.max10.toNat)]
  let r := s1.powerShare i
  let s2 := { s1 with pwr := { s1.pwr with power := r.1, powerAt := r.2 } }
  ok (if r.1 = s.pwr.power then s2 else (s2.pwrEvent F.PWR_EVENT_power_throttle).sharesGo)

/-- POWER_RAMP: the grant rate of the named dies (R395). -/
def execPowerRamp (s : State) : Res :=
  match s.takeDue 8 with
  | none => ok s
  | some (a, s1) =>
    let dies := (List.range 8).filter (bitOf a.arg)
    ok ({ s1 with pwr := { s1.pwr with rampSet := dies.foldl (fun m d => kput m d (bitsOf a.arg 16 5)) s1.pwr.rampSet } } : State).shares

/-! The status pins (22, Single lands). -/

/-- THERMTRIP_N is asserted: a 115 °C shutdown, while the auxiliary supply remains. -/
def State.thermtripPin (s : State) : Bool := s.pwr.trip && s.pwr.aux
/-- FAULT_N is asserted: SAFE_STATUS.uncontained, or the last start failed. -/
def State.faultPin (s : State) : Bool := s.on F.SAFE_STATUS_uncontained || s.on F.PWR_STATUS_failed
/-- PWR_OK is high: PWR_STATUS.state is ON. -/
def State.pwrOkPin (s : State) : Bool := s.pwrSt == 1 && !s.pwr.off

/-! Mothball (R400 to R402). -/

/-- A request for mothball: ON → ENTERING. -/
def State.mothball (s : State) : State := if s.pwrSt = 1 then (s.pwrState 4).timeAll else s

/-- PWR_CTRL op MOTHBALL. -/
def execMothball (m : Master) (s : State) : Res := ok (s.guarded m pwrCtrl State.mothball)

/-- The domains that mothball switches off (R387). -/
def mothballDomains : List Nat := ((List.range 8).map (fun d => [3 * d, 3 * d + 1])).flatten ++ [24, 27]

/-- MOTHBALL_ENTRY: with no bay held, the snapshot state IDLE and every stack's retirement IDLE (R400). -/
def execMothballEntry (s : State) : Res :=
  if s.pwrSt = 4 ∧ s.noBayHeld = true ∧ s.snapState = 0 ∧ (List.range 16).all (fun k => (s.stack k).rd F.HBM_RET_STATUS_state == 0) = true then
    let s1 := s.forEach (List.range 32) (fun a p => a.portDrop p)
    let s2 := s1.forEach (List.range 16) (fun a k => a.setStack k ((a.stack k).wr F.HBM_STATUS_state 2))
    let s3 := (s2.domains mothballDomains false).tapReset
    ok ((({ s3 with pwr := { s3.pwr with sites := [], siteQ := [], mbAt := s.time } } : State).pwrState 2).timeAll)
  else ok s

/-- A wake's request: MOTHBALL → WAKING; each die begins with its 160 sites (R394, R402). -/
def State.wake (s : State) : State :=
  if s.pwrSt = 2 then
    let q := (List.range 8).map (fun d => (d, (List.range 160).map (fun k => 160 * d + k)))
    (({ s with pwr := { s.pwr with wakeAt := s.time, siteQ := q } } : State).domains
      (((List.range 8).map (fun d => [3 * d, 3 * d + 1])).flatten) true).pwrState 5
  else s

/-- PWR_CTRL op WAKE. -/
def execWake (m : Master) (s : State) : Res := ok (s.guarded m pwrCtrl State.wake)

/-- Tiles after a wake (R402): IDLE, every counter 0, the scratchpads undefined. What a wake says nothing about is as after a start, and the
totals of the rings stay. Self-test ages held meanwhile (R401). -/
def State.wakeTiles (s : State) : State :=
  let g := s.free
  let dur := s.time - s.pwr.mbAt
  { s with
    free := g + 1200
    spadGen := some g
    tiles := s.tiles.map (fun (e : Nat × Tile) =>
      (e.1, { e.2.keepTotals { Tile.reset with spad := { undef := some (g + e.1) } } with lastPass := e.2.lastPass + dur }))
    vaults := []
    safe := { s.safe with stnPass := s.safe.stnPass.map (fun e => (e.1, e.2 + dur)), since := s.safe.since + dur } }

/-- WAKE_COMPLETE: 18 ms after the request (R402). The bundles have trained again from their retained values; one that is down stays down. -/
def execWakeComplete (s : State) : Res :=
  if s.pwrSt = 5 then
    let s0 := s.wakeTiles.domains [24, 27] true
    let s1 := { s0 with pkg := { s0.pkg with bundles := (List.range 376).map (fun b => (b, { (s.bundle b).kept with retrains := (s.bundle b).retrains })) } }
    let s2 := s1.forEach (List.range 16) (fun a k => a.setStack k ((a.stack k).wr F.HBM_STATUS_state 1))
    let s3 := ({ s2 with pwr := { s2.pwr with sites := s2.image.sites, siteQ := [], rampSet := [] }, grp := { s2.grp with resume := 3 } } : State).pwrState 1
    let s4 := (s3.shares.forEach s3.enabledPorts (fun a p => a.portTrain p)).pwrEvent F.PWR_EVENT_wake_done
    ok (s4.timeAll.launchAll)
  else ok s

end Sys2Proof.Machine
end

