-- ==== Sys2Proof/Machine/SafetyCmds.lean ====
section
/-! DEFINITION. The safety monitor's commands (17): the watchdog (R369), the rotating self-test (R370 to R374), PRETEST (R378), site marks
(R381), reports and counts (R383, R384). -/

namespace Sys2Proof.Machine

/-- An engine has started a command or an instruction and is not in a counter wait (R369), nor held by a dump (20 R432, R433). -/
def Tile.engineBusy (x : Tile) (e : Engine) : Bool :=
  match e with
  | .m => !x.mRun.isEmpty
  | .v => !x.vRun.isEmpty
  | .d => !x.dRun.isEmpty
  | .s => x.running && !(x.hold && x.swait == .none) && (match x.swait with | .counter .. => false | .landing .. => false | _ => true)

/-- ENGINE_WATCHDOG (R369, R375, R376). A halted die holds M, V and D; S is not throttled (18 R396). -/
def execEngineWatchdog (t : Fin 1200) (e : Engine) (s : State) : Res :=
  let x := (s.tile t).endCycle
  match s.bayOf t with
  | none => ok s
  | some b =>
    if x.live && !s.stopped && x.engineBusy e && (e == .s || s.rd (F.PWR_DIE_halted (t / 150)) == 0) then
      ok (((s.suspect (s.site t)).record { s.recOfTile 2 14 0x42 t with detail := [BitVec.ofNat 8 (engNo e)] }).safetyStop b t)
    else ok s

/-! Self-test ages (R374). -/

/-- SAFETY_DEGRADED: the age of bay b has passed 500 ms (R374). -/
def execSafetyDegraded (b : Fin 64) (s : State) : Res :=
  if (s.image.bay? b).isNone || s.rd (F.SAFE_ST_AGE_degraded b) == 1 || s.pwrMb || decide (s.bayAge b ≤ 500 * msCycles) then ok s
  else
    let s1 := (s.wrs [(F.SAFE_ST_AGE_degraded b, 1), (F.SAFE_STATUS_degraded, 1)]).raised .SAFETY_DEGRADED [b]
    ok (s1.record { sev := 1, cls := 16, kind := 1, bay := b })

/-! The slot (R370, R371, R373). -/

/-- One tile of a slot asks for its grant. -/
def State.testTile (s : State) (t : Nat) : State :=
  let r := s.activate (t / 150) 2 t
  if r.2 then r.1.activated 2 t else r.1

/-- A slot of bay b opens: not used when a LAUNCH holds it; otherwise its stations are tested, and its tiles are to ask for grants: those left
untested, and the others. -/
def State.openTest (s : State) (b : Nat) : State × List Nat × List Nat :=
  if (s.bay b).holder.isSome then (s.bump (F.SAFE_ST_AGE_skipped b), [], [])
  else if s.underTest b then (s, [], [])
  else
    let first := (s.bayTiles b).filter (fun t => (s.bay b).untested.contains t)
    (s.setBay b { s.bay b with testSt := s.bayStations b, untested := [], testAt := s.time },
     first, (s.bayTiles b).filter (fun t => !first.contains t))

/-- The slots of the bays of one action open together: the tiles left untested first, then the others, each in ascending logical tile number
(R371; 18 R395). -/
def State.testBays (s : State) (bs : List Nat) : State :=
  let r := bs.foldl (fun (a : State × List Nat × List Nat) b => let o := a.1.openTest b; (o.1, a.2.1 ++ o.2.1, a.2.2 ++ o.2.2)) (s, [], [])
  let asc := fun (l : List Nat) => l.foldl (fun m t => ascInsert t m) []
  r.1.forEach (asc r.2.1 ++ asc r.2.2) State.testTile

/-- SELFTEST_SLOT. -/
def execSelftestSlot (s : State) : Res :=
  match s.takeDue 6 with
  | none => ok s
  | some (a, s1) =>
    let s2 := s1.forEach (List.range 8) State.withdraw
    ok (s2.testBays ((s2.image.bays.map (·.id)).filter (bitOf a.arg)))

/-- A failed test stops its bay for 1 ms (R372). -/
def State.testStop (s : State) (b : Nat) : State := s.setBay b { s.bay b with stopUntil := s.time + msCycles }

/-- A test of tile `t` is in progress. -/
def State.testingTile (s : State) (t : Nat) : Bool := (s.bayOf t).any (fun b => (s.bay b).testing.contains t)

/-- The end of a tile's test: M unseeded, V's registers 0; a failure marks the site, stops the bay and is recorded (R372, R375, R376). -/
def State.tileTested (s : State) (t : Nat) (pass : Bool) : State :=
  match s.bayOf t with
  | none => s
  | some b =>
    let y := s.bay b
    if !y.testing.contains t then s
    else
      let x := { (s.tile t).unseed with vregs := [], lastPass := if pass then s.time else (s.tile t).lastPass }
      let s1 := (s.setTile t x).setBay b { y with testing := y.testing.erase t }
      if pass then (s1.agePass b).launchNext b
      else (((s1.testStop b).suspect (s1.site t)).record (s1.recOfTile 2 16 0x42 t)).safetyStop b t

/-- The end of a station's test. -/
def State.stationTested (s : State) (k : Nat) (pass : Bool) : State :=
  let b := (s.vaultDef k).bay
  let y := s.bay b
  if !y.testSt.contains k then s
  else
    let s1 := s.setBay b { y with testSt := y.testSt.erase k }
    if pass then (({ s1 with safe := { s1.safe with stnPass := kput s1.safe.stnPass k s1.time } } : State).agePass b).launchNext b
    else (s1.testStop b).stationFault k 16

/-- A scratchpad word with two bits in error that the self-test meets (R367, R376). -/
def State.spadLatent (s : State) (t : Nat) (bad : Option Nat) : State :=
  match bad with
  | none => s
  | some o => (s.suspect (s.site t)).record { s.recOfTile 2 4 0 t with addr := s.spadAddr t (o / 8 * 8) }

/-- SELFTEST_DONE; `words` are the offsets of the scratchpad words that the test corrected, `bad` that of the first with two bits in error (R367,
R370). -/
def execSelftestDone (u : TestUnit) (pass : Bool) (s : State) (words : List Nat := []) (bad : Option Nat := none) : Res :=
  match u with
  | .tile t => ok ((if s.testingTile t then (words.foldl (fun a o => a.spadCorrected t o) s).spadLatent t bad else s).tileTested t pass)
  | .station k => ok (s.stationTested k pass)

/-! SAFE_REPAIR and SAFE_CTRL. -/

/-- The window offsets of SAFE_REPAIR and SAFE_CTRL. -/
def safeRepair : Nat := 0x40020
def safeCtrl : Nat := 0x40008

/-- The site that a write of SAFE_REPAIR names, kept in its fields. -/
def State.repairSite (s : State) (die : BitVec 3) (row col : BitVec 4) : State :=
  s.wrs [(F.SAFE_REPAIR_die, die.toNat), (F.SAFE_REPAIR_row, row.toNat), (F.SAFE_REPAIR_column, col.toNat)]
def siteNo (die : BitVec 3) (row col : BitVec 4) : Nat := die.toNat * 160 + row.toNat * 16 + col.toNat

/-- PRETEST (R378): refused for a mapped site, and where no site can be powered; one that runs goes on (log 42). -/
def execPretest (m : Master) (die : BitVec 3) (row col : BitVec 4) (s : State) : Res :=
  ok (s.guarded m safeRepair (fun a =>
    let b := a.repairSite die row col
    let k := siteNo die row col
    if b.safe.pretest.isSome then b
    else if 10 ≤ row.toNat ∨ (b.image?.bind (·.tileAt k)).isSome = true ∨ b.pwrOn = false then b.wr F.SAFE_REPAIR_STATUS_state 3
    else
      ({ b with safe := { b.safe with pretest := some (k, 0) },
                pwr := { b.pwr with siteQ := kput b.pwr.siteQ die.toNat (kget b.pwr.siteQ die.toNat [] ++ [k]) } } : State).wr
        F.SAFE_REPAIR_STATUS_state 1))

/-- PRETEST_DONE: the BIST of a powered site ends; the site is gated again. A FAILED site stays FAILED (R376). -/
def execPretestDone (pass : Bool) (us : Word) (s : State) : Res :=
  match s.safe.pretest with
  | some (k, 1) =>
    let s1 := { s with safe := { s.safe with pretest := none }, pwr := { s.pwr with sites := s.pwr.sites.filter (· != k) } }
    let s2 := s1.wrs [(F.SAFE_REPAIR_STATUS_state, if pass then 2 else 3), (F.SAFE_REPAIR_STATUS_elapsed_us, us.toNat)]
    ok (if s2.siteState k = 2 then s2 else s2.setSite k (if pass then 0 else 2))
  | _ => ok s

/-- MARK_SUSPECT (R381). -/
def execMarkSuspect (m : Master) (die : BitVec 3) (row col : BitVec 4) (s : State) : Res :=
  ok (s.guarded m safeRepair (fun a =>
    let b := a.repairSite die row col
    if row.toNat < 10 then b.suspectLater (siteNo die row col) else b))

/-- REPORT_MISMATCH (R384): the record's kind 1 stands for REPLAY_MISMATCH (log 19). -/
def execReportMismatch (m : Master) (s : State) : Res :=
  ok (s.guarded m safeCtrl (fun a => (a.record { sev := 3, cls := 0x12, kind := 1 }).wr F.SAFE_STATUS_untrusted 1))

/-- SAFE_CTRL op CLEAR_COUNTS. -/
def execSafeClearCounts (m : Master) (s : State) : Res :=
  ok (s.guarded m safeCtrl (fun a =>
    a.wrs [(F.SAFE_COUNTS_corrected, 0), (F.SAFE_COUNTS_contained, 0), (F.SAFE_COUNTS_uncontained, 0)]))

end Sys2Proof.Machine
end

