-- ==== Sys2Proof/Machine/Security.lean ====
section
/-! DEFINITION. Signed commands and the lifecycle (19 R407 to R413), and the SPDM responder (R417). -/

namespace Sys2Proof.Machine

/-! Signed commands. -/

/-- The window offset of bank b's SEC_CMD_CTRL, and of its SEC_CMD_BUF. -/
def secCtrl (b : Nat) : Nat := 0x20108 + 0x400 * b
def secBuf (b : Nat) : Nat := 0x20300 + 0x400 * b

/-- The 336 bytes that bank b holds (R407). -/
def State.secBytes (s : State) (b : Nat) : List Byte := rgetBytes s.regs (secBuf b) 42

/-- The services of the security root run: secure boot has completed, no service pause, not in RECOVERY (R416, R417; 21 R445, R448). -/
def State.secReady (s : State) : Bool := s.sec.bootDone && !s.dark && !s.fw.active && s.rd F.PWR_STATUS_state != 3

/-- Check 1 (R408): the byte at which the format fails. A slot or a hash where R407 states a value is part of it (log 43). -/
def secForm (b : List Byte) : Option Nat :=
  let c := le b 4 2
  let slot := le b 6 2
  (([(le b 0 4 == 0x444D4353, 0), (1 ≤ c && c ≤ 5, 4), (if c ≤ 2 then 1 ≤ slot && slot ≤ 4 else slot == 0, 6),
    (c == 1 || allZero (sub b 24 48), 24), (allZero (sub b 72 56), 72), (allZero (sub b 130 6), 130), (allZero (sub b 233 7), 233)] :
      List Cond).find? (fun c => !c.1)).map (·.2)

/-- Check 4: the kinds of key that may sign command c in lifecycle state lc (R408). -/
def secAllowed (lc c slot kind : Nat) : Bool :=
  let owner := 1 ≤ kind && kind ≤ 4
  match c with
  | 1 => if lc = 0 then kind == 0 && slot == 1 else lc != 3 && owner
  | 2 => (lc == 1 || lc == 2) && owner && kind != slot
  | 3 => lc == 1 && owner
  | 4 => (lc == 1 || lc == 2) && owner
  | _ => if lc = 1 then kind ≤ 4 else if lc = 2 then owner else kind == 0

/-- Check 6: the command's condition on the state (R409, R410). -/
def State.secState (s : State) (c slot : Nat) : Bool :=
  match c with
  | 1 => !s.on (F.SEC_OWNER_registered slot) && !s.on (F.SEC_OWNER_revoked slot)
  | 3 => (s.stow.inForce.all (fun i => i.keyKind != 0)) && s.stow.staged.all (fun i => i.keyKind != 0)
  | 4 => s.noBayHeld && s.snapState == 0
  | _ => true

/-- Check 7: a fuse remains (R413). A revoke bit that is burnt has none left (log 43). -/
def State.secFuse (s : State) (c slot : Nat) : Bool :=
  match c with
  | 2 => !s.on (F.SEC_OWNER_revoked slot)
  | 5 => s.lifecycle != 2 || s.rd F.SEC_FUSE_debug_opens < 255
  | _ => true

/-- The checks of R408 in order: the code and the offset of the first failure. -/
def State.secCheck (s : State) (bank : Nat) (b : List Byte) : Option (Nat × Nat) :=
  let c := le b 4 2
  let slot := le b 6 2
  let kind := le b 128 2
  let key := sub b 136 97
  match secForm b with
  | some o => some (1, o)
  | none =>
    if le b 8 8 ≠ s.sec.uid then some (2, 0)
    else if le b 16 8 ≠ s.rd (F.SEC_NONCE_nonce bank) then some (3, 0)
    else if !(secAllowed s.lifecycle c slot kind && s.keyIs kind key) then some (4, 0)
    else if !signedBy key (sub b 240 96) (b.take 128) then some (5, 0)
    else if !s.secState c slot then some (6, 0)
    else if !s.secFuse c slot then some (8, 0)
    else none

/-- The result of a SUBMIT. -/
def State.secResult (s : State) (bank code off : Nat) : State :=
  s.wrs [(F.SEC_CMD_RESULT_code bank, code), (F.SEC_CMD_RESULT_done bank, 1), (F.SEC_CMD_RESULT_offset bank, off)]

/-- A bank's nonce drawn anew (R408). -/
def State.newNonce (s : State) (bank : Nat) : State := s.draw.2.wr (F.SEC_NONCE_nonce bank) (Config.freeNonce s.free).toNat

/-- The debug state returns to CLOSED (R413); debug grants and the test chain fall with it (R415). -/
def State.debugClose (s : State) : State := (s.wr F.SEC_STATUS_debug 0).tapReset

/-- A lifecycle transition: its fuse bit is burnt (R409). -/
def State.lifecycleTo (s : State) (l : Nat) : State := (s.wr F.SEC_STATUS_lifecycle l).sends (.fuse 0 l)

/-- The row stands for a SUBMIT of bank b's command: the buffer holds the row's code, or one that is no command's. -/
def State.secFits (s : State) (bank c : Nat) : Bool :=
  let k := le (s.secBytes bank) 4 2
  k == c || !(1 ≤ k && k ≤ 5)

/-- Another bank's command is being checked (R408). -/
def State.secChecking (s : State) (bank : Nat) : Bool := s.sec.checking.any (fun c => c.1 != bank && decide (s.time < c.2))

/-- The check of bank b's command begins: it takes a free time of at most 2 ms (R408), while the result and the effect are there at once
(DESIGN CHOICE, log 116). -/
def State.secBegin (s : State) (bank : Nat) : State :=
  let t := s.time + Config.freeChoice s.free % (2 * msCycles + 1)
  let s1 := s.draw.2
  { s1 with sec := { s1.sec with checking := some (bank, t) } }

/-- SUBMIT by master m of a command with code c, whose effect is f on its bytes (R408). -/
def State.submit (s : State) (m : Master) (c : Nat) (f : State → List Byte → State) : State :=
  let bank := (bankOfMaster m).getD 0
  if !s.secFits bank c then s
  else
    s.guarded m (secCtrl bank) (fun a =>
      if !a.secReady || a.secChecking bank then a.secResult bank 7 0
      else
        let b := a.secBytes bank
        let c := a.secBegin bank
        match a.secCheck bank b with
        | some e => (c.secResult bank e.1 e.2).newNonce bank
        | none => f ((c.secResult bank 0 0).newNonce bank) b)

/-- OWNER_REGISTER: the hash enters the empty slot (R410); in BLANK the device becomes PROVISIONED (R409). -/
def State.ownerRegister (s : State) (b : List Byte) : State :=
  let slot := le b 6 2
  let s1 := { s with sec := { s.sec with owners := kput s.sec.owners slot (beNat (sub b 24 48)) } }
  let s2 := (s1.wrs [(F.SEC_OWNER_registered slot, 1), (F.SEC_OWNER_hash_low slot, le b 24 7)]).sends (.fuse slot (beNat (sub b 24 48)))
  if s.lifecycle = 0 then s2.lifecycleTo 1 else s2

def execOwnerRegister (m : Master) (s : State) : Res := ok (s.submit m 1 State.ownerRegister)

/-- A slot's revoke bit burnt (R410). -/
def State.revokeSlot (s : State) (slot : Nat) : State := (s.wr (F.SEC_OWNER_revoked slot) 1).sends (.fuse (slot + 4) 1)

/-- OWNER_REVOKE. -/
def execOwnerRevoke (m : Master) (s : State) : Res := ok (s.submit m 2 (fun a b => a.revokeSlot (le b 6 2)))

/-- DEPLOY: DEPLOYED, debug CLOSED (R409, R413). -/
def execDeploy (m : Master) (s : State) : Res := ok (s.submit m 3 (fun a _ => (a.lifecycleTo 2).debugClose))

/-- What RETURN erases from the settings area, and the owner slots it revokes, empty ones too; its cold start keeps the site states (R411). -/
def State.returned (s : State) : State :=
  let s1 := (s.lifecycleTo 3).debugClose.forEach ([1, 2, 3, 4].filter (fun k => !s.on (F.SEC_OWNER_revoked k))) State.revokeSlot
  let s2 := { s1 with
    stow := { s1.stow with inForce := none, staged := none, copyOp := none, floor := 0 }
    fw := { s1.fw with settings := kdel (kdel s1.fw.settings 1) 2 }
    snap := { s1.snap with newest := none }
    pwr := { s1.pwr with sitesKept := true } }
  s2.setRegs (rput (rput s2.regs 0x520 0) 0x528 0)

/-- RETURN: RETURNED, then a cold start at once (R409, R411). -/
def execReturnCmd (m : Master) (i : StartIn) (s : State) : Res := ok (s.submit m 4 (fun a _ => a.returned.startIf false i))

/-- DEBUG_UNLOCK: AUTH_OPEN, with the signer's kind; in DEPLOYED one fuse burns (R413). -/
def State.debugUnlock (s : State) (b : List Byte) : State :=
  let s1 := s.wrs [(F.SEC_STATUS_debug, 1), (F.SEC_STATUS_debug_key, le b 128 2)]
  if s.lifecycle = 2 then (s1.bump F.SEC_FUSE_debug_opens).sends (.fuse 10 (s.rd F.SEC_FUSE_debug_opens + 1)) else s1

def execDebugUnlock (m : Master) (s : State) : Res := ok (s.submit m 5 State.debugUnlock)

/-- CLOSE (R413). -/
def execClose (m : Master) (s : State) : Res :=
  ok (s.guarded m (secCtrl ((bankOfMaster m).getD 0)) State.debugClose)

/-! The SPDM responder (R417). The layout of the messages is that of SPDM 1.3 (PRESUMED, log 44). -/

def spdmVersion : Byte := 0x13

/-- ERROR with a code and its data. -/
def spdmError (code data : Nat) : List Byte := [spdmVersion, 0x7F, BitVec.ofNat 8 code, BitVec.ofNat 8 data]

/-- A request reaches the responder over the link's DOE mailbox: Busy (3) until secure boot completes and during a service pause. -/
def State.spdm (s : State) (f : State → State × List Byte) : State :=
  if !s.linkUp || s.dark then s
  else if !s.secReady then s.sends (.spdm (spdmError 3 0))
  else (f s).1.sends (.spdm (f s).2)

/-- An answer that draws nothing. -/
def State.spdmPlain (s : State) (f : State → List Byte) : State := s.spdm (fun a => (a, f a))

/-- Digest of the boot image in force. -/
def State.bootDigest (s : State) : List Byte := sha384 s.sec.bootImage

/-- The certificate chain of slot 0. -/
def State.chainBytes (s : State) : List Byte := Config.certificateChain s.sec.secretId s.bootDigest

/-- GET_VERSION: version 1.3. -/
def execGetVersion (s : State) : Res := ok (s.spdmPlain (fun _ => [0x10, 0x04, 0, 0, 0, 1, 0, 0x13]))

/-- GET_CAPABILITIES: CERT_CAP, CHAL_CAP, MEAS_CAP with signature. The transfer sizes are not given: free. -/
def execGetCapabilities (s : State) : Res :=
  ok (s.spdmPlain (fun _ => [spdmVersion, 0x61, 0, 0, 0, Config.spdmExponent, 0, 0] ++ leBytes 4 0x16 ++ leBytes 8 Config.spdmSizes.toNat))

/-- NEGOTIATE_ALGORITHMS: ECDSA P-384, SHA-384, DMTF measurements. -/
def execNegotiateAlgorithms (s : State) : Res :=
  ok (s.spdmPlain (fun _ => [spdmVersion, 0x63, 0, 0] ++ leBytes 2 36 ++ [1, 0] ++ leBytes 4 4 ++ leBytes 4 0x80 ++ leBytes 4 2 ++ leBytes 16 0))

/-- GET_DIGESTS: the digest of slot 0's chain. -/
def execGetDigests (s : State) : Res := ok (s.spdmPlain (fun a => [spdmVersion, 0x01, 1, 1] ++ sha384 a.chainBytes))

/-- GET_CERTIFICATE: a portion of slot 0's chain; another slot or an offset past its end is InvalidRequest (1). -/
def execGetCertificate (slot : Byte) (offset length : BitVec 16) (s : State) : Res :=
  ok (s.spdmPlain (fun a =>
    let c := a.chainBytes
    if slot ≠ 0 ∨ c.length ≤ offset.toNat then spdmError 1 0
    else
      let p := sub c offset.toNat length.toNat
      [spdmVersion, 0x02, slot, 0] ++ leBytes 2 p.length ++ leBytes 2 (c.length - offset.toNat - p.length) ++ p))

/-- A response with a nonce of the entropy source, what follows it, and the requester's context; when `signed` is asked for, the attestation key's
signature, which covers the request's nonce, the response and the boot image that the key is derived from (R405). -/
def State.signedAnswer (s : State) (reqNonce head mid : List Byte) (ctx : Dword) (signed : Bool) : State × List Byte :=
  let n := (List.range 32).map (Config.freeByte s.free)
  let b := head ++ n ++ mid ++ leBytes 2 0 ++ leBytes 8 ctx.toNat
  (s.draw.2, b ++ (if signed then Config.deviceSign s.sec.secretId (s.bootDigest ++ reqNonce ++ b) else []))

/-- The content of measurement block k. -/
def State.measurement (s : State) (k : Nat) : List Byte :=
  match k with
  | 1 => leBytes 8 Config.bootRomVersion.toNat
  | 2 => s.bootDigest
  | 3 => leBytes 1 (s.rd F.SEC_FUSE_image_svn) ++ leBytes 1 (s.rd F.SEC_FUSE_svn)
  | 4 => (s.stow.inForce.map (·.digest)).getD (List.replicate 48 0)
  | 5 => [BitVec.ofNat 8 s.lifecycle, BitVec.ofNat 8 (s.rd F.SEC_STATUS_debug), BitVec.ofNat 8 (s.rd F.SEC_STATUS_debug_key),
          BitVec.ofNat 8 (s.rd F.SEC_FUSE_debug_opens)]
  | 6 => rgetBytes s.regs 0x100 11 ++ rgetBytes s.regs 0x160 1
  | _ => ([1, 2, 3, 4].map (fun k => beBytes 48 (kget s.sec.owners k 0) ++ [BitVec.ofNat 8 (s.rd (F.SEC_OWNER_revoked k))])).flatten

/-- Block k with its DMTF head: index, specification, size, value type (bit 7 raw) and value size. -/
def State.measBlock (s : State) (k : Nat) : List Byte :=
  let v := s.measurement k
  let kind : Nat := if k = 2 ∨ k = 4 then k - 1 else 0x80 + (k - 1)
  leBytes 1 k ++ [1] ++ leBytes 2 (v.length + 3) ++ leBytes 1 kind ++ leBytes 2 v.length ++ v

/-- The summary that a CHALLENGE asks for: 0 none, 0xFF of every block, 1 of those of the trusted computing base, the boot ROM, the boot image and the
security versions (PRESUMED, log 44). -/
def State.measSummary (s : State) (kind : Byte) : Option (List Byte) :=
  if kind = 0 then some []
  else if kind = 1 then some (sha384 (([1, 2, 3].map s.measBlock).flatten))
  else if kind = 255 then some (sha384 ((List.range' 1 7).map s.measBlock).flatten)
  else none

/-- CHALLENGE of slot 0, with the summary of measurements that it asks for. -/
def execChallenge (slot : Byte) (nonce : List Byte) (s : State) (summary : Byte := 0) (ctx : Dword := 0) : Res :=
  ok (s.spdm (fun a =>
    match a.measSummary summary with
    | none => (a, spdmError 1 0)
    | some h =>
      if slot ≠ 0 then (a, spdmError 1 0)
      else a.signedAnswer nonce ([spdmVersion, 0x03, slot, 1] ++ sha384 a.chainBytes) h ctx true))

/-- GET_MEASUREMENTS: index 0 the number of blocks, 1 to 7 a block, 0xFF all seven; all read at once. It asks for a signature or not. -/
def execGetMeasurements (index : Byte) (nonce : List Byte) (s : State) (ctx : Dword := 0) (signed : Bool := true) : Res :=
  let i := index.toNat
  ok (s.spdm (fun a =>
    if 7 < i ∧ i < 255 then (a, spdmError 1 0)
    else
      let l := if i = 0 then [] else if i = 255 then List.range' 1 7 else [i]
      let r := (l.map a.measBlock).flatten
      a.signedAnswer nonce ([spdmVersion, 0x60, if i = 0 then 7 else 0, 0] ++ leBytes 1 l.length ++ leBytes 3 r.length ++ r) [] ctx signed))

/-- Any other request: ERROR UnsupportedRequest (7). -/
def execSpdmUnsupported (code : Byte) (s : State) : Res := ok (s.spdmPlain (fun _ => spdmError 7 code.toNat))

end Sys2Proof.Machine
end

