-- ==== Sys2Proof/Machine/Firmware.lean ====
section
/-! DEFINITION. Firmware update (21): preparing, staging and relaying an image, activation, trial and fallback. -/

namespace Sys2Proof.Machine

/-- The window offset of HUB_FW_CTRL. -/
def fwCtrl : Nat := 0x718

def State.fwState (s : State) : Nat := s.rd F.HUB_FW_STATUS_state
def State.fwSet (s : State) (st : Nat) : State := s.wr F.HUB_FW_STATUS_state st

/-- The inactive bank. -/
def State.fwInactive (s : State) : Nat := 1 - s.bootRecord 13

/-- An operation not listed for the state (R443): FW_STATE. -/
def State.fwRefuse (s : State) : State := s.fwFail 9

/-- FAILED with a code. -/
def State.fwFailed (s : State) (code : Nat) : State :=
  (({ s with fw := { s.fw with chunks := [], toSend := [], sent := [] } } : State).fwSet 7).fwFail code

/-- FW_PREPARE: the inactive bank is erased and marked unverified (R440). -/
def execFwPrepare (m : Master) (s : State) : Res :=
  ok (s.guarded m fwCtrl (fun a =>
    if a.fwState = 0 ∨ a.fwState = 7 then
      let b := (a.setBank a.fwInactive {}).setBootRecord (10 + a.fwInactive) 0
      { b with fw := { b.fw with preparing := true, sent := [] } }
    else a.fwRefuse))

/-- FW_PREPARE_DONE: READY. -/
def execFwPrepareDone (s : State) : Res :=
  if s.fw.preparing = true ∧ (s.fwState = 0 ∨ s.fwState = 7) then ok (({ s with fw := { s.fw with preparing := false } } : State).fwSet 1) else ok s

/-! The relay (R441, R442). -/

/-- The tag of a RELAY's acknowledgement names its chunk. -/
def relayTag (i : Nat) : Nat := 2 ^ 23 + i

/-- A RELAY of chunk i of the bank to next. -/
def State.relayPacket (s : State) (i : Nat) : List Byte :=
  mkPacket 7 1 s.devId (s.rd F.HUB_FW_RELAY_next) 0x7FF (relayTag i)
    (leBytes 4 i ++ leBytes 4 s.fw.count ++ leBytes 8 s.fw.id) ((s.bank s.fwInactive).read (4096 * i) 4096)

/-- Chunks go on to next, at most four unacknowledged; none where next is 0xFFFF, in RECOVERY (R448), or after the relay failed. -/
def State.relayGo (s : State) : Nat → State
  | 0 => s
  | f + 1 =>
    match s.fw.toSend with
    | [] => s
    | i :: l =>
      if s.rd F.HUB_FW_RELAY_next = 0xFFFF ∨ s.fw.relayOff = true ∨ s.rd F.PWR_STATUS_state = 3 then { s with fw := { s.fw with toSend := [] } }
      else if 4 ≤ s.fw.sent.length then s
      else ((({ s with fw := { s.fw with toSend := l, sent := s.fw.sent ++ [(i, 0, s.time)] } } : State)).sendPkt (s.relayPacket i)).relayGo f

/-- Reception begins: RECEIVING with an identifier, a chunk count and, on the origin, a length. HUB_FW_PROGRESS shows 13 bits of the count. -/
def State.fwReceive (s : State) (id count : Nat) (len : Option Nat) : State :=
  ({ s with fw := { s.fw with id := id, count := count, len := len, done := [], toSend := [], sent := [], relayOff := false, chunks := [] } } : State).wrs
    [(F.HUB_FW_STATUS_state, 2), (F.HUB_FW_PROGRESS_chunks, count), (F.HUB_FW_PROGRESS_programmed, 0), (F.HUB_FW_PROGRESS_forwarded, 0),
     (F.HUB_FW_IMAGE_id, id)]

/-- The received length that check 1 compares: on a relayed image any that the chunk count fits (R439). -/
def State.fwLength (s : State) : Option Nat :=
  match s.fw.len with
  | some l => some l
  | none =>
    let n := le ((s.bank s.fwInactive).read 16 4) 0 4
    if (n + 4095) / 4096 = s.fw.count then none else some 0

/-- Every chunk is programmed: the bank is verified (R443); in RECOVERY it becomes active without a trial (R448). -/
def State.fwCheck (s : State) : State :=
  let k := s.fwInactive
  match s.fwVerify (s.bank k) s.fwLength (some s.fw.id) with
  | some c => s.fwFailed c
  | none =>
    let s1 := (s.setBootRecord (10 + k) 1).fwSet 3
    if s.rd F.PWR_STATUS_state = 3 then (s1.setBootRecord 13 k).wr F.HUB_FW_STATUS_active_bank k else s1

/-- Chunks of an image, the last padded with zeros. -/
def cutChunks : Nat → Nat → List Byte → List (Nat × List Byte × Option (Nat × Nat × Nat))
  | 0, _, _ => []
  | f + 1, i, b => if b.isEmpty then [] else (i, b.take 4096 ++ List.replicate (4096 - b.length) 0, none) :: cutChunks f (i + 1) (b.drop 4096)

/-- FW_STAGE: the origin reads the image and programs it chunk by chunk (R441). A source that cannot be read is FW_FLASH (log 46). `ext`: what
a source outside this device's memory gives. -/
def execFwStage (m : Master) (errs : List BurstErr) (s : State) (ext : Option (List Byte) := none) : Res :=
  ok (s.guarded m fwCtrl (fun a =>
    if a.fwState ≠ 1 then a.fwRefuse
    else
      let n := a.rd F.HUB_FW_LEN_length
      match a.hubRead 0 (a.rd F.HUB_FW_SRC_addr) n ext errs with
      | (b, none) => b.fwFailed 7
      | (b, some d) =>
        let c := b.fwReceive (leNat ((sha384 d).take 8)) ((n + 4095) / 4096) (some n)
        if n = 0 then c.fwCheck else { c with fw := { c.fw with chunks := cutChunks (n / 4096 + 1) 0 d } }))

/-- A RELAY answered with a LAND_ACK (R441, R442). -/
def State.relayAnswer (s : State) (src tile tag : Nat) (st : Status) : State :=
  s.sendPkt (ackPacket s.devId src tile tag (tag / 2 ^ 24) st 0xFF (if st = .ok then 4096 else 0))

/-- FW_CHUNK_PROGRAMMED: the chunk at hand is programmed and read back equal, sent on and acknowledged; after the last the bank is verified
(R441, R443). -/
def execFwChunkProgrammed (ok_ : Bool) (s : State) : Res :=
  match s.fw.chunks with
  | [] => ok s
  | (i, d, from_) :: l =>
    if s.fwState ≠ 2 then ok s
    else if !ok_ then ok (s.fwFailed 7)
    else
      let k := s.fwInactive
      let s1 := (s.setBank k ((s.bank k).write (4096 * i) d)).sends (.flash k (4096 * i) d)
      let done := s1.fw.done ++ [i]
      let s2 := ({ s1 with fw := { s1.fw with chunks := l, done := done, toSend := s1.fw.toSend ++ [i] } } : State).wr
        F.HUB_FW_PROGRESS_programmed done.length
      let s3 := s2.relayGo 4
      let s4 := match from_ with
        | some e => s3.relayAnswer e.1 e.2.1 e.2.2 .ok
        | none => s3
      ok (if done.length = s.fw.count then s4.fwCheck else s4)

/-- RELAY: a chunk arrives and is programmed, acknowledged again, or refused (R442; 15 R331, R339, R340). The LAND_ACK that answers another
copy of a chunk still being programmed is that chunk's. -/
def execRelay (src : BitVec 16) (tile : BitVec 11) (tag : Word) (index count : Word) (id : Dword) (data : List Byte) (s : State) : Res :=
  let d := src.toNat
  let i := index.toNat
  if s.dark then ok s
  else if s.shuns d then ok ((s.bump F.HUB_GRP_COUNTS_fenced_drops).relayAnswer d tile.toNat tag.toNat .dropped)
  else if !s.image.members.contains d then ok (s.bump F.HUB_GRP_COUNTS_foreign)
  else
    let starts := s.fwState == 1
    if d ≠ s.rd F.HUB_FW_RELAY_prev ∨ (s.fwState ≠ 1 ∧ s.fwState ≠ 2) ∨
        (s.fwState = 2 ∧ (id.toNat ≠ s.fw.id ∨ count.toNat ≠ s.fw.count)) ∨ count.toNat ≤ i then
      ok ((s.bump F.HUB_FW_PROGRESS_refused).relayAnswer d tile.toNat tag.toNat .dropped)
    else
      let s1 := if starts then s.fwReceive id.toNat count.toNat none else s
      if s1.fw.done.contains i then ok (s1.relayAnswer d tile.toNat tag.toNat .ok)
      else if s1.fw.chunks.any (fun e => e.1 == i) then ok s1
      else ok { s1 with fw := { s1.fw with chunks := s1.fw.chunks ++ [(i, data, some (d, tile.toNat, tag.toNat))] } }

/-- The relay to next is given up (R441). -/
def State.relayFail (s : State) : State :=
  ({ s with fw := { s.fw with toSend := [], sent := [], relayOff := true } } : State).wr F.HUB_FW_STATUS_relay_fail 1

/-- An acknowledgement of chunk i (R441): counted when OK; another status leaves the chunk to its resend. -/
def State.relayAcked (s : State) (i : Nat) (st : Status) : State :=
  if st = .ok ∧ s.fw.sent.any (fun e => e.1 == i) = true then
    (({ s with fw := { s.fw with sent := s.fw.sent.filter (fun e => e.1 != i) } } : State).bump F.HUB_FW_PROGRESS_forwarded).relayGo 4
  else s

/-- FW_RELAY_RETRY: the oldest chunk not acknowledged within 1 ms is sent again, at most eight times (R441). -/
def execFwRelayRetry (s : State) : Res :=
  match s.fw.sent with
  | [] => ok s
  | (i, n, _) :: l =>
    if 8 ≤ n then ok s.relayFail
    else ok (({ s with fw := { s.fw with sent := l ++ [(i, n + 1, s.time)] } } : State).sendPkt (s.relayPacket i))

/-- FW_RELAY_STALL: RECEIVING without a new chunk for 1 s (R443). -/
def execFwRelayStall (s : State) : Res := ok (if s.fwState = 2 then s.fwFailed 8 else s)

/-- FW_RELAY_AGAIN: a VERIFIED device sends its bank to next again (R441). -/
def execFwRelayAgain (m : Master) (s : State) : Res :=
  ok (s.guarded m fwCtrl (fun a =>
    if a.fwState = 3 ∧ a.rd F.PWR_STATUS_state ≠ 3 then
      let b := bootBytes (a.bank a.fwInactive)
      let n := (b.length + 4095) / 4096
      (({ a with fw := { a.fw with id := leNat ((sha384 b).take 8), count := n, toSend := List.range n, sent := [], relayOff := false } } : State).wrs
        [(F.HUB_FW_PROGRESS_chunks, n), (F.HUB_FW_PROGRESS_forwarded, 0)]).relayGo 4
    else a.fwRefuse))

/-! Activation (R443 to R446). -/

/-- FW_SCHEDULE: FW_ACTIVATE enters the table; a tick that R57 refuses is FW_ACT_REFUSED (log 46). -/
def execFwSchedule (m : Master) (s : State) : Res :=
  ok (s.guarded m fwCtrl (fun a =>
    if a.fwState ≠ 3 ∨ a.rd F.PWR_STATUS_state = 3 then a.fwRefuse
    else
      match a.enterAct (a.rd F.HUB_FW_ACT_TN_tn) 5 a.fwInactive 3 with
      | (b, 0, _) => b.fwSet 4
      | (b, _) => b.fwFail 0x0A))

/-- FW_DISCARD: IDLE, any pending action cancelled, the bank unverified. -/
def execFwDiscard (m : Master) (s : State) : Res :=
  ok (s.guarded m fwCtrl (fun a =>
    let st := a.fwState
    if (1 ≤ st ∧ st ≤ 4) ∨ st = 7 then
      let b := (a.cancelActs (fun x => x.type == 5)).setBootRecord (10 + a.fwInactive) 0
      ({ b with fw := { b.fw with chunks := [], toSend := [], sent := [] } } : State).fwSet 0
    else a.fwRefuse))

/-- FW_ACTIVATE: the due action (R444); with its conditions met the service pause begins (R445). -/
def execFwActivate (s : State) : Res :=
  match s.takeDue 5 with
  | none => ok s
  | some (_, s1) =>
    if s1.fwState ≠ 4 then ok s1
    else if s1.snapState = 0 ∧ (s1.dumpState = 0 ∨ 4 ≤ s1.dumpState) then ok ((({ s1 with fw := { s1.fw with active := true } } : State).fwSet 5).timeAll)
    else ok ((s1.fwSet 3).fwFail 0x0A)

/-- Messages that waited for the link or a pause are sent in order (22 R452, R453). -/
def State.flushMsix (s : State) : State :=
  if s.linkUp && !s.fw.active then ({ s with pcie := { s.pcie with held := [] } } : State).sendAll (s.pcie.held.map .msix) else s

/-- Dispatch, signed commands and messages resume. -/
def State.resumeService (s : State) : State := ((({ s with fw := { s.fw with active := false } } : State).flushMsix).timeAll).launchAll

/-- FW_ACTIVATION_DONE: the pause ends (R445) with the trial bank running, or the old one when its check failed; a fallback's with the old
bank (R446). -/
def execFwActivationDone (s : State) : Res :=
  if !s.fw.active then ok s
  else if s.fwState = 5 then
    let k := s.fwInactive
    if s.bootFit (s.bank k) then
      let s1 := (s.setBootRecord 12 (k + 1)).booted k (s.bank k)
      ok (({ s1 with fw := { s1.fw with trialAt := s1.time } } : State).fwSet 6).resumeService
    else ok ((s.fwFailed 0x0B).resumeService)
  else ok ((s.booted (s.bootRecord 13) (s.bank (s.bootRecord 13))).resumeService)

/-- Fallback from TRIAL (R446): the trial bank is unverified, and the pause runs onto the old bank. -/
def State.fallback (s : State) : State :=
  let s1 := (s.setBootRecord (10 + s.fwInactive) 0).setBootRecord 12 0
  let s2 := (({ s1 with fw := { s1.fw with active := true } } : State).fwSet 0).wrs [(F.HUB_FW_STATUS_error, 0x0C), (F.HUB_FW_STATUS_fallback, 1)]
  (s2.raised .FW_FALLBACK []).timeAll

/-- FW_REJECT. -/
def execFwReject (m : Master) (s : State) : Res :=
  ok (s.guarded m fwCtrl (fun a => if a.fwState = 6 then a.fallback else a.fwRefuse))

/-- FW_TRIAL_TIMEOUT: 300 s in TRIAL. -/
def execFwTrialTimeout (s : State) : Res := ok (if s.fwState = 6 then s.fallback else s)

/-- FW_CONFIRM: the health checks pass and the trial bank becomes active; the fused version rises to the image's (R446), and the settings
are rewritten in its formats (R447). `diesAnswer`: every die answers; `probes`: every present tile's generator passes its probe (07 R157). -/
def execFwConfirm (diesAnswer : Bool) (s : State) (probes : Bool := true) : Res :=
  if s.fwState = 6 ∧ diesAnswer = true ∧ probes = true ∧ (s.rd F.TB_STATUS_state = 2 ∨ s.rd F.TB_STATUS_state = 4) then
    let k := s.fwInactive
    let v := s.rd F.SEC_FUSE_image_svn
    let s1 := ((s.setBootRecord 13 k).setBootRecord 12 0).forEach [0, 1, 2] State.ownFormat
    let s2 := (s1.wr F.HUB_FW_STATUS_active_bank k).fwSet 0
    ok (if s.rd F.SEC_FUSE_svn < v then (s2.wr F.SEC_FUSE_svn v).sends (.fuse 9 v) else s2)
  else ok s

end Sys2Proof.Machine
end

