-- ==== Sys2Proof/Machine/Package.lean ====
section
/-! DEFINITION. The package (01): die bridges (R15 to R19, 17 R380), optical engines and the firewall (R20, R21), the test access port
(R24, R25). Bundles are numbered as the byte counters of 20 R434 number them (log 17). -/

namespace Sys2Proof.Machine

/-! Die bridges. -/

/-- A NAK that carries the failed number in its ack field, and the sender's next number, which it does not use up: it is not kept and not
resent (DESIGN CHOICE, logs 17 and 99: the spec numbers idle flits and says nothing of a NAK's own number). -/
def State.bridgeNak (s : State) (b n : Nat) : State :=
  (s.sends (.bridgeFlit (opposite b) (bridgeFlitBytes (s.bundle b).nextSeq n 3 0 0 []))).logs .BRIDGE_NAK [b, n]

/-- A record of the die-bridge class (17 R367 class 10, or ageing): kind 0 down, 4 half width, 5 lane marked, 8 corrected flit. -/
def State.bridgeRecord (s : State) (sev cls kind b : Nat) : State :=
  s.record { sev := sev, cls := cls, kind := kind, die := (bundleDies b).headD 8, addr := 0, detail := leBytes 2 b }

/-- The mesh flits that end `b` has waiting or sent and that its far end has not accepted. -/
def State.bridgeLeft (s : State) (b : Nat) : List MeshFlit :=
  (((s.bundle b).sent.dropWhile (·.1 != (s.bundle (opposite b)).expect)).filterMap (·.2.2)) ++ (s.bundle b).held

/-- What end `b` of a die bridge that went down has left takes the hub's route from the die it is on (10 R226). A hub bundle has no other
way: its flits stay. -/
def State.bridgeTurn (s : State) (b : Nat) : State :=
  if b < 120 then
    (s.bridgeLeft b).foldl (fun a m => a.meshGo (bundleFrom (opposite b)) m) (s.setBundle b { s.bundle b with held := [], sent := [] })
  else s

/-- BRIDGE_DOWN (01 R18): down until the next warm start; UNCONTAINED; every bay on either die stops. -/
def State.bridgeDown (s : State) (b : Nat) : State :=
  let s1 := (s.setBundle b { s.bundle b with down := true, training := false }).raised .BRIDGE_DOWN [b]
  (((s1.bridgeRecord 3 10 0 b).stopDies (bundleDies b)).bridgeTurn b).bridgeTurn (opposite b)

/-- A retrain begins, or, after two, the bundle goes down (01 R18); one that is in progress goes on. The two are counted from the last start,
for each direction apart, and a retrain that succeeds does not set the count back (DESIGN CHOICE, log 100). -/
def State.bridgeRetrain (s : State) (b : Nat) : State :=
  let x := s.bundle b
  if x.training || x.down then s
  else if 2 ≤ x.retrains then s.bridgeDown b
  else (s.setBundle b { x with retrains := x.retrains + 1, training := true, fails := 0 }).logs .BRIDGE_RETRAIN [b]

/-- How many bits of lane `n` differ between two flits (01 R15: lane n carries bits 32n to 32n + 31). At half width too a bit is charged to that
lane (DESIGN CHOICE, log 119: the spec places bits on lanes at full width only). -/
def laneDiff (f g : List Byte) (n : Nat) : Nat :=
  ((List.range 4).map (fun i =>
    let d := (f.getD (4 * n + i) 0) ^^^ (g.getD (4 * n + i) 0)
    ((List.range 8).filter (fun k => d.getLsbD k)).length)).foldl (· + ·) 0

/-- A lane is marked bad (01 R19, 17 R380, R381). With lane_live a spare takes it over, announced by a retrain request that names the lane in
its first payload byte (DESIGN CHOICE, log 99). From the third mark on the bundle runs at half width, on the half that holds no bad lane; when
both hold one, R18 applies. A lane that a spare replaces counts as a bad lane of its half still (DESIGN CHOICE, log 119). -/
def State.markBridgeLane (s : State) (b n : Nat) : State :=
  let x := s.bundle b
  let bad := x.bad ++ [n]
  let live := s.on F.HUB_PKG_CAP_lane_live && x.spares.length < 2
  let y := { x with bad := bad, spares := if live then x.spares ++ [n] else x.spares,
                    retries := if live then x.retries.map (fun l => l.filter (· != n)) else x.retries,
                    bits := if live then x.bits.filter (fun e => e.2.1 != n) else x.bits }
  let s1 := ((s.setBundle b y).logs .BRIDGE_LANE_BAD [b, n])
  let s2 := if live then (s1.setBundle b { s1.bundle b with asks := (s1.bundle b).asks ++ [n] }).bridgePump b else s1
  let low := bad.any (· < 32)
  let high := bad.any (32 ≤ ·)
  if bad.length < 3 then s2
  else if low && high then s2.bridgeRetrain b
  else if x.half.isSome then s2
  else ((s2.setBundle b { s2.bundle b with half := some low }).raised .BRIDGE_HALF_WIDTH [b]).bridgeRecord 1 0x11 4 b

/-- The failed copies of a flit compared with the good one: lanes charged, and those past a threshold marked (01 R19). -/
def State.chargeLanes (s : State) (b : Nat) (good : List Byte) : State :=
  let x := s.bundle b
  let per := x.failed.map (fun f => (List.range 64).filterMap (fun n => if laneDiff f good n = 0 then none else some (n, laneDiff f good n)))
  let retries := (x.retries ++ per.map (fun l => l.map (·.1)))
  let retries := retries.drop (retries.length - 16)
  let bits := (x.bits ++ per.flatten.map (fun e => (s.time, e.1, e.2))).filter (fun e => s.time - e.1 < 1000 * msCycles)
  let many := (List.range 64).filter (fun n =>
    (4 ≤ (retries.filter (fun l => l.contains n)).length || 64 < ((bits.filter (fun e => e.2.1 == n)).map (·.2.2)).foldl (· + ·) 0)
      && (!x.bad.contains n || (x.spares.contains n && (x.bad.filter (· == n)).length == 1)))
  (s.setBundle b { x with retries := retries, bits := bits, failed := [] }).forEach many (fun a n => a.markBridgeLane b n)

/-- A failing flit (01 R17, R18): dropped, one NAK for the failed number; the eighth failure in a row retrains. -/
def State.bridgeFail (s : State) (b : Nat) (flit : List Byte) : State :=
  let x := s.bundle b
  let y := { x with failing := some x.expect, failed := x.failed ++ [flit], fails := x.fails + 1 }
  let s1 := ((s.setBundle b y).bridgeRecord 1 10 8 b)
  if 8 ≤ y.fails then s1.bridgeRetrain b else s1.bridgeNak b x.expect

/-- What any flit of the far side brings but its payload (01 R16): the credits of its channel. -/
def Bundle.credited (x : Bundle) (flit : List Byte) : Bundle :=
  let vc := le flit 2 1 / 16
  { x with credits := kput x.credits vc (x.credit vc + le flit 3 1) }

/-- The end with every flit up to the acknowledged number gone from its store. -/
def Bundle.acknowledged (x : Bundle) (n : Nat) : Bundle :=
  { x with acked := n, sent := if x.sent.any (·.1 == n) then (x.sent.dropWhile (·.1 != n)).drop 1 else x.sent }

/-- A retrain request received (17 R380): with lane_live, what this end sends goes on its spare in the place of the lane that the request
names; without, or with no spare left, it is an idle flit. -/
def State.bridgeSubstitute (s : State) (b lane : Nat) : State :=
  let x := s.bundle b
  if s.on F.HUB_PKG_CAP_lane_live && x.txSpares.length < 2 && !x.txSpares.contains lane && lane < 64 then
    s.setBundle b { x with txSpares := x.txSpares ++ [lane] }
  else s

/-- The mesh flit that the far end of a direction sent under a number. -/
def State.bridgeCarried (s : State) (b seq : Nat) : Option MeshFlit :=
  ((s.bundle (opposite b)).sent.find? (·.1 == seq)).bind (·.2.2)

/-- A flit in sequence (01 R16, R17): its ack and credits are taken, a mesh flit's payload is handed on, in order and as it came, to the next
bundle of its route or within the die, and its credit returned. How many credits a mesh flit returns and in which flit the spec does not say:
one, in the next idle flit (DESIGN CHOICE, log 99). A flit of a reserved ftype is an idle flit (DESIGN CHOICE, log 120). -/
def State.bridgeAccept (s : State) (b : Nat) (flit : List Byte) : State :=
  let x := s.bundle b
  let ftype := le flit 2 1 % 16
  let vc := le flit 2 1 / 16
  let s1 := if x.failed.isEmpty then s else s.chargeLanes b flit
  let y := ((s1.bundle b).credited flit).acknowledged (le flit 1 1)
  let s2 := s1.setBundle b { y with expect := (x.expect + 1) % 256, failing := none, fails := 0 }
  let s3 :=
    if ftype = 1 ∨ ftype = 2 then
      let a := (s2.setBundle b { s2.bundle b with owed := kput (s2.bundle b).owed vc (kget (s2.bundle b).owed vc 0 + 1) }).sends
        (.bridgeData b vc (sub flit 4 248))
      match s.bridgeCarried b x.expect with
      | some m => a.meshGo (bundleTo b) { m with payload := sub flit 4 248 }
      | none => a
    else if ftype = 4 then s2.bridgeSubstitute b (le flit 4 1)
    else s2
  s3.bridgePump b

/-- BRIDGE_FLIT: a flit arrives at end `b` (01 R16 to R19). A NAK resends what the end keeps from the failed number. A good flit that is not the
expected one is dropped; when none was failing and it lies less than 128 ahead, a number was lost and a NAK asks for it, otherwise it is a
repeated one (DESIGN CHOICE, log 99: the spec speaks of CRC failures only). While a number is failing, a flit whose CRC fails is its resent
copy when its seq byte says so; any other is dropped without a NAK and not counted (DESIGN CHOICE, log 120). -/
def execBridgeFlit (b : Fin 376) (flit : List Byte) (s : State) : Res :=
  let x := s.bundle b
  let good := flit.length == 256 && le flit 252 4 == (crc32 (flit.take 252)).toNat
  let seq := le flit 0 1
  if s.bundleOut b then ok s
  else if !good then ok (if x.failing = none ∨ seq = x.expect then s.bridgeFail b flit else s)
  else if le flit 2 1 % 16 = 3 then
    let s1 := (s.setBundle b (x.credited flit)).sendAll
      ((x.sent.dropWhile (·.1 != le flit 1 1)).map (fun e => .bridgeFlit (opposite b) e.2.1))
    ok (s1.bridgePump b)
  else if seq = x.expect then ok (s.bridgeAccept b flit)
  else if x.failing ≠ none ∨ 128 ≤ (seq + 256 - x.expect) % 256 then ok s
  else ok ((s.setBundle b { x with failing := some x.expect }).bridgeNak b x.expect)

/-- What both ends of a bundle send when a retrain has succeeded: all they keep, and then what waits (01 R17, R18). -/
def State.bridgeResume (s : State) (b : Nat) : State :=
  let x := s.bundle b
  (s.sendAll (x.sent.map (fun e => .bridgeFlit (opposite b) e.2.1))).bridgePump b

/-- BRIDGE_RETRAIN_END (01 R18): the senders resend; when the second retrain fails the bundle is down. -/
def execBridgeRetrainEnd (b : Fin 376) (good : Bool) (s : State) : Res :=
  let x := s.bundle b
  if !x.training then ok s
  else if good then ok (((((s.setBundle b { x with training := false }).bridgeNak b x.expect).bridgeResume b).bridgeResume (opposite b)))
  else if 2 ≤ x.retrains then ok (s.bridgeDown b)
  else ok (s.setBundle b { x with retrains := x.retrains + 1 })

/-! Optical engines. -/

/-- The O ports of an engine. -/
def oePorts (second : Bool) : List Nat := (List.range 8).map (fun i => 16 + 8 * b2n second + i)

/-- UCIE_TRAINED: at 32 GT/s, or at 16 GT/s with UCIE_SLOW on each port (01 R20). The link of an isolated engine is held in reset and does not
train (R21). -/
def execUcieTrained (oe : Bool) (fast : Bool) (s : State) : Res :=
  if (s.oe oe).isolated then ok s else
  let s1 := s.setOe oe { s.oe oe with trained := true, slow := !fast }
  if fast then ok s1
  else ok ((s1.forEach (oePorts oe) (fun a p => a.setPort p ((a.port p).wr F.LNK_EVENT_ucie_slow 1))).raised .UCIE_SLOW [b2n oe])

/-- The device-local address of an engine's aperture (04 R69, R73). -/
def apertureBase (oe : Bool) : Nat := 0xFFFFFC000000 + 0x400000 + (if oe then 0x10000 else 0)

/-- An isolated engine: its UCIe link held in reset, its ports down (01 R21). -/
def State.isolate (s : State) (oe : Bool) : State :=
  ((s.setOe oe { s.oe oe with isolated := true, trained := false }).forEach (oePorts oe)
    (fun a p => if (a.port p).rd F.LNK_STATUS_state = 0 then a else a.portDown p)).raised .OE_ISOLATED [b2n oe]

/-- A request that the firewall drops (01 R21); the count is of one tick (`State.firewallTick`). -/
def State.firewall (s : State) (oe write : Bool) (addr n : Nat) : State :=
  let x := s.oe oe
  let s1 := (s.setOe oe { x with denials := x.denials + 1 }).logs .FIREWALL_DENIED [b2n oe, addr, b2n write]
  let s2 := if write then s1 else s1.sends (.completion .denied (allOnes n))
  if x.denials + 1 = 256 then s2.isolate oe else s2

/-- OE_REQUEST: the firewall, then the access table, then the engine's own aperture (01 R21, 04 R84). -/
def execOeRequest (oe : Bool) (write : Bool) (addr : Dword) (size : Nat) (data : List Byte) (s : State) : Res :=
  let a := addr.toNat % 2 ^ 48
  let base := apertureBase oe
  if (s.oe oe).isolated then ok s
  else if devOf addr.toNat ≠ s.devId ∨ a < base ∨ base + 0x10000 < a + size then ok (s.firewall oe write addr.toNat size)
  else
    match s.check (.oe oe) a size (if write then 2 else 1) false with
    | (s1, .ok _) =>
      let x := s1.oe oe
      if write then ok (s1.setOe oe { x with aperture := x.aperture.write (a - base) (data.take size) })
      else ok (s1.sends (.completion .ok (x.aperture.read (a - base) size)))
    | (s1, .unmapped) => ok (if write then s1 else s1.sends (.completion .unmapped (allOnes size)))
    | (s1, _) => ok (if write then s1 else s1.sends (.completion .denied (allOnes size)))

/-! The test access port. -/

/-- chain_enable (19 R416): AUTH_OPEN in ON, except in DEPLOYED. -/
def State.chainEnable (s : State) : Bool := s.debugOpen && s.pwrOn && s.rd F.SEC_STATUS_lifecycle != 2

/-- Dies on the chain and the total length of their instruction registers (01 R24). -/
def State.tapDies (s : State) : Nat := if s.on F.DBG_TAP_CHAIN_oe_bypass then 9 else 11
def State.tapBits (s : State) : Nat := if s.on F.DBG_TAP_CHAIN_oe_bypass then 72 else 82

/-- The state diagram of IEEE 1149.1 (PRESUMED, log 26). -/
def tapNext (st : TapState) (tms : Bool) : TapState :=
  match st, tms with
  | .reset, true => .reset | .reset, false => .idle
  | .idle, true => .selDr | .idle, false => .idle
  | .selDr, true => .selIr | .selDr, false => .capDr
  | .capDr, true => .ex1Dr | .capDr, false => .shDr
  | .shDr, true => .ex1Dr | .shDr, false => .shDr
  | .ex1Dr, true => .updDr | .ex1Dr, false => .pauDr
  | .pauDr, true => .ex2Dr | .pauDr, false => .pauDr
  | .ex2Dr, true => .updDr | .ex2Dr, false => .shDr
  | .updDr, true => .selDr | .updDr, false => .idle
  | .selIr, true => .reset | .selIr, false => .capIr
  | .capIr, true => .ex1Ir | .capIr, false => .shIr
  | .shIr, true => .ex1Ir | .shIr, false => .shIr
  | .ex1Ir, true => .updIr | .ex1Ir, false => .pauIr
  | .pauIr, true => .ex2Ir | .pauIr, false => .pauIr
  | .ex2Ir, true => .updIr | .ex2Ir, false => .shIr
  | .updIr, true => .selDr | .updIr, false => .idle

/-- `n` free bits (log 26). -/
def freeBits (g n : Nat) : List Bool := (List.range n).map (fun i => (Config.freeByte g i).getLsbD 0)

/-- The action of a state on a rising edge: capture, shift, update (log 26). With every instruction all ones the data path is one BYPASS
bit for each die; the data registers of other instructions are the dies' own: their bits are free, and their length, which the spec does not
give, is taken as one bit for each die too (DESIGN CHOICE, log 26). -/
def State.tapAct (s : State) (tdi : Bool) : State :=
  let t := s.pkg.tap
  let put := fun (a : State) (u : Tap) => ({ a with pkg := { a.pkg with tap := u } } : State)
  match t.st with
  | .capIr => let (g, s1) := s.draw; put s1 { t with ir := freeBits g s1.tapBits }
  | .shIr => put s { t with ir := t.ir.drop 1 ++ [tdi] }
  | .updIr => put s { t with bypass := t.ir.all (· == true) }
  | .capDr =>
    if t.bypass then put s { t with dr := List.replicate s.tapDies false }
    else let (g, s1) := s.draw; put s1 { t with dr := freeBits g s1.tapDies }
  | .shDr => put s { t with dr := t.dr.drop 1 ++ [tdi] }
  | _ => s

/-- TCK_EDGE: one edge of TCK (01 R24, R25; 19 R415). While chain_enable is 0 every test logic is held in reset, which the first edge of
either kind shows, and TDI reaches TDO through one bit; TDO changes on the falling edge. -/
def execTckEdge (rising tms tdi : Bool) (s : State) : Res :=
  let t := s.pkg.tap
  if !s.chainEnable then
    let s1 := s.tapReset
    if rising then ok { s1 with pkg := { s1.pkg with tap := { s1.pkg.tap with last := tdi } } }
    else ok (s1.sends (.tdo t.last))
  else if rising then
    let s1 := s.tapAct tdi
    ok { s1 with pkg := { s1.pkg with tap := { s1.pkg.tap with st := tapNext t.st tms, last := tdi } } }
  else
    match t.st with
    | .shIr => ok (s.sends (.tdo (t.ir.headD false)))
    | .shDr => ok (s.sends (.tdo (t.dr.headD false)))
    | _ => ok s

end Sys2Proof.Machine
end

