-- ==== Sys2Proof/Machine/RegView.lean ====
section
/-! DEFINITION. What a register reads as: the stored word, and the fields that follow the time or other state (00 R7, R9). -/

namespace Sys2Proof.Machine

/-- The rights that HUB_ACC_QUERY shows for a pair (04): perms, fixed, recorded and partial. A fixed grant that covers part of a target
counts where it covers something: a bay's own TILE_ pages, an engine's own aperture. -/
def State.accQuery (s : State) (target master : Nat) : Nat × Bool × Bool × Bool :=
  let rec_ := s.image.access.any (fun r => r.target == target && r.master == master)
  let bayHas := fun (b : Nat) => (s.bayTiles b).any s.present
  let known := targetOk target
  let open_ := s.debugGrants
  let fix : Nat × Bool :=
    if !known then (0, false)
    else if master = 1 then (3, false)
    else if master = 0 then (if 0x2000 ≤ target && target ≤ 0x200A && target != 0x2005 then (3, false) else (0, false))
    else if master = 2 then (if open_ && target = 0x2005 then (3, false) else (0, false))
    else if master = 0x10 ∨ master = 0x11 then (if target = 0x2008 then (3, true) else (0, false))
    else if 0x100 ≤ master ∧ master < 0x140 then
      let b := master - 0x100
      if 0x1000 ≤ target ∧ target < 0x14B0 then (if s.bayOf (target - 0x1000) = some b then (3, false) else (0, false))
      else if target = 0x200A ∧ bayHas b = true then (3, true)
      else (0, false)
    else (0, false)
  let perms := fix.1 ||| (if master = 2 ∧ open_ = false then 0 else s.image.recorded target master)
  (perms, fix.1 != 0, rec_, fix.2)

/-- Whether loft requests are outstanding (10 HUB_LOFT_STATUS). -/
def State.loftActive (s : State) : Bool :=
  s.tiles.any (fun e => e.2.stores.any (fun w => !w.signal && s.isLoft w.addr) || e.2.reqs.any (fun r => s.isLoft r.addr))

/-- Milliseconds of a queue's timer (13 R287). -/
def State.timerMs (s : State) (x : Queue) : Nat :=
  min ((x.timerAcc + (match x.timerAt with | some t => s.time - t | none => 0)) / msCycles) 0xFFFFFFFF

/-- Dies C0 to C7 that answered at fuse read (01 DBG_TAP_CHAIN): their capability word is there (DEDUCED, log 47). -/
def State.diePresent (s : State) : Nat := (List.range 8).foldl (fun v d => v + b2n (rget s.regs (0x108 + 8 * d) != 0) * 2 ^ d) 0

/-- A hub-side register as it reads. -/
def State.hubView (s : State) (m : Master) (o : Nat) : Dword :=
  let w := rget s.regs (hubKey m o)
  if o = 0x310 then putBits w 0 1 (b2n s.loftActive)
  else if o = 0x728 then (if s.fwState = 6 then putBits w 32 9 (min ((s.time - s.fw.trialAt) / (1000 * msCycles)) 511) else w)
  else if o = 0x1000 then putBits (putBits w 0 15 s.image.access.length) 15 1 (b2n s.image?.isSome)
  else if o = 0x1008 then
    let q := s.accQuery (bits w 0 16) (bits w 16 16)
    putBits w 32 6 (q.1 + 8 * b2n q.2.1 + 16 * b2n q.2.2.1 + 32 * b2n q.2.2.2)
  else if o = F.TB_STATUS_fine.off then putBits w 6 1 (s.rd F.HUB_PKG_CAP_tick_fine)
  else if o = F.TB_STOP_STATUS_quiescent.off then putBits w 1 1 (b2n s.quiescent)
  else if o = 0x30000 then (if s.starting then putBits w 32 32 ((s.time - s.pwr.startAt) / msCycles) else w)
  else if 0x30200 ≤ o ∧ o < 0x302F0 then
    let i := (o - 0x30200) / 8
    let v := if s.rd (F.PWR_DOMAIN_fault i) = 1 ∨ s.dark = true then w else putBits w 0 16 (Config.sensor 2 i s.time)
    putBits v 32 32 (Config.sensor 1 i s.time)
  else if 0x40100 ≤ o ∧ o < 0x40300 then putBits w 0 32 (min (s.bayAge ((o - 0x40100) / 8) / msCycles) 0xFFFFFFFF)
  else if o = 0x50000 then putBits (putBits w 1 1 (b2n s.chainEnable)) 4 8 s.diePresent
  else if o = 0x800000 then putBits (putBits w 32 1 (b2n s.stopped)) 33 1 (s.rd F.HUB_PKG_CAP_fence_cycle)
  else w

/-- The register at a place as it reads; WO bits read as 0, since no write stores them. -/
def State.regView (s : State) (m : Master) : Place → Dword
  | .hub o => s.hubView m o
  | .tile t o => s.tileView t o
  | .stack st o => rget (s.stack st).regs o
  | .port p o => rget (s.port p).regs o
  | .queue q o => if o = 0x20 then putBits (rget (s.queue q).regs o) 32 32 (s.timerMs (s.queue q)) else rget (s.queue q).regs o
  | .aperture _ _ => 0
  | .gap => 0

/-- The bytes that a read of `n` bytes at window offset `off` returns; an aperture holds bytes. -/
def State.regRead (s : State) (m : Master) (off n : Nat) : List Byte :=
  match regPlace off with
  | .aperture b o => (s.oe b).aperture.read o n
  | p => sub (leBytes 8 (s.regView m p.reg).toNat) (off % 8) n

end Sys2Proof.Machine
end

