-- ==== Sys2Proof/Machine/HostIf.lean ====
section
/-! DEFINITION. The host link's resets, power states and interrupts (22 R452 to R454), the shelf port's control (R455, R457, R458), and the
I3C target (R460, R461). -/

namespace Sys2Proof.Machine

/-! The host link. -/

/-- A vector unmasked: its pending message is sent (R452). -/
def State.unmaskVector (s : State) (v : Nat) : State :=
  let p := s.pcie
  let s1 := { s with pcie := { p with
    unmasked := if p.unmasked.contains v then p.unmasked else p.unmasked ++ [v]
    waiting := p.waiting.filter (· != v) } }
  if p.waiting.contains v then s1.msix v else s1

/-- MSIX_UNMASK (R452). -/
def execMsixUnmask (v : Fin 2048) (s : State) : Res := if !s.linkUp || s.dark then ok s else ok (s.unmaskVector v)

/-- A byte of BAR4 (R449): the MSI-X table, whose control word masks a vector by its bit 0, and the pending bits. The layout of an entry is that
of PCI Express (PRESUMED, log 124), and nothing stands beyond. -/
def Pcie.msixByte (p : Pcie) (o : Nat) : Byte :=
  if o < 0x8000 then
    if o % 16 < 12 then p.table.get o
    else if o % 16 = 12 then (if p.unmasked.contains (o / 16) then 0 else 1)
    else 0
  else if o < 0x8100 then BitVec.ofNat 8 ((List.range 8).foldl (fun n k => n + b2n (p.waiting.contains (8 * (o - 0x8000) + k)) * 2 ^ k) 0)
  else 0

/-- A byte of BAR4 written: the pending bits are read only. -/
def State.msixPut (s : State) (o : Nat) (b : Byte) : State :=
  if 0x8000 ≤ o ∨ 12 < o % 16 then s
  else if o % 16 = 12 then
    if b.toNat % 2 = 0 then s.unmaskVector (o / 16) else { s with pcie := { s.pcie with unmasked := s.pcie.unmasked.filter (· != o / 16) } }
  else { s with pcie := { s.pcie with table := s.pcie.table.write o [b] } }

/-- The link can carry a configuration request: PERST_N released and VSER within its limits (R454). -/
def State.configOpen (s : State) : Bool := !s.pcie.perst && s.on (F.PWR_DOMAIN_on 26)
/-- Step 2 of a start has not begun (R454). -/
def State.beforeFuses (s : State) : Bool := s.rd F.PWR_STATUS_state == 0 && s.rd F.PWR_STATUS_step ≤ 1

/-- What a read of configuration space returns (R449, R454). -/
def State.configRead (s : State) (off n : Nat) : HostSpace → List Byte
  | .resizableBar => leBytes n (Nat.log2 s.pcie.bar2Gib)
  | .serialNumber => (leBytes 8 s.sec.uid).take n
  | .readinessTime => (leBytes 4 Config.readinessTime.toNat).take n
  | _ => (List.range n).map (fun k => Config.pcieConfig (off + k))

/-- What a write of configuration space does (R449): the Resizable BAR control sizes BAR2, from 1 GiB to 2 TiB. No other register's write is
described. -/
def State.configWrite (s : State) (data : List Byte) : HostSpace → State
  | .resizableBar => if leNat data ≤ 11 then { s with pcie := { s.pcie with bar2Gib := 2 ^ leNat data } } else s
  | _ => s

/-- The host link goes down. -/
def State.linkDown (s : State) : State := s.wr F.HUB_PCIE_STATUS_link_up 0

/-- PERST_ASSERT: step 1 of a warm start begins and holds, with HBM in self-refresh; a start in progress is abandoned (R453). In OFF and in
RECOVERY, which only a cold start leaves (18 R392), the link alone goes down. -/
def execPerstAssert (s : State) : Res :=
  let s1 := { s with pcie := { s.pcie with perst := true } }
  if s.pwr.off then ok s1
  else if s.pwrSt = 3 then ok s1.linkDown
  else ok (s1.startHold (!(s.pwr.resetHeld && s.pwr.heldCold)))

/-- PERST_RELEASE: the start that holds continues, and the link trains (R453, R454). -/
def execPerstRelease (i : StartIn) (s : State) : Res :=
  if !s.pcie.perst then ok s
  else
    let s1 := { s with pcie := { s.pcie with perst := false } }
    if s.pwr.resetHeld then ok (({ s1 with pwr := { s1.pwr with resetHeld := false } } : State).startIf (!s.pwr.heldCold) i)
    else if s.pwr.off then ok s1
    else ok s1.linkTrained.flushMsix

/-- HOT_RESET: as PERST_N asserted and released (R453). -/
def execHotReset (i : StartIn) (s : State) : Res :=
  if s.dark || s.pcie.perst then ok s
  else if s.pwrSt = 3 then ok s.linkTrained.flushMsix
  else ok (s.startIf true i)

/-- HOST_D3HOT: D3hot asks for mothball (R453; 18 R400). -/
def execHostD3hot (s : State) : Res :=
  if s.linkUp && !s.dark then ok ((s.wr F.HUB_PCIE_STATUS_dstate 3).mothball) else ok s

/-- HOST_D0: D0 asks for a wake (R453; 18 R402). -/
def execHostD0 (s : State) : Res :=
  if s.linkUp && !s.dark then ok ((s.wr F.HUB_PCIE_STATUS_dstate 0).wake) else ok s

/-- The loft reads and flush reads of tile `t` that wait for the host fail as the link goes down (10 R230): each counted, and D_LOFT. -/
def State.loftLost (s : State) (t : Nat) : State :=
  let x := s.tile t
  let lost := fun (r : DReq) => r.phase != 1 && s.isLoft r.addr
  match x.reqs.filter lost with
  | [] => s
  | r :: l =>
    let s1 := (r :: l).foldl (fun a _ => a.loftFail 3) (s.setTile t ({ x with reqs := x.reqs.filter (fun e => !lost e) } : Tile).dShow)
    if x.live then s1.dFault t 0xB (some r.addr) (x.reqPc r)
    else s1.setTile t ((s1.tile t).dQuiet s.tn s.sinceEdge 0)

/-- HOST_LINK_DOWN: no reset; the device runs on (R453), but for requests of the loft (10 R230). -/
def execHostLinkDown (s : State) : Res :=
  if s.linkUp then
    let s1 := (s.linkDown.wr F.HUB_PCIE_ERR_link_down 1).logs .PCIE_LINK_DOWN []
    ok (s1.forEach (s1.tiles.map (·.1)) State.loftLost)
  else ok s

/-- HOST_LINK_UP: the link is back; messages that waited are sent. -/
def execHostLinkUp (s : State) : Res :=
  if s.linkUp || s.dark || s.pcie.perst then ok s else ok ((s.linkTrained.bump F.HUB_PCIE_STATUS_retrains).flushMsix)

/-! The shelf port. -/

/-- The window offset of SHELF_CTRL. -/
def shelfCtrl : Nat := 0x60010

/-- SHELF_ATTACH: the engine takes the controller, as at the attach step (R455, R458). Ignored while a copy runs (log 48). -/
def execShelfAttach (m : Master) (probe : ShelfProbe) (s : State) : Res :=
  ok (s.guarded m shelfCtrl (fun a => if a.snap.job.isSome then a else a.shelfTake probe))

/-- SHELF_RELEASE: the engine deletes its queues and stops; a copy in progress ends with SHELF_IO (R458; 16 R360). -/
def execShelfRelease (m : Master) (s : State) : Res :=
  ok (s.guarded m shelfCtrl (fun a =>
    if a.rd F.SHELF_STATUS_state ≠ 2 then a
    else
      let c := a.nvmeDelete
      let b := ({ c with shelf := { c.shelf with owned := false, cmdAt := none } } : State).wr F.SHELF_STATUS_state 3
      if a.snap.job.isSome then
        (({ b with snap := { b.snap with job := none } } : State).wr F.HUB_SNAP_SHELF_STATUS_state 2).shelfIo.shelfFree
      else b))

/-- SHELF_HEALTH_POLL: Get Log Page, and the SMART log's percentage used (R457); a command that fails is as any other (R459). -/
def execShelfHealthPoll (wear : BitVec 16) (s : State) (good : Bool := true) : Res :=
  if s.shelf.owned && s.rd F.SHELF_STATUS_state == 2 then
    ok (if good then s.nvmeHealth.wr F.SHELF_ERRS_wear wear.toNat else s.nvmeHealth.shelfFailed)
  else ok s

/-! The I3C target. It answers while the auxiliary supply is there; a transaction on the bus takes the interrupts that wait (log 49). -/

def State.i3cDo (s : State) (f : State → State) : State :=
  if s.pwr.aux then f { s with i3c := { s.i3c with wait := [] } } else s

/-- A response on the bus. -/
def State.i3cSay (s : State) (b : List Byte) : State := s.i3cDo (fun a => a.sends (.i3c b))

/-- ENTDAA: identity, then the dynamic address; a target that has one does not answer. -/
def execEntdaa (x : BitVec 7) (s : State) : Res :=
  ok (s.i3cDo (fun a =>
    if a.i3c.addr.isSome then a
    else { a.sends (.i3c (beBytes 6 Config.i3cPid.toNat ++ [Config.i3cBcr, Config.i3cDcr])) with i3c := { a.i3c with addr := some x.toNat } }))

/-- The target's address: the static one until a dynamic one is assigned (R460). -/
def I3c.address (x : I3c) : Nat := x.addr.getD 0x5D

/-- SETDASA, directed to static address `target`: a dynamic address in place of it. -/
def execSetdasa (x : BitVec 7) (s : State) (target : BitVec 7 := 0x5D) : Res :=
  ok (s.i3cDo (fun a => if a.i3c.addr.isSome ∨ target.toNat ≠ a.i3c.address then a else { a with i3c := { a.i3c with addr := some x.toNat } }))

/-- A private transfer, addressed to `target`, where that is the target's address; without it the target is addressed. -/
def State.i3cTo (s : State) (target : Option (BitVec 7)) (f : State → State) : State :=
  s.i3cDo (fun a => if (target.map (·.toNat)).getD a.i3c.address = a.i3c.address then f a else a)

/-- RSTDAA. -/
def execRstdaa (s : State) : Res := ok (s.i3cDo (fun a => { a with i3c := { a.i3c with addr := none } }))

/-- GETPID, GETBCR, GETDCR, GETSTATUS, GETMWL. -/
def execGetpid (s : State) : Res := ok (s.i3cSay (beBytes 6 Config.i3cPid.toNat))
def execGetbcr (s : State) : Res := ok (s.i3cSay [Config.i3cBcr])
def execGetdcr (s : State) : Res := ok (s.i3cSay [Config.i3cDcr])
def execGetstatus (s : State) : Res := ok (s.draw.2.i3cSay (beBytes 2 (Config.i3cStatus s.free).toNat))
def execGetmwl (s : State) : Res := ok (s.i3cSay (beBytes 2 s.i3c.mwl))

/-- SETMWL. -/
def execSetmwl (n : BitVec 16) (s : State) : Res := ok (s.i3cDo (fun a => { a with i3c := { a.i3c with mwl := n.toNat } }))

/-- ENEC and DISEC: in-band interrupts (R462). -/
def execEnec (s : State) : Res := ok (s.i3cDo (fun a => { a with i3c := { a.i3c with enec := true } }))
def execDisec (s : State) : Res := ok (s.i3cDo (fun a => { a with i3c := { a.i3c with enec := false } }))

/-- Any other CCC is ignored. -/
def execI3cOtherCcc (_ccc : Byte) (s : State) : Res := ok (s.i3cDo id)

/-- The window offset of a sideband item that is read (R461). -/
def i3cItem (k : Nat) : Option Nat :=
  if k = 0 then some 0x20000
  else if k = 1 then some 0x30000
  else if k = 2 then some 0x30010
  else if k = 3 then some 0x30018
  else if k = 4 then some 0x40000
  else if k = 5 then some 0x40018
  else if 0x10 ≤ k ∧ k ≤ 0x18 then some (0x30300 + 8 * (k - 0x10))
  else if 0x20 ≤ k ∧ k ≤ 0x2F then some (0x100000 + 0x10000 * (k - 0x20) + 8)
  else none

/-- I3C_PRIVATE_WRITE: an index, or an index and 8 bytes for PWR_CTRL, of which WARM_START and COLD_START act (R461; 18 R392). A write beyond
the maximum write length is not taken (log 28). -/
def execI3cPrivateWrite (bytes : List Byte) (i : StartIn) (s : State) (target : Option (BitVec 7) := none) : Res :=
  ok (s.i3cTo target (fun a =>
    if a.i3c.mwl < bytes.length then a
    else if bytes.length = 1 then { a with i3c := { a.i3c with index := le bytes 0 1 } }
    else if bytes.length = 9 ∧ le bytes 0 1 = 0x40 ∧ a.dark = false then
      let op := le bytes 1 8 % 8
      if op = 1 then (if a.pwrSt = 3 then a else a.startIf true i) else if op = 2 then a.coldStart i else a
    else a))

/-- PWR_BUDGET.max_10ms_w restarts after a read (18). -/
def State.budgetRead (s : State) : State := s.wr F.PWR_BUDGET_max_10ms_w 0

/-- I3C_PRIVATE_READ: the selected item (R461); in OFF only the first two answer. -/
def execI3cPrivateRead (s : State) (target : Option (BitVec 7) := none) : Res :=
  ok (s.i3cTo target (fun a =>
    let k := a.i3c.index
    match (if a.pwr.off && 1 < k then none else i3cItem k) with
    | none => a.sends (.i3c (allOnes 8))
    | some o =>
      let b := a.sends (.i3c (a.regRead .cpc o 8))
      if k = 3 then b.budgetRead else b))

end Sys2Proof.Machine
end

