-- ==== Sys2Proof/Machine/RegOps.lean ====
section
/-! DEFINITION. Register writes (00 R7 to R9): what a written word leaves in a register, the rules of single registers, and the commands that
a WO field starts. -/

namespace Sys2Proof.Machine

/-! The access log's commands (04 R85). -/

/-- The window offset of HUB_ACC_CTRL. -/
def accCtrl : Nat := 0x1018

/-- ACC_CLEAR_COUNTS. -/
def execAccClearCounts (m : Master) (s : State) : Res :=
  ok (s.guarded m accCtrl (fun a => a.wrs [(F.HUB_ACC_COUNTS_denied, 0), (F.HUB_ACC_COUNTS_unmapped, 0)]))

/-- ACC_CLEAR_LOG: every entry and the pointer. -/
def execAccClearLog (m : Master) (s : State) : Res :=
  ok (s.guarded m accCtrl (fun a => a.setRegs (rput (dropRegs a.regs 0x1100 0x1500) 0x1020 0)))

/-! Rules of single registers. -/

/-- The limit of a calibration register's user offset (03 R67). -/
def trimLimit (off : Nat) : Option Nat :=
  if off = 0x10100 then some 2000
  else if off = 0x10108 then some 10000
  else if 0x10200 ≤ off ∧ off < 0x10300 then some 2000
  else if 0x10300 ≤ off ∧ off < 0x10300 + 8 * 28 then some 32
  else if 0x10300 + 8 * 28 ≤ off ∧ off < 0x10300 + 8 * 58 then some 20
  else none

/-- A user offset brought to its nearest limit, and whether it was beyond it. -/
def clampUser (lim : Nat) (w : Dword) : Dword × Bool :=
  let u := signed 16 (bits w 16 16)
  if (lim : Int) < u then (putBits w 16 16 lim, true)
  else if u < -(lim : Int) then (putBits w 16 16 (2 ^ 16 - lim), true)
  else (w, false)

/-- Why a write is ignored: HUB_LOFT_HOST while the loft is enabled (10 R227), a BAR2 base off its size (22 R450), a queue's configuration
outside DISABLED (13). -/
def State.regIgnores (s : State) (p : Place) (w : Dword) : Option EvName :=
  match p with
  | .hub o =>
    if o = 0x300 ∧ s.on F.HUB_LOFT_CTRL_enable = true then some .REG_LOCKED
    else if o = 0x800 ∧ bits w 30 18 % s.pcie.bar2Gib ≠ 0 then some .REG_LOCKED
    else none
  | .queue q o => if o ≤ 0x10 ∧ (s.queue q).state ≠ 0 then some .FE_Q_BUSY else none
  | _ => none

/-- The word that a register takes, and what else its write does (03 R67; 17 SAFE_REC_PTR; 18 PWR_BUDGET). `low`: the write reaches the lower
half, where SAFE_REC_PTR.read stands (00 R9). -/
def State.regTake (s : State) (m : Master) (p : Place) (w : Dword) (low : Bool) : State :=
  match p with
  | .hub o =>
    match trimLimit o with
    | some lim =>
      let c := clampUser lim w
      let s1 := s.setRegWord m c.1 p
      if c.2 then (s1.wr F.TB_EVENT_trim_clamped 1).raised .TRIM_CLAMPED [o] else s1
    | none =>
      if o = 0x30018 then s.setRegWord m (putBits w 0 16 (max 2000 (min 9600 (bits w 0 16)))) p
      else if o = 0x40010 ∧ low = true then { s.setRegWord m w p with safe := { s.safe with full := 0 } }
      else s.setRegWord m w p
  | _ => s.setRegWord m w p

/-! Commands. -/

/-- The state after a meaning that completes. -/
def after (s : State) (r : Res) : State :=
  match r with
  | .next t => t
  | _ => s

/-- SUBMIT through a plain write: the command that the bank's buffer holds (19 R407). -/
def State.secSubmit (s : State) (m : Master) : State :=
  let c := le (s.secBytes ((bankOfMaster m).getD 0)) 4 2
  after s (if c = 2 then execOwnerRevoke m s else if c = 3 then execDeploy m s else if c = 5 then execDebugUnlock m s
    else if c = 4 then .next s else execOwnerRegister m s)

/-- The clears of HUB_ACC_CTRL. -/
def State.accTrigger (s : State) (m : Master) (v : Nat) : State :=
  let s1 := if bitOf v 0 then after s (execAccClearCounts m s) else s
  if bitOf v 1 then after s1 (execAccClearLog m s1) else s1

/-- The command that the op field of a hub-side register starts. Those that need the world's operands (starts, RESTORE, REPLAY_CHECK, RETURN,
ATTACH) come as their own rows, which bring them (log 50). -/
def State.hubTrigger (s : State) (m : Master) (o v : Nat) : State :=
  let op := fun n => v % n
  if o = 0x210 then
    match op 8 with
    | 1 => after s (execStowStage m s) | 2 => after s (execStowLoad m s) | 3 => after s (execStowSchedule m s)
    | 4 => after s (execStowDiscard m s) | _ => s
  else if o = 0x510 then
    match op 8 with
    | 3 => after s (execWitness m s) | 4 => after s (execSnapAbandon m s) | 5 => after s (execSnapClearError m s) | _ => s
  else if o = 0x620 then
    match op 4 with
    | 1 => after s (execDumpArm m s) | 2 => after s (execDumpCancel m s) | _ => s
  else if o = 0x718 then
    match op 8 with
    | 1 => after s (execFwPrepare m s) | 2 => after s (execFwStage m [] s) | 3 => after s (execFwSchedule m s)
    | 4 => after s (execFwDiscard m s) | 5 => after s (execFwReject m s) | 6 => after s (execFwRelayAgain m s) | _ => s
  else if o = 0x1018 then s.accTrigger m v
  else if o = 0x10020 then
    match op 8 with
    | 1 => after s (execRelock m s) | 2 => s.resumeReplay m | 3 => after s (execResumeDiscard m s)
    | 4 => after s (execClearStats m s) | _ => s
  else if o = 0x10050 then
    match bitsOf v 4 2 with
    | 1 => after s (execTbActAdd m (BitVec.ofNat 4 v) s) | 2 => after s (execTbActCancel m (BitVec.ofNat 10 (v / 2 ^ 16)) s) | _ => s
  else if o = 0x20108 ∨ o = 0x20508 ∨ o = 0x20908 then
    match op 4 with
    | 1 => s.secSubmit m | 2 => after s (execClose m s) | _ => s
  else if o = 0x30008 then
    match op 8 with
    | 3 => after s (execMothball m s) | 4 => after s (execWake m s) | _ => s
  else if o = 0x40008 then
    match bitsOf v 24 3 with
    | 1 => after s (execReportMismatch m s) | 2 => after s (execSafeClearCounts m s) | _ => s
  else if o = 0x40020 then
    let d := BitVec.ofNat 3 v
    let r := BitVec.ofNat 4 (v / 16)
    let c := BitVec.ofNat 4 (v / 256)
    match bitsOf v 16 3 with
    | 1 => after s (execPretest m d r c s) | 2 => after s (execMarkSuspect m d r c s) | _ => s
  else if o = 0x50108 then after s (if bitOf v 0 then execEvtFreeze m s else execEvtThaw m s)
  else if o = 0x60010 then (if op 4 = 2 then after s (execShelfRelease m s) else s)
  else if o = 0x800010 then (if bitOf v 0 then after s (execFeClearCounts m s) else s)
  else if 0xC00000 ≤ o ∧ o < 0xC40000 then after s (execDoorbell m (Fin.ofNat 32768 ((o - 0xC00000) / 8)) (BitVec.ofNat 32 v) s)
  else s

/-- The command that a written word starts at a place. -/
def State.regTrigger (s : State) (m : Master) (v : Nat) : Place → State
  | .hub o => s.hubTrigger m o v
  | .stack st o =>
    let k := Fin.ofNat 16 st
    if o = 8 then (if bitOf v 16 then after s (execHbmTempClear m k s) else s)
    else if o = 0x20 then
      match v % 8 with
      | 1 => after s (execHbmRetAdd m k s) | 2 => after s (execHbmRetSchedule m k s) | 3 => after s (execHbmRetDiscard m k s) | _ => s
    else s
  | .port p o =>
    let k := Fin.ofNat 32 p
    if o = 0x10 then
      match v % 4 with
      | 1 => after s (execLnkRetrain m k s) | 2 => after s (execLnkDisable m k s) | 3 => after s (execLnkEnable m k s) | _ => s
    else s
  | .queue q o =>
    let k := Fin.ofNat 32768 q
    if o = 0x28 then
      match v % 8 with
      | 1 => after s (execCreate m k s) | 2 => after s (execDestroy m k s) | 3 => after s (execResume m k s) | _ => s
    else s
  | _ => s

/-- A permitted write of `size` bytes at window offset `off` (R7, R9): too narrow a write, or an ignored one, changes nothing and is
logged; otherwise the RW and W1C bits take the word, and a WO field in the written half starts its command. -/
def State.regWriteAt (s : State) (m : Master) (off size v : Nat) (src : Node := .hub) : State :=
  match regPlace off with
  | .tile t o => s.tileWrite (some m) t o size v src
  | .aperture b o => s.setOe b { s.oe b with aperture := (s.oe b).aperture.write o (leBytes size v) }
  | .gap => s
  | p =>
    match p.row? with
    | none => s
    | some r =>
      if off / 8 * 8 = 0x50100 then
        after s (execDbgSyncSet m size (BitVec.ofNat 11 v) (BitVec.ofNat 8 (v / 2 ^ 16)) (BitVec.ofNat 32 (v / 2 ^ 32)) s)
      else if !widthOk r size then s.logs .REG_MISALIGNED [masterCode m, off, size]
      else
        let w := mergeWrite r (s.regWord m p.reg) off size v
        match s.regIgnores p.reg w with
        | some e => s.logs e [off]
        | none =>
          let s1 := s.regTake m p.reg w (off % 8 == 0)
          if off % 8 = 0 then s1.regTrigger m v p.reg else s1

/-- BAR2_WINDOW_WRITE: HUB_BAR2_WINDOW (22 R450). -/
def execBar2WindowWrite (m : Master) (base : BitVec 18) (s : State) : Res :=
  ok (s.guarded m 0x800 (fun a => a.regWriteAt m 0x800 8 (base.toNat * 2 ^ 30)))

/-- PWR_BUDGET_READ: max_10ms_w is returned and restarts, when the access covers it (18 PWR_BUDGET). A turned-away read of the host completes
successfully, with all ones (22 R451). -/
def execPwrBudgetRead (m : Master) (off : BitVec 3) (size : Nat) (s : State) : Res :=
  if s.dark then ok s
  else
    match s.check m (0xFFFFFC030018 + off.toNat) size 1 false with
    | (s1, .ok _) =>
      let s2 := s1.sends (.completion .ok (s1.regRead m (0x30018 + off.toNat) size))
      ok (if size = 8 ∨ off.toNat = 4 then s2.budgetRead else s2)
    | (s1, c) => ok (s1.sends (.completion (if m = .host then .ok else if c = .unmapped then .unmapped else .denied) (allOnes size)))

end Sys2Proof.Machine
end

