-- ==== Sys2Proof/Machine/Requests.lean ====
section
/-! DEFINITION. Requests at their targets (04 R70 to R84, 11 R232 to R237, 14 R305, R306, 15 R331, R339, R340, 22 R449 to R458), and the answers that
return to a tile or to the hub (08 R170, 10 R219, R220, 11 R242, 12 R258, 15 R330). -/

namespace Sys2Proof.Machine

/-! Who asks, and how it is answered. -/

/-- What becomes of an arriving request before its check (15 R331, R339, R340). -/
inductive Arrival where
  /-- It goes on under a master code. -/
  | take (m : Master)
  /-- Its src is no member of GROUP. -/
  | foreign
  /-- A fenced partition drops it. -/
  | shun
  deriving DecidableEq, Repr

/-- A request on the device keeps its master; one from a link gets the link-ingress code of its src (04 R79). -/
def State.arrivalOf (s : State) (r : Req) : Arrival :=
  match r.via with
  | none => .take r.master
  | some _ =>
    if s.shuns r.src.toNat then .shun
    else if s.image.members.contains r.src.toNat then .take (.ingress (Fin.ofNat 64 (r.src.toNat / 1024)))
    else .foreign

/-- The answer to a read: a READ_RESP to a tile, the CPC or another device; a completion to the host, where a denied or unmapped read
completes successfully (22 R451), and to the others. -/
def State.replyRead (s : State) (r : Req) (st : Status) (data : List Byte) (cacheable : Bool := false) : State :=
  match r.master with
  | .cpc | .bay _ | .ingress _ => s.sendResp r st data cacheable
  | .host => (s.carryResp r (max data.length 1) 2 data data.length).sends (.completion (if st = .ecc then .ecc else .ok) data)
  | _ => (s.carryResp r (max data.length 1) 2 data data.length).sends (.completion st data)

/-- The landing acknowledgement of a write (11 R233); posted writes of the other masters have none. -/
def State.replyWrite (s : State) (r : Req) (st : Status) (lc n : Nat) : State :=
  match r.master with
  | .cpc | .bay _ | .ingress _ => s.sendAck r st lc n
  | _ => s

/-- Masters whose writes name a landing counter (11 R237). -/
def namesLc : Master → Bool
  | .bay _ => true
  | .ingress _ => true
  | _ => false

/-! Writes. -/

/-- What a write into the buddy region starts: a witness record for its slot, or a look at the board (16 R355, R361). -/
def State.buddyWritten (s : State) (a : Nat) : State :=
  if s.buddy?.isNone then s
  else if a = s.slotAt 0 then s.witnessArrived 0
  else if a = s.slotAt 1 then s.witnessArrived 1
  else if s.buddyBase ≤ a ∧ a < s.buddyBase + 0x20000 then s.boardLook
  else s

/-- A write into tile `t`'s scratchpad window (11 R233, R237): at a tile that is being aborted a write from outside its bay is discarded and
answered DROPPED (DEDUCED, log 51); otherwise it is performed, and counted at the landing counter it names. -/
def State.windowWrite (s : State) (m : Master) (r : Req) (t o lc : Nat) (data : List Byte) : State :=
  if (s.tile t).aborting && namesLc m && (match m with | .bay b => s.bayOf t != some b.val | _ => true) then
    s.replyWrite r .dropped 0xFF 0
  else
    let named := namesLc m && lc < 64
    let s1 := s.spadWrite t o data
    (if named then s1.land t lc data.length else s1).replyWrite r .ok (if named then lc else 0xFF) data.length

/-- A write through the shelf window (22 R458). -/
def State.shelfWindowWrite (s : State) (m : Master) (r : Req) (off : Nat) (data : List Byte) : State :=
  if s.shelf.owned then
    (s.logAccess false (masterCode m) (Target.shelf off).code 2 r.addr.toNat).replyWrite r .denied 0xFF 0
  else ((s.sends (.shelf true off data.length data)).count 71 data.length).replyWrite r .ok 0xFF data.length

/-- A loft write has reached the hub: it has left the die (10 R221). -/
def State.loftReached (s : State) (r : Req) : State :=
  let t := r.tile.toNat
  if t < 1200 then
    s.setTile t { s.tile t with stores := (s.tile t).stores.map (fun w => if w.tag % 2 ^ 24 = r.tag.toNat % 2 ^ 24 then { w with out := true } else w) }
  else s

/-- A permitted write at its target. A loft write has no acknowledgement (11 R233); one that cannot leave is answered (10 R230). -/
def State.writeAt (s : State) (m : Master) (r : Req) (lc : Nat) (data : List Byte) (errs : List BurstErr) : Target → State
  | .hbm g =>
    let a := r.addr.toNat % 2 ^ 48
    let w := s.hbmWrite g a r.addr.toNat data errs
    (w.1.buddyWritten a).replyWrite r (if w.2 = data.length then .ok else .ecc) 0xFF w.2
  | .spad t o => s.windowWrite m r t o lc data
  | .reg off => (s.regWriteAt m off data.length (leNat data) (s.reqNode r)).replyWrite r .ok 0xFF data.length
  | .shelf off => s.shelfWindowWrite m r off data
  | .loft o =>
    match s.loftBlock with
    | some c => ((s.loftReached r).loftFail c).replyWrite r .dropped 0xFF 0
    | none => ((s.loftReached r).sends (.hostWrite (s.loftBus o) data)).count 69 data.length
  | .unmapped => s

/-- A request of this device for another one, which the hub forwards over the links (04 R68). One that a link brought here under another
device's address is unmapped (log 89). -/
def State.forAnother (s : State) (r : Req) : Bool := devOf r.addr.toNat != s.devId && r.via.isNone

/-- A write under master `m`, checked (04 R70 to R72, R80 to R84; 18 R401). -/
def State.writeAs (s : State) (m : Master) (r : Req) (lc : Nat) (data : List Byte) (errs : List BurstErr) : State :=
  if s.forAnother r then s.sendPkt (writePacket s.devId (devOf r.addr.toNat) r lc data)
  else if devOf r.addr.toNat ≠ s.devId then (s.logAccess true (masterCode m) 0xFFFF 2 r.addr.toNat).replyWrite r .unmapped 0xFF 0
  else
    match (s.carryIn r data.length 1 (writePacket s.devId s.devId r lc data) data.length).check m (r.addr.toNat % 2 ^ 48) data.length 2
      (r.eng == some .d) with
    | (s1, .ok tgt) => s1.writeAt m r lc data errs tgt
    | (s1, .denied) => s1.replyWrite r .denied 0xFF 0
    | (s1, .unmapped) => s1.replyWrite r .unmapped 0xFF 0
    | (s1, .asleep) => s1.replyWrite r .dropped 0xFF 0
    | (s1, .misaligned) => s1.replyWrite r .ok 0xFF 0

/-- A packet that a link brings during a global stop, for its port's transit log (03 R62). -/
def State.stopsAt (s : State) (r : Req) : Option (Fin 32) := if s.stopped then r.via else none

/-- A packet, and a request of a tile, carries at most 256 bytes (15 R327); the host's, the debug port's and the CPC's are bounded by no rule. -/
def reqTooLong (r : Req) (n : Nat) : Bool :=
  (r.via.isSome || (match r.master with | .bay _ => true | _ => false)) && decide (256 < n)

/-- A write arrives. One of no bytes does not exist, nor a packet of more than 256 (15 R327; log 4). -/
def State.writeArrives (s : State) (r : Req) (data : List Byte) (lc : Byte) (errs : List BurstErr) : State :=
  if s.dark || data.isEmpty || reqTooLong r data.length then s
  else
    match s.stopsAt r with
    | some p => s.logTransit p (writePacket r.src.toNat s.devId r lc.toNat data)
    | none =>
    match s.arrivalOf r with
    | .foreign => s.bump F.HUB_GRP_COUNTS_foreign
    | .shun => (s.bump F.HUB_GRP_COUNTS_fenced_drops).replyWrite { r with master := .ingress 0 } .dropped 0xFF 0
    | .take m => s.writeAs m { r with master := m } lc.toNat data errs

/-! Reads. -/

/-- A permitted read at its target (17 R367). `ext`: what the shelf's controller returns to a requester that no READ_RESP answers. HBM answers cacheable where attr bit 1 is set, a scratchpad window always (08 R173). -/
def State.readAt (s : State) (m : Master) (r : Req) (n : Nat) (errs : List BurstErr) (ext : Option (List Byte) := none) : Target → State
  | .hbm g =>
    match s.hbmRead g (r.addr.toNat % 2 ^ 48) n r.addr.toNat errs with
    | (s1, some d) => s1.replyRead r .ok d (bitOf g.attr 1)
    | (s1, none) => s1.replyRead r .ecc []
  | .spad t o =>
    match s.spadServe m t o n errs with
    | (s1, some d) => (s1.countMesh t n).replyRead r .ok d true
    | (s1, none) => s1.replyRead r .ecc []
  | .reg off =>
    let s1 := s.replyRead r .ok (s.regRead m off n)
    if off / 8 * 8 = 0x30018 ∧ (n = 8 ∨ off % 8 = 4) then s1.budgetRead else s1
  | .shelf off =>
    let s1 := (s.sends (.shelf false off n [])).count 70 n
    match ext with
    | some d => s1.replyRead r .ok (d.take n)
    | none => s1
  | .loft o =>
    match s.loftBlock with
    | some c => (s.loftFail c).replyRead r .dropped []
    | none => (s.sends (.hostRead (s.loftBus o) n)).count 68 n
  | .unmapped => s

/-- A read or fetch under master `m`, checked; a dropped read returns all ones (04 R70, R72, R83; 18 R401). -/
def State.readAs (s : State) (m : Master) (r : Req) (n : Nat) (errs : List BurstErr) (ext : Option (List Byte) := none) : State :=
  let kind := if r.exec then 4 else 1
  if s.forAnother r then s.sendPkt (readPacket s.devId (devOf r.addr.toNat) r n)
  else if devOf r.addr.toNat ≠ s.devId then (s.logAccess true (masterCode m) 0xFFFF kind r.addr.toNat).replyRead r .unmapped (allOnes n)
  else
    match (s.carryIn r (max n 1) 0 (readPacket s.devId s.devId r n) 0).check m (r.addr.toNat % 2 ^ 48) (max n 1) kind (r.eng == some .d) with
    | (s1, .ok tgt) => s1.readAt m r n errs ext tgt
    | (s1, .denied) => s1.replyRead r .denied (allOnes n)
    | (s1, .unmapped) => s1.replyRead r .unmapped (allOnes n)
    | (s1, .asleep) => s1.replyRead r .ok (allOnes n)
    | (s1, .misaligned) => s1.replyRead r .ok (allOnes n)

/-- READ; none for the flush read of 10 R229. A poisoned one, which only the host's can be, completes with Unsupported Request (22 R451). -/
def execRead (r : Req) (n : Nat) (errs : List BurstErr) (s : State) (poisoned : Bool := false) (ext : Option (List Byte) := none) : Res :=
  if s.dark || reqTooLong r n then ok s
  else if poisoned && r.via.isNone && r.master == .host then ok (s.poisoned.sends (.completion .unmapped []))
  else
    match s.stopsAt r with
    | some p => ok (s.logTransit p (readPacket r.src.toNat s.devId r n))
    | none =>
    match s.arrivalOf r with
    | .foreign => ok (s.bump F.HUB_GRP_COUNTS_foreign)
    | .shun => ok ((s.bump F.HUB_GRP_COUNTS_fenced_drops).replyRead { r with master := .ingress 0 } .dropped [])
    | .take m => ok (s.readAs m { r with master := m } n errs ext)

/-! Requests of the host and of the shelf's controller. -/

/-- A request of the host or of the shelf port, at a local address. -/
def State.portReq (s : State) (m : Master) (a : Nat) : Req :=
  { master := m, eng := none, exec := false, src := BitVec.ofNat 16 s.devId, tile := 0x7FF#11, tag := 0, epoch := 0,
    addr := BitVec.ofNat 64 (s.global a), via := none }

/-- The host reaches BAR2 at an offset (22 R449, R450). -/
def State.bar2Open (s : State) (off : Nat) : Bool := !s.dark && s.linkUp && off < 2 ^ 30 * s.pcie.bar2Gib
/-- The local address behind a BAR2 offset. -/
def State.bar2At (s : State) (off : Nat) : Nat := 2 ^ 30 * s.rd F.HUB_BAR2_WINDOW_base + off
/-- A posted write through BAR2 (11 R247, 22 R450). -/
def State.hostWrites (s : State) (off : BitVec 41) (data : List Byte) (poisoned : Bool) (errs : List BurstErr) : State :=
  if s.bar2Open off.toNat = false then s
  else if poisoned then s.poisoned
  else (s.count 68 data.length).writeAs .host (s.portReq .host (s.bar2At off.toNat)) 0xFF data errs

/-- Bytes written to BAR4 one by one. -/
def State.msixWrites (s : State) (off : Nat) (data : List Byte) : State :=
  (data.zipIdx).foldl (fun a e => a.msixPut (off + e.2) e.1) s

/-- A read through BAR2 (22 R449, R450). -/
def State.hostReads (s : State) (off : BitVec 41) (n : Nat) (poisoned : Bool) (errs : List BurstErr) (ext : Option (List Byte)) : State :=
  if s.bar2Open off.toNat = false then s
  else if poisoned then s.poisoned.sends (.completion .unmapped [])
  else (s.count 69 n).readAs .host (s.portReq .host (s.bar2At off.toNat)) n errs ext

/-- HOST_MEM_READ: of BAR2, BAR4 or configuration space. A poisoned read completes with Unsupported Request (22 R451), and a configuration request
before step 2 with Request Retry Status (R454). -/
def execHostMemRead (off : BitVec 41) (n : Nat) (poisoned : Bool) (errs : List BurstErr) (s : State) (space : HostSpace := .bar2)
    (ext : Option (List Byte) := none) : Res :=
  match space with
  | .bar2 => ok (s.hostReads off n poisoned errs ext)
  | .bar4 =>
    if !s.linkUp || s.dark then ok s
    else if poisoned then ok (s.poisoned.sends (.completion .unmapped []))
    else ok (s.sends (.completion .ok ((List.range n).map (fun k => s.pcie.msixByte (off.toNat + k)))))
  | c =>
    if s.configOpen && s.beforeFuses then ok (s.sends .retryStatus)
    else if !s.linkUp then ok s
    else if poisoned then ok (s.poisoned.sends (.completion .unmapped []))
    else ok (s.sends (.completion .ok (s.configRead off.toNat n c)))

/-- A request of the shelf's controller (22 R456): staging memory, this device's memory under the access tables, or Unsupported Request. -/
def State.shelfRequest (s : State) (write : Bool) (addr : Dword) (n : Nat) (data : List Byte) (errs : List BurstErr) : State :=
  let a := addr.toNat
  let len := if write then data.length else n
  if s.dark then s
  else
    let s0 := if write then s.count 70 len else s.count 71 len
    if 2 ^ 63 ≤ a ∧ a + len ≤ 2 ^ 63 + 0x400000 then
      (if write then { s0 with shelf := { s0.shelf with staging := s0.shelf.staging.write (a - 2 ^ 63) data } }
       else s0.sends (.completion .ok (s0.shelf.staging.read (a - 2 ^ 63) len)))
    else if a + len ≤ 2 ^ 48 then
      (if write then s0.writeAs .shelf (s0.portReq .shelf a) 0xFF data errs else s0.readAs .shelf (s0.portReq .shelf a) n errs)
    else if write then s0 else s0.sends (.completion .unmapped [])

/-! Answers to a tile. -/

/-- A tag as a packet carries it: 24 bits (log 13). -/
def sameTag (a b : Nat) : Bool := a % 2 ^ 24 == b % 2 ^ 24

/-- The cause of S for a status that is not OK (08 R170, R183). -/
def sCause : Status → Nat
  | .denied => 4 | .unmapped => 5 | .ecc => 7 | .dropped => 0x0B | .ok => 0
/-- The code of D (10 R219); `lost`: an UNREACHABLE (15 R330). -/
def dCode (lost : Bool) : Status → Nat
  | .denied => 4 | .unmapped => 5 | .ecc => 6 | .dropped => if lost then 7 else 0xC | .ok => 0
/-- The cause of TILE_MM_FENCE_ERR (11 R242). -/
def fenceCause : Status → Nat
  | .denied => 2 | .unmapped => 3 | .dropped => 4 | .ecc => 7 | .ok => 0

/-- An answer of an older launch epoch is discarded and counted (10 R220). -/
def State.answered (s : State) (t : Nat) (epoch : Nat) (f : State → State) : State :=
  if epoch % 256 = (s.tile t).rd F.TILE_D_STATUS_epoch then f s
  else s.setTile t ((s.tile t).bump F.TILE_D_STATUS_stale)

/-- The fence that S waits on, or the end of a HALTED tile, after a write was answered or lost (11 R242, 08 R182). -/
def State.fenceLook (s : State) (t : Nat) : State :=
  let x := s.tile t
  if x.state = 2 && !x.fails.isEmpty then (s.setTile t (x.wr F.TILE_MM_STATUS_fence_failed 1)).sFault t 0x0A (x.pc - 4)
  else s.pollFence t

/-- The tile after a load's data came: a fetched line (kind 2), a word, or the filled line and its word (08 R172, R173). -/
def Tile.loaded (x : Tile) (l : Load) (data : List Byte) (keep : Bool) (choice : Nat) : Tile :=
  if l.kind = 2 then { x with icache := fillLine x.icache ⟨l.addr, data⟩ choice }
  else if l.kind = 0 then x.setG l.rd (leNat (data.take 4))
  else
    let y := x.setG l.rd (leNat (sub data (l.addr % 64) 4))
    if keep then { y with dcache := fillLine y.dcache ⟨l.addr / 64 * 64, data⟩ choice } else y

/-- A load, fill or fetch answered (08 R170, R172). -/
def State.loadDone (s : State) (t : Nat) (l : Load) (st : Status) (data : List Byte) (cacheable : Bool) : State :=
  let x := s.tile t
  let s1 := (s.setTile t { x with loads := x.loads.filter (fun e => e.tag != l.tag) }).unhold t l.tag
  if !x.live then s1
  else if st ≠ .ok then s1.sFault t (if l.kind = 2 then 0x06 else sCause st) l.pc
  else
    let s2 := s1.draw.2
    (s2.setTile t ((s2.tile t).loaded l data (cacheable && l.keep && !s.ownWindow t l.addr 4) (Config.freeChoice s1.free))).pollFence t

/-- Read data put in its place among a command's (10 R213). -/
def putPlace : List (Nat × List Byte) → Nat → List Byte → List (Nat × List Byte)
  | [], i, d => [(i, d)]
  | e :: l, i, d => if i < e.1 then (i, d) :: e :: l else e :: putPlace l i d

/-- The tile after the data or the flush of a D read came (10 R209, R229): a flush confirms the command's loft writes (11 R241). -/
def Tile.fetched (x : Tile) (r : DReq) (data : List Byte) : Tile :=
  if r.phase = 0 then
    { x with dRun := x.dRun.map (fun d => if d.num == r.cmd then { d with wr := putPlace d.wr r.idx (data.take r.n) } else d) }
  else
    let loft := ((x.dRun.find? (·.num == r.cmd)).map (·.loft)).getD []
    let done := x.stores.filter (fun w => loft.contains w.tag)
    ({ x with stores := x.stores.filter (fun w => !loft.contains w.tag),
              dRun := x.dRun.map (fun d => if d.num == r.cmd then { d with flush := 2, loft := [] } else d) } : Tile).acked
      ((done.map (·.bytes)).foldl (· + ·) 0)

/-- A completion of a loft read that reports an error (10 R230): Unsupported Request or Completer Abort; DROPPED the hub has recorded. -/
def State.loftError (s : State) (st : Status) : State :=
  match st with
  | .unmapped => s.loftFail 1
  | .denied | .ecc => s.loftFail 2
  | _ => s

/-- A D read answered (10 R209, R219, R220, R230). -/
def State.fetchDone (s : State) (t : Nat) (r : DReq) (st : Status) (lost : Bool) (data : List Byte) : State :=
  let x := s.tile t
  let y := ({ x with reqs := x.reqs.filter (fun e => e.tag != r.tag) } : Tile).dShow
  if !x.live then (if st ≠ .ok ∧ s.isLoft r.addr = true then s.loftError st else s).setTile t (y.dQuiet s.tn s.sinceEdge 0)
  else if st ≠ .ok then
    if s.isLoft r.addr then ((s.setTile t y).loftError st).dFault t 0xB (some r.addr) (x.reqPc r)
    else (s.setTile t y).dFault t (dCode lost st) (some r.addr) (x.reqPc r)
  else ((s.setTile t (y.fetched r data)).fenceLook t).dPump t

/-- An answer of another device enters the mesh at the hub on its way to tile `t` (10 R224); one of this device came over it from its
target. -/
def State.answerIn (s : State) (t addr vc : Nat) (data : List Byte) : State :=
  if devOf addr = s.devId then s else s.carry .hub (s.tileNode t) vc data data.length

/-- A read of tile `t` answered: a load, or an entry of D's request table. -/
def State.readAnswered (s : State) (t tag : Nat) (st : Status) (lost : Bool) (data : List Byte) (cacheable : Bool) : State :=
  match (s.tile t).loads.find? (fun l => sameTag l.tag tag) with
  | some l => (s.answerIn t l.addr 2 data).loadDone t l st data cacheable
  | none =>
    match (s.tile t).reqs.find? (fun r => sameTag r.tag tag && r.phase != 1) with
    | some r => (s.answerIn t r.addr 2 data).fetchDone t r st lost data
    | none => s

/-- A read of the loft by D waits under the tag, and its completion comes over the host link. -/
def State.loftWaits (s : State) (t tag : Nat) : Bool :=
  (s.tile t).reqs.any (fun r => sameTag r.tag tag && r.phase != 1 && s.isLoft r.addr)

/-- READ_RESP. A poisoned completion from the host is counted and handled as Completer Abort (22 R451; 10 R230). -/
def execReadResp (t : Fin 1200) (tag : Word) (epoch : Byte) (status : Status) (data : List Byte) (cacheable : Bool) (s : State)
    (poisoned : Bool := false) : Res :=
  let bad := poisoned && s.loftWaits t tag.toNat
  ok ((if bad then s.poisoned else s).answered t epoch.toNat
    (fun a => a.readAnswered t tag.toNat (if bad then .ecc else status) false data cacheable))

/-- A write failed without a fault of its engine: recorded, and a lost, short or misdirected landing is CONTAINED (11 R242, 17 R367). -/
def State.failWrite (s : State) (t : Nat) (w : Store) (cause lc n : Nat) : State :=
  let s1 := s.setTile t ((s.tile t).noteFail s.tn w cause lc n)
  if cause = 1 ∨ cause = 5 ∨ cause = 6 then s1.record { s1.recOfTile 2 11 cause t with addr := w.addr } else s1

/-- An acknowledgement with status OK: its bytes, and whether it names another counter or fewer bytes (11 R241, R242). -/
def State.ackOk (s : State) (t : Nat) (w : Store) (lc n : Nat) : State :=
  if w.own then s
  else
    let s1 := s.setTile t ((s.tile t).acked n)
    if lc ≠ w.lc then s1.failWrite t w 5 lc n else if n < w.bytes then s1.failWrite t w 1 lc n else s1

/-- A remote write of tile `t` answered (11 R241, R242; 08 R170; 10 R219). `lost`: by an UNREACHABLE. -/
def State.ackStore (s : State) (t : Nat) (w : Store) (st : Status) (lost : Bool) (lc n : Nat) : State :=
  let x := s.tile t
  let y := ({ x with stores := x.stores.filter (fun e => e.tag != w.tag), reqs := x.reqs.filter (fun e => e.tag != w.tag) } : Tile).dShow
  let s1 := (s.setTile t y).unhold t w.tag
  if !x.live then s.setTile t ((if st = .ok && !w.own then y.acked n else y).dQuiet s.tn s.sinceEdge 0)
  else if st = .ok then ((s1.ackOk t w lc n).fenceLook t).dPump t
  else if w.engine = 2 then s1.sFault t (sCause st) w.pc
  else if w.engine = 3 then s1.dFault t (if s.isLoft w.addr then 0xB else dCode lost st) (some w.addr) w.pc
  else (if w.own then s1 else s1.failWrite t w (fenceCause st) lc n).fenceLook t

/-- A write of tile `t` answered. -/
def State.writeAnswered (s : State) (t tag : Nat) (st : Status) (lost : Bool) (lc n : Nat) : State :=
  match (s.tile t).stores.find? (fun w => sameTag w.tag tag && !w.signal) with
  | some w => (s.answerIn t w.addr 3 []).ackStore t w st lost lc n
  | none => s

/-- A write of the hub answered: a copy write of the snapshot mover (16 R353), or a RELAY (21 R441). -/
def State.hubAnswered (s : State) (tag epoch : Nat) (st : Status) (lost : Bool) (n : Nat) : State :=
  let k := tag % 2 ^ 24
  if k = copyTag then s.snapAck (epoch % 256) st n
  else if 2 ^ 23 ≤ k then (if lost then s.relayFail else s.relayAcked (k - 2 ^ 23) st)
  else s

/-- LAND_ACK. -/
def execLandAck (t : BitVec 11) (tag : Word) (epoch : Byte) (status : Status) (lc : Byte) (bytes : Nat) (s : State) : Res :=
  if t.toNat = 0x7FF then ok (s.hubAnswered tag.toNat epoch.toNat status false bytes)
  else if 1200 ≤ t.toNat then ok s
  else ok (s.answered t.toNat epoch.toNat (fun a => a.writeAnswered t.toNat tag.toNat status false lc.toNat bytes))

/-- The status of a SIGNAL.R (12 R258): its place is free, and a status that is not OK faults at its PC. -/
def State.signalAnswered (s : State) (t tag : Nat) (st : Status) : State :=
  let x := s.tile t
  match x.stores.find? (fun w => sameTag w.tag tag && w.signal) with
  | none => s
  | some w =>
    let s1 := s.setTile t { x with stores := x.stores.filter (fun e => e.tag != w.tag) }
    if x.live && st != .ok then s1.sFault t (sCause st) w.pc else s1

/-- SIG_STATUS. -/
def execSigStatus (t : Fin 1200) (tag : Word) (epoch : Byte) (status : Status) (s : State) : Res :=
  ok (s.answered t epoch.toNat (fun a => a.signalAnswered t tag.toNat status))

/-- UNREACHABLE (15 R330): the answer of a lost WRITE, READ, SIGNAL or RELAY, as status DROPPED; D meets it as D_LINK. -/
def execUnreachable (t : BitVec 11) (tag : Word) (epoch : Byte) (_reason : Byte) (lost : Byte) (s : State) : Res :=
  let k := tag.toNat
  if t.toNat = 0x7FF then ok (s.hubAnswered k epoch.toNat .dropped true 0)
  else if 1200 ≤ t.toNat then ok s
  else
    ok (s.answered t.toNat epoch.toNat (fun a =>
      if lost = 1 then a.writeAnswered t.toNat k .dropped true 0xFF 0
      else if lost = 2 then a.readAnswered t.toNat k .dropped true [] false
      else if lost = 4 then a.signalAnswered t.toNat k .dropped
      else a))

/-- WRITE_ACK_TIMEOUT (11 R242): a remote write other than a loft write has no acknowledgement 1 ms after its issue. -/
def execWriteAckTimeout (t : Fin 1200) (tag : Word) (s : State) : Res :=
  let x := s.tile t
  match x.stores.find? (fun w => sameTag w.tag tag.toNat && !w.signal && !w.own) with
  | none => ok s
  | some w =>
    if !x.live || s.isLoft w.addr || x.fails.contains w.tag then ok s
    else ok ((s.failWrite t w 6 0 0).fenceLook t)

/-! Remote signals (12 R258). -/

/-- A signal checked as a write to its tile's window, and applied. One at a loft address is denied, as 04 R84 has it, before R258's unmapped
(DEDUCED, log 109). One that an ABORTING or QUIESCENT tile drops (R266) is answered DROPPED (DEDUCED, log 51). -/
def State.signalAs (s : State) (m : Master) (r : Req) (ctr n : Nat) : State :=
  if s.forAnother r then s.sendPkt (signalPacket s.devId (devOf r.addr.toNat) r ctr n)
  else if devOf r.addr.toNat = s.devId ∧ (match s.target (r.addr.toNat % 2 ^ 48) 1 with | .loft _ => true | _ => false) = true then
    (s.logAccess false (masterCode m) 0xFFFE 2 r.addr.toNat).sendSigStatus r .denied
  else
  match if devOf r.addr.toNat = s.devId then s.signalTile (r.addr.toNat % 2 ^ 48) else none with
  | none => ((s.logAccess true (masterCode m) 0xFFFF 2 r.addr.toNat).logAbsent (r.addr.toNat % 2 ^ 48)).sendSigStatus r .unmapped
  | some u =>
    if !s.permits m (.spad u 0) 2 false then (s.logAccess false (masterCode m) (0x1000 + u) 2 r.addr.toNat).sendSigStatus r .denied
    else if s.pwrMb then (s.logs .PWR_ASLEEP [masterCode m, r.addr.toNat % 2 ^ 48]).sendSigStatus r .dropped
    else ((s.carryIn r 1 6 (signalPacket s.devId s.devId r ctr n) 0).signalRemote (s.reqNode r) u ctr n).sendSigStatus r (if (s.tile u).aborting then .dropped else .ok)

/-- SIGNAL, a packet or flit of a remote signal. -/
def execSignalPacket (r : Req) (ctr : Byte) (n : Word) (s : State) : Res :=
  if s.dark then ok s
  else
    match s.stopsAt r with
    | some p => ok (s.logTransit p (signalPacket r.src.toNat s.devId r ctr.toNat n.toNat))
    | none =>
    match s.arrivalOf r with
    | .foreign => ok (s.bump F.HUB_GRP_COUNTS_foreign)
    | .shun => ok ((s.bump F.HUB_GRP_COUNTS_fenced_drops).sendSigStatus r .dropped)
    | .take m => ok (s.signalAs m r ctr.toNat n.toNat)

/-! RESUME_REPLAY (03 R64): the logged packets are applied, in order, and then issue restarts. -/

/-- The request of a WRITE, READ or SIGNAL packet from port `p` (15 R327). -/
def packetReq (p : Nat) (b : List Byte) : Req :=
  { master := .ingress (Fin.ofNat 64 (pktSrc b / 1024)), eng := none, exec := false, src := BitVec.ofNat 16 (pktSrc b), tile := BitVec.ofNat 11 (pktTile b),
    tag := BitVec.ofNat 32 (pktTag b % 2 ^ 24), epoch := BitVec.ofNat 8 (pktTag b / 2 ^ 24), addr := BitVec.ofNat 64 (le b 16 8), via := some (Fin.ofNat 32 p) }

/-- The status of a code of a READ_RESP, and of a LAND_ACK or SIG_STATUS (15 R327). -/
def statusOfResp (c : Nat) : Status := if c = 0 then .ok else if c = 1 then .denied else if c = 2 then .unmapped else if c = 3 then .ecc else .dropped
def statusOfAck (c : Nat) : Status := if c = 0 then .ok else if c = 1 then .denied else if c = 2 then .unmapped else if c = 3 then .dropped else .ecc

/-- A READ_RESP for tile `t`. Whether the target marked it cacheable the packet does not say: a free choice (log 20). -/
def State.applyResp (s : State) (b : List Byte) : State :=
  if h : pktTile b < 1200 then
    after s.draw.2 (execReadResp ⟨pktTile b, h⟩ (BitVec.ofNat 32 (pktTag b % 2 ^ 24)) (BitVec.ofNat 8 (pktTag b / 2 ^ 24)) (statusOfResp (le b 16 1))
      (sub b 32 (le b 24 2)) (Config.freeChoice s.free % 2 == 1) s.draw.2)
  else s

/-- An answer of CTRL: LAND_ACK, SIG_STATUS or UNREACHABLE. -/
def State.applyCtrl (s : State) (b : List Byte) : State :=
  let t := BitVec.ofNat 11 (pktTile b)
  let tag := BitVec.ofNat 32 (pktTag b % 2 ^ 24)
  let ep := BitVec.ofNat 8 (pktTag b / 2 ^ 24)
  if pktSub b = 4 then after s (execLandAck t tag ep (statusOfAck (le b 17 1)) (BitVec.ofNat 8 (le b 18 1)) (le b 20 2) s)
  else if pktSub b = 5 then
    (if h : pktTile b < 1200 then after s (execSigStatus ⟨pktTile b, h⟩ tag ep (statusOfAck (le b 17 1)) s) else s)
  else if pktSub b = 6 then after s (execUnreachable t tag ep (BitVec.ofNat 8 (le b 17 1)) (BitVec.ofNat 8 (le b 18 1)) s)
  else s

/-- A logged packet for this device applied, as its own command would be; the storage it reaches meets no new error. -/
def State.applyPkt (s : State) (p : Nat) (b : List Byte) : State :=
  let r := packetReq p b
  if pktType b = 1 then s.writeArrives r (sub b 32 (le b 26 2)) (BitVec.ofNat 8 (le b 24 1)) []
  else if pktType b = 2 then after s (execRead r (le b 24 2) [] s)
  else if pktType b = 3 then s.applyResp b
  else if pktType b = 4 then after s (execSignalPacket r (BitVec.ofNat 8 (le b 28 1)) (BitVec.ofNat 32 (le b 24 4)) s)
  else if pktType b = 5 then
    after s (execReduce r.src (BitVec.ofNat 8 (le b 16 1)) (BitVec.ofNat 8 (le b 17 1)) (BitVec.ofNat 16 (le b 18 2)) (BitVec.ofNat 16 (le b 20 2))
      (BitVec.ofNat 8 (le b 22 1)) (b.drop 32) s)
  else if pktType b = 7 then
    after s (execRelay r.src r.tile (BitVec.ofNat 32 (pktTag b)) (BitVec.ofNat 32 (le b 16 4)) (BitVec.ofNat 32 (le b 20 4)) (BitVec.ofNat 64 (le b 24 8))
      (b.drop 32) s)
  else s.applyCtrl b

/-- A logged packet: applied here, or taken on its way. -/
def State.replayPkt (s : State) (p : Nat) (b : List Byte) : State := if s.forUs b then s.applyPkt p b else s.takePkt p b

/-- The end of a RESUME_REPLAY that a command has begun. -/
def State.replayed (s : State) : State :=
  match s.stop.replay with
  | none => s
  | some l => (l.foldl (fun (a : State) e => a.replayPkt e.1 e.2) { s with stop := {} }).resumeIssue

/-- RESUME_REPLAY. -/
def execResumeReplay (m : Master) (s : State) : Res := ok (s.resumeReplay m).replayed

/-! The commands whose write may be a RESUME_REPLAY. -/

/-- REG_WRITE: a write to a register (00 R9), checked for width, alignment and rights. One of the host marked poisoned is dropped (22 R451). -/
def execRegWrite (m : Master) (off : BitVec 26) (size : Nat) (v : Dword) (s : State) (poisoned : Bool := false) : Res :=
  if s.dark then ok s
  else if poisoned && m == .host then ok s.poisoned
  else
    match s.check m (0xFFFFFC000000 + off.toNat) size 2 false with
    | (s1, .ok _) => ok (s1.regWriteAt m off.toNat size v.toNat).replayed
    | (s1, _) => ok s1

/-- WRITE. -/
def execWrite (r : Req) (data : List Byte) (lc : Byte) (errs : List BurstErr) (s : State) : Res :=
  ok (s.writeArrives r data lc errs).replayed

/-- HOST_MEM_WRITE: to BAR2, BAR4 or configuration space. A poisoned one is dropped (22 R451). -/
def execHostMemWrite (off : BitVec 41) (data : List Byte) (poisoned : Bool) (errs : List BurstErr) (s : State) (space : HostSpace := .bar2) : Res :=
  match space with
  | .bar2 => ok (s.hostWrites off data poisoned errs).replayed
  | .bar4 =>
    if !s.linkUp || s.dark then ok s
    else if poisoned then ok s.poisoned
    else ok (s.msixWrites off.toNat data)
  | c =>
    if s.configOpen && s.beforeFuses then ok (s.sends .retryStatus)
    else if !s.linkUp then ok s
    else if poisoned then ok s.poisoned
    else ok (s.configWrite data c)

/-- SHELF_INBOUND_REQUEST. -/
def execShelfInboundRequest (write : Bool) (addr : Dword) (n : Nat) (data : List Byte) (errs : List BurstErr) (s : State) : Res :=
  ok (s.shelfRequest write addr n data errs).replayed

end Sys2Proof.Machine
end

