-- ==== Sys2Proof/Machine/Dispatch.lean ====
section
/-! DEFINITION. The meaning of each command: one arm per constructor of `Instr`, one direct call each. -/

namespace Sys2Proof.Machine

/-- The effect of a command on everything but the queue. -/
def exec (i : Instr) (s : State) : Host.Outcome State Fault Refusal :=
  match i with
  | .regWrite m off size v p => Sys2Proof.Machine.execRegWrite m off size v s p
  | .bridgeFlit b flit => Sys2Proof.Machine.execBridgeFlit b flit s
  | .bridgeRetrainEnd b ok => Sys2Proof.Machine.execBridgeRetrainEnd b ok s
  | .ucieTrained oe fast => Sys2Proof.Machine.execUcieTrained oe fast s
  | .oeRequest oe write addr size data => Sys2Proof.Machine.execOeRequest oe write addr size data s
  | .auxPowerOn i' v48 => Sys2Proof.Machine.execAuxPowerOn i' s v48
  | .vinReturn i' => Sys2Proof.Machine.execVinReturn i' s
  | .vinRangeFault mv => Sys2Proof.Machine.execVinRangeFault mv s
  | .vinLowShutdown mv => Sys2Proof.Machine.execVinLowShutdown mv s
  | .warmStart m i' => Sys2Proof.Machine.execWarmStart m i' s
  | .coldStart m i' => Sys2Proof.Machine.execColdStart m i' s
  | .startRetry i' => Sys2Proof.Machine.execStartRetry i' s
  | .stepTimeout => Sys2Proof.Machine.execStepTimeout s
  | .stowLoad m => Sys2Proof.Machine.execStowLoad m s
  | .stowStage m => Sys2Proof.Machine.execStowStage m s
  | .stowSchedule m => Sys2Proof.Machine.execStowSchedule m s
  | .stowDiscard m => Sys2Proof.Machine.execStowDiscard m s
  | .stowCopyComplete image hostFail errs => Sys2Proof.Machine.execStowCopyComplete image hostFail errs s
  | .tickEdge => Sys2Proof.Machine.execTickEdge s
  | .tickInEdge phase => Sys2Proof.Machine.execTickInEdge phase s
  | .tickFrame frame => Sys2Proof.Machine.execTickFrame frame s
  | .tick p tn offset depth holdover arrival => Sys2Proof.Machine.execTick p tn offset depth holdover arrival s
  | .tickEdgeMissing => Sys2Proof.Machine.execTickEdgeMissing s
  | .tickLockTimeout => Sys2Proof.Machine.execTickLockTimeout s
  | .delayReq p t1 t2 t3 => Sys2Proof.Machine.execDelayReq p t1 t2 t3 s
  | .delayResp p t1 t2 t3 t4 => Sys2Proof.Machine.execDelayResp p t1 t2 t3 t4 s
  | .tbActAdd m type => Sys2Proof.Machine.execTbActAdd m type s
  | .tbActCancel m slot => Sys2Proof.Machine.execTbActCancel m slot s
  | .relock m => Sys2Proof.Machine.execRelock m s
  | .resumeReplay m => Sys2Proof.Machine.execResumeReplay m s
  | .resumeDiscard m => Sys2Proof.Machine.execResumeDiscard m s
  | .clearStats m => Sys2Proof.Machine.execClearStats m s
  | .globalStop => Sys2Proof.Machine.execGlobalStop s
  | .stopDoneSend => Sys2Proof.Machine.execStopDoneSend s
  | .stopDone p => Sys2Proof.Machine.execStopDone p s
  | .stopPortOpen => Sys2Proof.Machine.execStopPortOpen s
  | .stop p => Sys2Proof.Machine.execStop p s
  | .snapshotCut => Sys2Proof.Machine.execSnapshotCut s
  | .phaseStart => Sys2Proof.Machine.execPhaseStart s
  | .tableSwap => Sys2Proof.Machine.execTableSwap s
  | .hbmTableSwap => Sys2Proof.Machine.execHbmTableSwap s
  | .fwActivate => Sys2Proof.Machine.execFwActivate s
  | .selftestSlot => Sys2Proof.Machine.execSelftestSlot s
  | .counterSample => Sys2Proof.Machine.execCounterSample s
  | .powerRamp => Sys2Proof.Machine.execPowerRamp s
  | .accClearCounts m => Sys2Proof.Machine.execAccClearCounts m s
  | .accClearLog m => Sys2Proof.Machine.execAccClearLog m s
  | .write r data lc errs => Sys2Proof.Machine.execWrite r data lc errs s
  | .read r n errs p ext => Sys2Proof.Machine.execRead r n errs s p ext
  | .readResp t tag epoch status data cacheable poisoned => Sys2Proof.Machine.execReadResp t tag epoch status data cacheable s poisoned
  | .landAck t tag epoch status lc bytes => Sys2Proof.Machine.execLandAck t tag epoch status lc bytes s
  | .sigStatus t tag epoch status => Sys2Proof.Machine.execSigStatus t tag epoch status s
  | .unreachable t tag epoch reason lost => Sys2Proof.Machine.execUnreachable t tag epoch reason lost s
  | .signalPacket r ctr n => Sys2Proof.Machine.execSignalPacket r ctr n s
  | .mNop t => Sys2Proof.Machine.execMNop t s
  | .mCfg t => Sys2Proof.Machine.execMCfg t s
  | .mSeed t ecc => Sys2Proof.Machine.execMSeed t ecc s
  | .mMma t ecc => Sys2Proof.Machine.execMMma t ecc s
  | .mDrain t ecc upset => Sys2Proof.Machine.execMDrain t ecc upset s
  | .arrayClockGate t => Sys2Proof.Machine.execArrayClockGate t s
  | .powerGrant d => Sys2Proof.Machine.execPowerGrant d s
  | .engineCommandComplete t e k => Sys2Proof.Machine.execEngineCommandComplete t e s k
  | .vNop t => Sys2Proof.Machine.execVNop t s
  | .vRun t ecc => Sys2Proof.Machine.execVRun t ecc s
  | .vMv t ecc => Sys2Proof.Machine.execVMv t ecc s
  | .vProbe m t size ctr => Sys2Proof.Machine.execVProbe m t size ctr s
  | .alu i' => Sys2Proof.Machine.execAlu i' s
  | .addi i' => Sys2Proof.Machine.execAddi i' s
  | .andi i' => Sys2Proof.Machine.execAndi i' s
  | .ori i' => Sys2Proof.Machine.execOri i' s
  | .xori i' => Sys2Proof.Machine.execXori i' s
  | .shi i' => Sys2Proof.Machine.execShi i' s
  | .lui i' => Sys2Proof.Machine.execLui i' s
  | .ldW i' => Sys2Proof.Machine.execLdW i' s
  | .stW i' => Sys2Proof.Machine.execStW i' s
  | .ldG i' => Sys2Proof.Machine.execLdG i' s
  | .ldGc i' => Sys2Proof.Machine.execLdGc i' s
  | .stG i' => Sys2Proof.Machine.execStG i' s
  | .regR i' => Sys2Proof.Machine.execRegR i' s
  | .regW i' => Sys2Proof.Machine.execRegW i' s
  | .regR64 i' => Sys2Proof.Machine.execRegR64 i' s
  | .regW64 i' => Sys2Proof.Machine.execRegW64 i' s
  | .beq i' => Sys2Proof.Machine.execBeq i' s
  | .bne i' => Sys2Proof.Machine.execBne i' s
  | .blt i' => Sys2Proof.Machine.execBlt i' s
  | .bge i' => Sys2Proof.Machine.execBge i' s
  | .bltu i' => Sys2Proof.Machine.execBltu i' s
  | .bgeu i' => Sys2Proof.Machine.execBgeu i' s
  | .jal i' => Sys2Proof.Machine.execJal i' s
  | .jalr i' => Sys2Proof.Machine.execJalr i' s
  | .cw i' => Sys2Proof.Machine.execCw i' s
  | .enq i' => Sys2Proof.Machine.execEnq i' s
  | .enqs i' => Sys2Proof.Machine.execEnqs i' s
  | .signal i' => Sys2Proof.Machine.execSignal i' s
  | .signalR i' => Sys2Proof.Machine.execSignalR i' s
  | .wait i' => Sys2Proof.Machine.execWait i' s
  | .waitAcq i' => Sys2Proof.Machine.execWaitAcq i' s
  | .take i' => Sys2Proof.Machine.execTake i' s
  | .set i' => Sys2Proof.Machine.execSet i' s
  | .lwait i' => Sys2Proof.Machine.execLwait i' s
  | .lwaitAcq i' => Sys2Proof.Machine.execLwaitAcq i' s
  | .fenceLocal i' => Sys2Proof.Machine.execFenceLocal i' s
  | .fenceRemote i' => Sys2Proof.Machine.execFenceRemote i' s
  | .cinvRemote i' => Sys2Proof.Machine.execCinvRemote i' s
  | .cinvAll i' => Sys2Proof.Machine.execCinvAll i' s
  | .time i' => Sys2Proof.Machine.execTime i' s
  | .evt i' => Sys2Proof.Machine.execEvt i' s
  | .trap i' => Sys2Proof.Machine.execTrap i' s
  | .halt i' => Sys2Proof.Machine.execHalt i' s
  | .tileFinish t => Sys2Proof.Machine.execTileFinish t s
  | .bayAbort t => Sys2Proof.Machine.execBayAbort t s
  | .tileQuiescent t => Sys2Proof.Machine.execTileQuiescent t s
  | .bayRelease b => Sys2Proof.Machine.execBayRelease b s
  | .chainRow t chain row vals mismatch => Sys2Proof.Machine.execChainRow t chain row vals mismatch s
  | .vaultRow st src round row vals ecc mismatch => Sys2Proof.Machine.execVaultRow st src round row vals ecc mismatch s
  | .reduce src kind fmt id round row data ecc mismatch => Sys2Proof.Machine.execReduce src kind fmt id round row data s ecc mismatch
  | .dNop t => Sys2Proof.Machine.execDNop t s
  | .dCopy t ecc => Sys2Proof.Machine.execDCopy t ecc s
  | .dRun t ecc => Sys2Proof.Machine.execDRun t ecc s
  | .dDrop t => Sys2Proof.Machine.execDDrop t s
  | .dRespTimeout t tag => Sys2Proof.Machine.execDRespTimeout t tag s
  | .dAbortTimeout t => Sys2Proof.Machine.execDAbortTimeout t s
  | .writeAckTimeout t tag => Sys2Proof.Machine.execWriteAckTimeout t tag s
  | .tileSyncSignal m t size ctr n => Sys2Proof.Machine.execTileSyncSignal m t size ctr n s
  | .tileSyncSet m t size ctr v => Sys2Proof.Machine.execTileSyncSet m t size ctr v s
  | .dbgSyncSet m size tile ctr v => Sys2Proof.Machine.execDbgSyncSet m size tile ctr v s
  | .doorbell m q tail => Sys2Proof.Machine.execDoorbell m q tail s
  | .ringFetch q hostData errs => Sys2Proof.Machine.execRingFetch q hostData errs s
  | .nop q => Sys2Proof.Machine.execNop q s
  | .launch q => Sys2Proof.Machine.execLaunch q s
  | .copy q => Sys2Proof.Machine.execCopy q s
  | .copyUnitDone d hostData errs confirmed => Sys2Proof.Machine.execCopyUnitDone d hostData errs s confirmed
  | .fenceSignal q => Sys2Proof.Machine.execFenceSignal q s
  | .fenceWait q hostValue errs => Sys2Proof.Machine.execFenceWait q hostValue errs s
  | .fencePoll q hostValue errs n => Sys2Proof.Machine.execFencePoll q hostValue errs s n
  | .tickWait q => Sys2Proof.Machine.execTickWait q s
  | .tickWaitExpiry q => Sys2Proof.Machine.execTickWaitExpiry q s
  | .snapshotCutPacket q => Sys2Proof.Machine.execSnapshotCutPacket q s
  | .timestamp q => Sys2Proof.Machine.execTimestamp q s
  | .jump q => Sys2Proof.Machine.execJump q s
  | .fenceWriteConfirm q ok => Sys2Proof.Machine.execFenceWriteConfirm q ok s
  | .queueTimeout q => Sys2Proof.Machine.execQueueTimeout q s
  | .bayReset b x => Sys2Proof.Machine.execBayReset b s x
  | .bayResetEnd b => Sys2Proof.Machine.execBayResetEnd b s
  | .create m q => Sys2Proof.Machine.execCreate m q s
  | .destroy m q => Sys2Proof.Machine.execDestroy m q s
  | .resume m q => Sys2Proof.Machine.execResume m q s
  | .feClearCounts m => Sys2Proof.Machine.execFeClearCounts m s
  | .hbmScrub st pc errs => Sys2Proof.Machine.execHbmScrub st pc errs s
  | .hbmRowCopyDone st uncorrectable => Sys2Proof.Machine.execHbmRowCopyDone st uncorrectable s
  | .hbmTempRead st temp => Sys2Proof.Machine.execHbmTempRead st temp s
  | .hbmRetAdd m st => Sys2Proof.Machine.execHbmRetAdd m st s
  | .hbmRetSchedule m st => Sys2Proof.Machine.execHbmRetSchedule m st s
  | .hbmRetDiscard m st => Sys2Proof.Machine.execHbmRetDiscard m st s
  | .hbmTempClear m st => Sys2Proof.Machine.execHbmTempClear m st s
  | .linkFlit p flit fecBad fecFixed => Sys2Proof.Machine.execLinkFlit p flit fecBad s fecFixed
  | .egressStallDrop p vc => Sys2Proof.Machine.execEgressStallDrop p vc s
  | .linkTrained p => Sys2Proof.Machine.execLinkTrained p s
  | .linkTrainTimeout p => Sys2Proof.Machine.execLinkTrainTimeout p s
  | .linkRetrainTimeout p => Sys2Proof.Machine.execLinkRetrainTimeout p s
  | .laneLockLoss p lane => Sys2Proof.Machine.execLaneLockLoss p lane s
  | .laneBerCheck p lane above => Sys2Proof.Machine.execLaneBerCheck p lane above s
  | .hello p src digest => Sys2Proof.Machine.execHello p src digest s
  | .membership p src period digest fenced hops => Sys2Proof.Machine.execMembership p src period digest fenced hops s
  | .lnkRetrain m p => Sys2Proof.Machine.execLnkRetrain m p s
  | .lnkDisable m p => Sys2Proof.Machine.execLnkDisable m p s
  | .lnkEnable m p => Sys2Proof.Machine.execLnkEnable m p s
  | .snapRelease errs confirmed => Sys2Proof.Machine.execSnapRelease s errs confirmed
  | .snapAckTimeout => Sys2Proof.Machine.execSnapAckTimeout s
  | .snapCommitTimeout => Sys2Proof.Machine.execSnapCommitTimeout s
  | .snapCommitPoll => Sys2Proof.Machine.execSnapCommitPoll s
  | .shelfIoComplete ok => Sys2Proof.Machine.execShelfIoComplete ok s
  | .restore m src => Sys2Proof.Machine.execRestore m src s
  | .restoreComplete src => Sys2Proof.Machine.execRestoreComplete src s
  | .replayCheck m src => Sys2Proof.Machine.execReplayCheck m src s
  | .witness m => Sys2Proof.Machine.execWitness m s
  | .snapAbandon m => Sys2Proof.Machine.execSnapAbandon m s
  | .snapClearError m => Sys2Proof.Machine.execSnapClearError m s
  | .engineWatchdog t e => Sys2Proof.Machine.execEngineWatchdog t e s
  | .selftestDone u pass words bad => Sys2Proof.Machine.execSelftestDone u pass s words bad
  | .safetyDegraded b => Sys2Proof.Machine.execSafetyDegraded b s
  | .pretest m die row col => Sys2Proof.Machine.execPretest m die row col s
  | .pretestDone pass us => Sys2Proof.Machine.execPretestDone pass us s
  | .markSuspect m die row col => Sys2Proof.Machine.execMarkSuspect m die row col s
  | .reportMismatch m => Sys2Proof.Machine.execReportMismatch m s
  | .safeClearCounts m => Sys2Proof.Machine.execSafeClearCounts m s
  | .domainFault i' raw => Sys2Proof.Machine.execDomainFault i' raw s
  | .dieTempSample d raw => Sys2Proof.Machine.execDieTempSample d raw s
  | .powerSample i' => Sys2Proof.Machine.execPowerSample i' s
  | .sitePowerUp d => Sys2Proof.Machine.execSitePowerUp d s
  | .mothball m => Sys2Proof.Machine.execMothball m s
  | .mothballEntry => Sys2Proof.Machine.execMothballEntry s
  | .wake m => Sys2Proof.Machine.execWake m s
  | .wakeComplete => Sys2Proof.Machine.execWakeComplete s
  | .ownerRegister m => Sys2Proof.Machine.execOwnerRegister m s
  | .ownerRevoke m => Sys2Proof.Machine.execOwnerRevoke m s
  | .deploy m => Sys2Proof.Machine.execDeploy m s
  | .returnCmd m i' => Sys2Proof.Machine.execReturnCmd m i' s
  | .debugUnlock m => Sys2Proof.Machine.execDebugUnlock m s
  | .close m => Sys2Proof.Machine.execClose m s
  | .getVersion => Sys2Proof.Machine.execGetVersion s
  | .getCapabilities => Sys2Proof.Machine.execGetCapabilities s
  | .negotiateAlgorithms => Sys2Proof.Machine.execNegotiateAlgorithms s
  | .getDigests => Sys2Proof.Machine.execGetDigests s
  | .getCertificate slot offset length => Sys2Proof.Machine.execGetCertificate slot offset length s
  | .challenge slot nonce a b => Sys2Proof.Machine.execChallenge slot nonce s a b
  | .getMeasurements index nonce ctx signed => Sys2Proof.Machine.execGetMeasurements index nonce s ctx signed
  | .spdmUnsupported code => Sys2Proof.Machine.execSpdmUnsupported code s
  | .evtFreeze m => Sys2Proof.Machine.execEvtFreeze m s
  | .evtThaw m => Sys2Proof.Machine.execEvtThaw m s
  | .digCfgWrite m t n size high v => Sys2Proof.Machine.execDigCfgWrite m t n size high v s
  | .dumpArm m => Sys2Proof.Machine.execDumpArm m s
  | .dumpCancel m => Sys2Proof.Machine.execDumpCancel m s
  | .dumpCopyDone hostOk errs => Sys2Proof.Machine.execDumpCopyDone hostOk errs s
  | .fwPrepare m => Sys2Proof.Machine.execFwPrepare m s
  | .fwPrepareDone => Sys2Proof.Machine.execFwPrepareDone s
  | .fwStage m errs ext => Sys2Proof.Machine.execFwStage m errs s ext
  | .fwChunkProgrammed ok => Sys2Proof.Machine.execFwChunkProgrammed ok s
  | .relay src tile tag index count id data => Sys2Proof.Machine.execRelay src tile tag index count id data s
  | .fwRelayRetry => Sys2Proof.Machine.execFwRelayRetry s
  | .fwRelayStall => Sys2Proof.Machine.execFwRelayStall s
  | .fwSchedule m => Sys2Proof.Machine.execFwSchedule m s
  | .fwDiscard m => Sys2Proof.Machine.execFwDiscard m s
  | .fwReject m => Sys2Proof.Machine.execFwReject m s
  | .fwRelayAgain m => Sys2Proof.Machine.execFwRelayAgain m s
  | .fwActivationDone => Sys2Proof.Machine.execFwActivationDone s
  | .fwConfirm diesAnswer probes => Sys2Proof.Machine.execFwConfirm diesAnswer s probes
  | .fwTrialTimeout => Sys2Proof.Machine.execFwTrialTimeout s
  | .hostMemWrite off data poisoned errs sp => Sys2Proof.Machine.execHostMemWrite off data poisoned errs s sp
  | .hostMemRead off n poisoned errs sp ext => Sys2Proof.Machine.execHostMemRead off n poisoned errs s sp ext
  | .bar2WindowWrite m base => Sys2Proof.Machine.execBar2WindowWrite m base s
  | .msixUnmask v => Sys2Proof.Machine.execMsixUnmask v s
  | .perstAssert => Sys2Proof.Machine.execPerstAssert s
  | .perstRelease i' => Sys2Proof.Machine.execPerstRelease i' s
  | .hotReset i' => Sys2Proof.Machine.execHotReset i' s
  | .hostD3hot => Sys2Proof.Machine.execHostD3hot s
  | .hostD0 => Sys2Proof.Machine.execHostD0 s
  | .hostLinkDown => Sys2Proof.Machine.execHostLinkDown s
  | .shelfAttach m probe => Sys2Proof.Machine.execShelfAttach m probe s
  | .shelfRelease m => Sys2Proof.Machine.execShelfRelease m s
  | .shelfInboundRequest write addr n data errs => Sys2Proof.Machine.execShelfInboundRequest write addr n data errs s
  | .shelfCmdTimeout => Sys2Proof.Machine.execShelfCmdTimeout s
  | .shelfHealthPoll wear good => Sys2Proof.Machine.execShelfHealthPoll wear s good
  | .entdaa a => Sys2Proof.Machine.execEntdaa a s
  | .setdasa a target => Sys2Proof.Machine.execSetdasa a s target
  | .rstdaa => Sys2Proof.Machine.execRstdaa s
  | .getpid => Sys2Proof.Machine.execGetpid s
  | .getbcr => Sys2Proof.Machine.execGetbcr s
  | .getdcr => Sys2Proof.Machine.execGetdcr s
  | .getstatus => Sys2Proof.Machine.execGetstatus s
  | .getmwl => Sys2Proof.Machine.execGetmwl s
  | .setmwl n => Sys2Proof.Machine.execSetmwl n s
  | .enec => Sys2Proof.Machine.execEnec s
  | .disec => Sys2Proof.Machine.execDisec s
  | .i3cOtherCcc ccc => Sys2Proof.Machine.execI3cOtherCcc ccc s
  | .i3cPrivateWrite bytes input target => Sys2Proof.Machine.execI3cPrivateWrite bytes input s target
  | .i3cPrivateRead target => Sys2Proof.Machine.execI3cPrivateRead s target
  | .auxPowerOff => Sys2Proof.Machine.execAuxPowerOff s
  | .hostLinkUp => Sys2Proof.Machine.execHostLinkUp s
  | .tckEdge rising tms tdi => Sys2Proof.Machine.execTckEdge rising tms tdi s
  | .pwrBudgetRead m off size => Sys2Proof.Machine.execPwrBudgetRead m off size s
  | .oPortLockLoss p => Sys2Proof.Machine.execOPortLockLoss p s

end Sys2Proof.Machine
end

