-- ==== Sys2Proof/Safety.lean ====
section
/-! DEFINITION. The words the claims use: when a master's register write is let through, when S issues an instruction, when an engine's head
command starts, which memories stand in canonical form. -/

namespace Sys2Proof.Machine

/-- The step answers a next state. -/
def State.goesOn (s : State) : Prop := ∃ t, step s = .next t

/-- Master `m` writes the register at window offset `off` now: the block is powered and out of reset, and the tables permit it
(04 R80 to R83; 18 R386, 22 R453). In RECOVERY it also needs to be an operation that the recovery image offers (21 R448). -/
def State.lets (s : State) (m : Master) (off : Nat) : Bool := !s.dark && (s.guard m off).2 && s.offers off

/-- The register write that a command stands for: its master, the window offset and the bytes written (00 R9; 04 R83, R85). A SUBMIT is one only of
the command that its bank's buffer holds (19 R407). -/
def State.controlOf (s : State) (c : Instr) : Option (Master × Nat × Nat) :=
  let sec := fun (m : Master) (k : Nat) =>
    let bank := (bankOfMaster m).getD 0
    if s.secFits bank k then some (m, secCtrl bank, 8) else none
  match c with
  | .regWrite m off size _ false => some (m, off.toNat, size)
  | .warmStart m _ | .coldStart m _ | .mothball m | .wake m => some (m, pwrCtrl, 8)
  | .stowLoad m | .stowStage m | .stowSchedule m | .stowDiscard m => some (m, stowCtrl, 8)
  | .tbActAdd m _ | .tbActCancel m _ => some (m, actCmd, 8)
  | .relock m | .resumeReplay m | .resumeDiscard m | .clearStats m => some (m, tbCtrl, 8)
  | .accClearCounts m | .accClearLog m => some (m, accCtrl, 8)
  | .vProbe m t size _ => some (m, tileOff t 0x1118, size)
  | .tileSyncSignal m t size _ _ => some (m, tileOff t 0x1A08, size)
  | .tileSyncSet m t size _ _ => some (m, tileOff t 0x1A10, size)
  | .digCfgWrite m t n size high _ => some (m, tileOff t (0x3000 + 0x100 * n.val + (if size = 4 && high then 4 else 0)), size)
  | .dbgSyncSet m size _ _ _ => some (m, 0x50100, size)
  | .doorbell m q _ => some (m, doorbellOff q, 8)
  | .create m q | .destroy m q | .resume m q => some (m, queueOff q 0x28, 8)
  | .feClearCounts m => some (m, 0x800010, 8)
  | .hbmRetAdd m st | .hbmRetSchedule m st | .hbmRetDiscard m st => some (m, stackOff st 0x20, 8)
  | .hbmTempClear m st => some (m, stackOff st 8, 8)
  | .lnkRetrain m p | .lnkDisable m p | .lnkEnable m p => some (m, lnkCtrlOff p, 8)
  | .restore m _ | .replayCheck m _ | .witness m | .snapAbandon m | .snapClearError m => some (m, snapCtrl, 8)
  | .pretest m _ _ _ | .markSuspect m _ _ _ => some (m, safeRepair, 8)
  | .reportMismatch m | .safeClearCounts m => some (m, safeCtrl, 8)
  | .ownerRegister m => sec m 1
  | .ownerRevoke m => sec m 2
  | .deploy m => sec m 3
  | .returnCmd m _ => sec m 4
  | .debugUnlock m => sec m 5
  | .close m => some (m, secCtrl ((bankOfMaster m).getD 0), 8)
  | .evtFreeze m | .evtThaw m => some (m, evtFreezeOff, 8)
  | .dumpArm m | .dumpCancel m => some (m, dumpCtrl, 8)
  | .fwPrepare m | .fwStage m _ _ | .fwSchedule m | .fwDiscard m | .fwReject m | .fwRelayAgain m => some (m, fwCtrl, 8)
  | .bar2WindowWrite m _ => some (m, 0x800, 8)
  | .shelfAttach m _ | .shelfRelease m => some (m, shelfCtrl, 8)
  | _ => none

/-- S of the tile issues the instruction now, as row `op` (08 R164 to R176): the tile may issue, the fetched line holds the word, the word is
valid and carries the opcode, it waits for nothing, both copies of S agree, and its storage read met no error. -/
def State.issues (s : State) (i : SIssue) (op : Nat) : Bool :=
  let x := s.tile i.tile
  let w := i.word.toNat
  s.sFree i.tile && !x.pcOut &&
  (match lineAt x.icache x.fetchAddr with
   | some l => leNat (sub l.data (x.fetchAddr % 64) 4) == w
   | none => false) &&
  sOp w == op && sValid w && x.blocks w == 0 && !i.diverge && !i.parity && i.ecc == .ok

/-- The tile once S has issued the instruction: no wait, PC at the next word (08 R166), no load outstanding to a register that it overwrites. -/
def State.issued (s : State) (i : SIssue) : Tile :=
  ((s.tile i.tile).overwrites i.word.toNat).unstall.setPc ((s.tile i.tile).pc + 4)

/-- The state in which S has issued the instruction. -/
def State.sIssued (s : State) (i : SIssue) : State := s.setTile i.tile (s.issued i)

/-- In `s`, where S looks at row `op` of the machine `s0`, it issues the instruction. -/
def State.sRuns (s0 : State) (i : SIssue) (op : Nat) (s : State) : Prop := s = s0.sAt i op ∧ s.issues i op = true

/-- The memories outside the tiles stand in canonical form: HBM, shelf staging memory, the firmware banks, the recovery image, the optical
engines' apertures. -/
def State.memsWf (s : State) : Bool :=
  s.hbm.wf && s.shelf.staging.wf && s.fw.bankA.wf && s.fw.bankB.wf && s.fw.recovery.wf && s.pkg.oa.aperture.wf && s.pkg.ob.aperture.wf

/-- Bounds that the machine keeps: pending tick actions stand in slots of their own among the 1,024 (03 R57), the power share is at most 16 (18 R397),
at most four chunks of a relay are unacknowledged (21 R441), at most one in-band interrupt of each kind waits (22 R462), and
the MSI-X table stands in canonical form. -/
def State.bounded (s : State) : Bool :=
  decide (s.tb.pend.map (·.slot)).Nodup && s.tb.pend.all (fun a => a.slot < 1024) && decide (s.pwr.power ≤ 16) && decide (s.fw.sent.length ≤ 4) &&
    decide s.i3c.wait.Nodup && s.pcie.table.wf

end Sys2Proof.Machine
end

