-- ==== Sys2Proof/Certificates/Slice0/Obligations.lean ====
section
/-! DEFINITION. What is claimed of the block. A statement about every state holds in states that no run reaches, too. Where a statement names a
command, its next state says the command's whole effect: whatever that state does not change is unchanged. -/

open Sys2Proof Sys2Proof.Machine

/-! The whole block. -/

/-- A step takes the command at the front of the queue and performs it on the rest; with an empty queue one core cycle passes, which is the
model's choice (log 1). -/
def Obligations.AStepRunsTheFrontCommand : Prop :=
  (∀ (s : State) (c : Instr) (rest : List Instr), s.pending = c :: rest → step s = exec c { s with pending := rest }) ∧
  ∀ s : State, s.pending = [] → step s = .next { s with time := s.time + 1 }

/-- No row's meaning stops the block: exec answers a next state for every command with any operands in any state. What that state holds, the
other statements say. That a command whose conditions the state does not admit answers with the state unchanged is log 4. -/
def Obligations.NoRowsMeaningStops : Prop := ∀ (c : Instr) (s : State), ∃ t, exec c s = .next t

/-- Every step keeps the memories outside the tiles in canonical form (HBM, shelf staging memory, both firmware banks, the recovery image, the
optical engines' apertures: the model's own representation, log 2), and these invariants of the block: pending tick actions hold distinct
slots of the 1,024 of 03 R57, the power share is at most 16 of 16 (18 R397), at most four chunks of a relay are unacknowledged (21 R441),
at most one in-band interrupt of each kind waits (22 R462), and the MSI-X table is canonical. A step takes one command off the queue and
puts none on it (log 97), and moves the clock only when it idles (log 1); both are the model's choice. -/
def Obligations.EveryStepKeepsTheBlocksInvariants : Prop :=
  ∀ s t : State, s.memsWf = true → s.bounded = true → step s = .next t →
    t.memsWf = true ∧ t.bounded = true ∧ t.pending = s.pending.tail ∧ t.time = s.time + (if s.pending = [] then 1 else 0)

/-- The state after reset: the stowage block is UNSTOWED (02 R41), every tile IDLE, every queue DISABLED and every port DOWN, as their
registers' reset values say. The memories stand in canonical form and hold nothing (log 2), what has no stated reset value is 0 or empty
(log 5), the invariants hold, and no command waits (log 1): the model's choice. -/
def Obligations.ResetLeavesTheBlockIdle : Prop :=
  State.reset.memsWf = true ∧ State.reset.bounded = true ∧ State.reset.pending = [] ∧ State.reset.stowState = 0 ∧
  (∀ t, (State.reset.tile t).state = 0) ∧ (∀ q, (State.reset.queue q).state = 0) ∧ ∀ p, (State.reset.port p).rd F.LNK_STATUS_state = 0

/-- 04 R70, R71; 08 R169: bytes written to a tile's scratchpad read back as written; every other byte of it and every other tile stand as they
were, and the scratchpad keeps its canonical form. Of the tile nothing else changes but what an M.MMA in progress remembers of the bytes
it overwrites (log 29), and of the block nothing but the count of its die's scratchpad bytes (20 R434). -/
def Obligations.ScratchpadsReadAsWritten : Prop :=
  ∀ (s : State) (t o : Nat) (data : List Byte), (s.tile t).spad.wf = true →
    let u := s.spadWrite t o data
    (u.tile t).spad.read o data.length = data ∧ (∀ a, a < o ∨ o + data.length ≤ a → (u.tile t).spad.get a = (s.tile t).spad.get a) ∧
    (∀ v, v ≠ t → u.tile v = s.tile v) ∧ (u.tile t).spad.wf = true ∧
    u.tile t = { s.tile t with spad := (u.tile t).spad, mmaRun := (u.tile t).mmaRun } ∧
    ((s.tile t).mmaRun = none → (u.tile t).mmaRun = none) ∧
    u = { s with tiles := u.tiles, regs := u.regs }

/-- 01 R12, R13: with column k skipped, logical column L of a row is physical column L when L < k and L + 1 otherwise, column 15 is skipped
where the image says nothing, and tile die × 150 + row × 15 + L stands there; numbers run from 0 to 1199. -/
def Obligations.TilesAreNumberedPastSkippedColumns : Prop :=
  ∀ (i : Image) (die row L : Nat), die < 8 → row < 10 → L < 15 → (i.row die row).absent = false →
    let r := i.row die row
    let t := die * 150 + row * 15 + L
    r.column L = (if L < r.skip1 then L else L + 1) ∧ i.site t = die * 160 + row * 16 + r.column L ∧ t < 1200 ∧
    (({} : Image).row die row).skip1 = 15

/-- 05 R106, R107: conversion from and to IEEE binary16, for every 16-bit word. -/
def Obligations.Binary16ConvertsBothWays : Prop :=
  ∀ w : BitVec 16,
    let n := w.toNat
    let e := n / 1024 % 32
    (e < 31 → w ≠ 0x8000 → fromBinary16 n = ⟨n, 0⟩) ∧ fromBinary16 0x8000 = ⟨0, 0⟩ ∧
    fromBinary16 0x7C00 = ⟨0x7FFF, fSaturate⟩ ∧ fromBinary16 0xFC00 = ⟨0xFFFF, fSaturate⟩ ∧
    (e = 31 → n % 1024 ≠ 0 → fromBinary16 n = ⟨0x8000, fNanIn⟩) ∧
    (e ≤ 30 → w ≠ 0x8000 → toBinary16 n = ⟨n, 0⟩) ∧
    (e = 31 → toBinary16 n = ⟨if n < 0x8000 then 0x7C00 else 0xFC00, fOverflow⟩) ∧ toBinary16 0x8000 = ⟨0x7E00, fNanIn⟩

/-! S, the scalar core (08). `s0.sRuns i op s` says that S issues the instruction in the machine `s0`, which by then stands as `s` (an open cycle of the counters over); `s.issued i` is the tile once it has. -/

/-- 08 R168: the ALU's operations, the immediate forms, the shifts by an immediate and LUI write rd and nothing else but the PC. -/
def Obligations.SArithmeticWritesOnlyRd : Prop :=
  ∀ (s0 s : State) (i : SIssue),
    let x := s.tile i.tile
    let y := s.issued i
    let w := i.word.toNat
    (s0.sRuns i 0x01 s →
      exec (.alu i) s0 = .next (s.setTile i.tile (y.setG (sRd w) (aluOp (sFn w) (x.gr (sRa w)) (x.gr (sRb w)))))) ∧
    (s0.sRuns i 0x02 s →
      exec (.addi i) s0 = .next (s.setTile i.tile (y.setG (sRd w) ((x.gr (sRa w) + sImm w) % 2 ^ 32).toNat))) ∧
    (s0.sRuns i 0x03 s →
      exec (.andi i) s0 = .next (s.setTile i.tile (y.setG (sRd w) (x.gr (sRa w) &&& (sImm w % 2 ^ 32).toNat)))) ∧
    (s0.sRuns i 0x04 s →
      exec (.ori i) s0 = .next (s.setTile i.tile (y.setG (sRd w) (x.gr (sRa w) ||| (sImm w % 2 ^ 32).toNat)))) ∧
    (s0.sRuns i 0x05 s →
      exec (.xori i) s0 = .next (s.setTile i.tile (y.setG (sRd w) (x.gr (sRa w) ^^^ (sImm w % 2 ^ 32).toNat)))) ∧
    (s0.sRuns i 0x06 s →
      exec (.shi i) s0 = .next (s.setTile i.tile (y.setG (sRd w) (aluOp (5 + bitsOf w 22 2) (x.gr (sRa w)) (bitsOf w 17 5))))) ∧
    (s0.sRuns i 0x07 s →
      exec (.lui i) s0 = .next (s.setTile i.tile (y.setG (sRd w) (bitsOf w 12 20 * 4096))))

/-- 08 R168: the twelve operations of the ALU on 32-bit words. -/
def Obligations.AluFollowsItsTable : Prop :=
  ∀ (a b : Word),
    let A := a.toNat
    let B := b.toNat
    aluOp 0 A B = (a + b).toNat ∧ aluOp 1 A B = (a - b).toNat ∧ aluOp 2 A B = (a &&& b).toNat ∧ aluOp 3 A B = (a ||| b).toNat ∧
    aluOp 4 A B = (a ^^^ b).toNat ∧ aluOp 5 A B = (a <<< (B % 32)).toNat ∧ aluOp 6 A B = (a >>> (B % 32)).toNat ∧
    aluOp 7 A B = (a.sshiftRight (B % 32)).toNat ∧ aluOp 8 A B = (if a.toInt < b.toInt then 1 else 0) ∧
    aluOp 9 A B = (if a < b then 1 else 0) ∧ aluOp 10 A B = (a * b).toNat ∧ aluOp 11 A B = A * B / 2 ^ 32

/-- 08 R165: g0 reads as zero and discards what is written to it; any other register reads as it was written, modulo 2³², and no other
register changes; the register file keeps its canonical form. -/
def Obligations.GeneralRegistersReadAsWritten : Prop :=
  ∀ (x : Tile) (n v : Nat),
    x.gr 0 = 0 ∧ x.setG 0 v = x ∧
    (KMap.wf x.g = true →
      KMap.wf (x.setG n v).g = true ∧ (n ≠ 0 → (x.setG n v).gr n = v % 2 ^ 32) ∧ ∀ m, m ≠ n → (x.setG n v).gr m = x.gr m)

/-- 08 R168, R166: a branch compares ra and rb and goes to PC + 4 × offset when its comparison holds; JAL and JALR also write the address of
the next word to rd. The target of JALR is made a multiple of 4 within 24 bits. -/
def Obligations.SBranchesAndJumps : Prop :=
  ∀ (s0 s : State) (i : SIssue),
    let x := s.tile i.tile
    let y := s.issued i
    let w := i.word.toNat
    let a := x.gr (sRd w)
    let b := x.gr (sRa w)
    let goes := fun (c : Bool) => s.setTile i.tile (if c then y.setPc (x.pc + sImm w * 4) else y)
    (s0.sRuns i 0x11 s → exec (.beq i) s0 = .next (goes (a == b))) ∧
    (s0.sRuns i 0x12 s → exec (.bne i) s0 = .next (goes (a != b))) ∧
    (s0.sRuns i 0x13 s → exec (.blt i) s0 = .next (goes (decide (signed 32 a < signed 32 b)))) ∧
    (s0.sRuns i 0x14 s → exec (.bge i) s0 = .next (goes (decide (signed 32 b ≤ signed 32 a)))) ∧
    (s0.sRuns i 0x15 s → exec (.bltu i) s0 = .next (goes (decide (a < b)))) ∧
    (s0.sRuns i 0x16 s → exec (.bgeu i) s0 = .next (goes (decide (b ≤ a)))) ∧
    (s0.sRuns i 0x17 s →
      exec (.jal i) s0 = .next (s.setTile i.tile ((y.setG (sRd w) (x.pc + 4)).setPc (x.pc + signed 20 (bitsOf w 12 20) * 4)))) ∧
    (s0.sRuns i 0x18 s →
      exec (.jalr i) s0 =
        .next (s.setTile i.tile ((y.setG (sRd w) (x.pc + 4)).setPc ((x.index w &&& 0xFFFFFC : Nat) : Int))))

/-- 08 R169: LD.W and ST.W reach the tile's own scratchpad at ra + imm. Aligned and inside the 3 MiB, a load writes the word to rd and a store
changes those four bytes of the scratchpad (a load may see rows of a DRAIN that has not completed, R129: `drainSome`); otherwise the task
aborts with S_MISALIGN or S_BAD_ADDR. 08 R170, R173, R174: with a place free and an aligned address, LD.G asks for a word, LD.GC for a
line unless its line is held (a hit writes rd at once), ST.G updates a held line and writes through; with the places taken S stalls, and a
misaligned address faults with S_MISALIGN. The request carries the bay's code; the load's PC and rd are remembered. So that a location is
reached in program order (11 R235) a load waits in the tile for S's earlier stores of its location and for loads of it that wait, and a
store for S's earlier loads: where they wait is the model's reading (log 64, DEDUCED). -/
def Obligations.SMemoryAccess : Prop :=
  (∀ (s0 s : State) (i : SIssue),
    let x := s.tile i.tile
    let w := i.word.toNat
    let a := x.index w
    (s0.sRuns i 0x08 s →
      (a % 4 = 0 → a + 4 ≤ spadSize →
        let b := ((s.sIssued i).drainSome i.tile).countSpad i.tile 0 4
        exec (.ldW i) s0 = .next (b.setTile i.tile ((b.tile i.tile).setG (sRd w) (leNat ((b.tile i.tile).spad.read a 4))))) ∧
      (a % 4 ≠ 0 → exec (.ldW i) s0 = .next ((s.sIssued i).sFault i.tile 0x02 x.pc)) ∧
      (a % 4 = 0 → spadSize < a + 4 → exec (.ldW i) s0 = .next ((s.sIssued i).sFault i.tile 0x03 x.pc))) ∧
    (s0.sRuns i 0x09 s →
      (a % 4 = 0 → a + 4 ≤ spadSize →
        exec (.stW i) s0 = .next ((s.sIssued i).spadWrite i.tile a (leBytes 4 (x.gr (sRd w))))) ∧
      (a % 4 ≠ 0 → exec (.stW i) s0 = .next ((s.sIssued i).sFault i.tile 0x02 x.pc)) ∧
      (a % 4 = 0 → spadSize < a + 4 → exec (.stW i) s0 = .next ((s.sIssued i).sFault i.tile 0x03 x.pc)))) ∧
  (∀ (s0 s : State) (i : SIssue),
    let t := i.tile.val
    let y := s.issued i
    let w := i.word.toNat
    let pc := (s.tile t).pc
    let a := y.globalAddr (sRa w) (sImm w)
    let c := y.globalAddr (sRa w) (sGoff w)
    let d := leBytes 4 (y.gr (sRd w))
    let asks := fun (kind : Nat) =>
      s.setTile t { y with nextTag := y.nextTag + 1, loads := y.loads ++ [⟨y.nextTag, kind, pc, sRd w, a, true, y.storesAt kind a ++ y.loadsHeld a⟩] }
    let waits := fun (kind : Nat) => y.storesAt kind a ++ y.loadsHeld a ≠ []
    (s0.sRuns i 0x0A s → a % 4 = 0 → y.loadsFull = false → ¬ waits 0 →
      exec (.ldG i) s0 = .next ((asks 0).sendRead ((asks 0).reqOf t .s false y.nextTag a) 4)) ∧
    (s0.sRuns i 0x0B s → a % 4 = 0 →
      (∀ l, lineAt y.dcache a = some l →
        exec (.ldGc i) s0 = .next (s.setTile t (y.setG (sRd w) (leNat (sub l.data (a % 64) 4))))) ∧
      (lineAt y.dcache a = none → y.loadsFull = false → ¬ waits 1 →
        exec (.ldGc i) s0 = .next ((asks 1).sendRead ((asks 1).reqOf t .s false y.nextTag (a / 64 * 64)) 64))) ∧
    (s0.sRuns i 0x0C s → c % 4 = 0 → y.storesFull = false →
      exec (.stG i) s0 = .next ((s.setTile t (({ y with dcache := storeLine y.dcache c d } : Tile).stopFills (fun b => b / 64 == c / 64))).issueWrite
        t .s pc c (sLc w) d (y.loadsAt c)).1) ∧
    (s0.sRuns i 0x0A s → a % 4 = 0 → y.loadsFull = false → waits 0 → exec (.ldG i) s0 = .next (asks 0)) ∧
    (s0.sRuns i 0x0B s → a % 4 = 0 → lineAt y.dcache a = none → y.loadsFull = false → waits 1 →
      exec (.ldGc i) s0 = .next (asks 1)) ∧
    (s0.sRuns i 0x0A s → (a % 4 ≠ 0 → exec (.ldG i) s0 = .next ((s.sIssued i).sFault t 0x02 pc)) ∧
      (a % 4 = 0 → y.loadsFull = true → exec (.ldG i) s0 = .next (s.sStall t 7))) ∧
    (s0.sRuns i 0x0B s → (a % 4 ≠ 0 → exec (.ldGc i) s0 = .next ((s.sIssued i).sFault t 0x02 pc)) ∧
      (a % 4 = 0 → lineAt y.dcache a = none → y.loadsFull = true → exec (.ldGc i) s0 = .next (s.sStall t 7))) ∧
    (s0.sRuns i 0x0C s → (c % 4 ≠ 0 → exec (.stG i) s0 = .next ((s.sIssued i).sFault t 0x02 pc)) ∧
      (c % 4 = 0 → y.storesFull = true → exec (.stG i) s0 = .next (s.sStall t 7))))

/-- 08 R169: an access of the tile's own page at ra + imm, aligned and at a register: a read writes rd, or the pair; a write reaches the
register as the tile's own. Any other offset aborts the task with S_BAD_ADDR. 08 R176, R177: CW writes one word of a staging slot; ENQ
pushes a slot's 64 bytes, ENQS 64 scratchpad bytes. A place free, the command goes to the tail of its engine's queue with the PC of the
push; with none free S stalls, holding the command. -/
def Obligations.SPageAndQueues : Prop :=
  (∀ (s0 s : State) (i : SIssue),
    let t := i.tile.val
    let x := s.tile t
    let y := s.issued i
    let w := i.word.toNat
    let o := x.index w
    let s1 := s.sIssued i
    (s0.sRuns i 0x0D s → regOk o 4 = true →
      exec (.regR i) s0 = .next (s.setTile t (y.setG (sRd w) (bits (s1.tileView t (o - o % 8)) (8 * (o % 8)) 32)))) ∧
    (s0.sRuns i 0x0F s → regOk o 8 = true →
      exec (.regR64 i) s0 = .next (s.setTile t (y.setPair (sRd w) (s1.tileView t o).toNat))) ∧
    (s0.sRuns i 0x0E s → regOk o 4 = true → exec (.regW i) s0 = .next (s1.tileWrite none t o 4 (x.gr (sRd w)))) ∧
    (s0.sRuns i 0x10 s → regOk o 8 = true → exec (.regW64 i) s0 = .next (s1.tileWrite none t o 8 (x.pair (sRd w)))) ∧
    (s0.sRuns i 0x0D s → regOk o 4 = false → exec (.regR i) s0 = .next (s1.sFault t 0x03 x.pc)) ∧
    (s0.sRuns i 0x0E s → regOk o 4 = false → exec (.regW i) s0 = .next (s1.sFault t 0x03 x.pc)) ∧
    (s0.sRuns i 0x0F s → regOk o 8 = false → exec (.regR64 i) s0 = .next (s1.sFault t 0x03 x.pc)) ∧
    (s0.sRuns i 0x10 s → regOk o 8 = false → exec (.regW64 i) s0 = .next (s1.sFault t 0x03 x.pc))) ∧
  (∀ (s0 s : State) (i : SIssue),
    let t := i.tile.val
    let x := s.tile t
    let y := s.issued i
    let w := i.word.toNat
    let e := engOfQ (sQ w)
    let pushed := fun (a : State) (y : Tile) (b : List Byte) =>
      let c : Cmd := { bytes := b, pc := x.pc, seq := y.pushes }
      let z := { y with pushes := y.pushes + 1 }
      if (y.q e).length < qSize e then (z.setQ e (z.q e ++ [c])).lookHead a.tn a.sinceEdge e
      else z.stallFor a.time 1 (.queueFull e c)
    let s2 := ((s.sIssued i).drainSome t).countSpad t 0 64
    let y2 := s2.tile t
    (s0.sRuns i 0x20 s →
      ∃ st, exec (.cw i) s0 = .next (s.setTile t { y with stage := st }) ∧
        (KMap.wf y.stage = true → ∀ k, kget st k 0 =
          if k = stageKey (sQ w) (y.slotOf w) (sWord w) then BitVec.ofNat 32 (y.gr (sEa w)) else kget y.stage k 0)) ∧
    (s0.sRuns i 0x21 s → exec (.enq i) s0 = .next (s.setTile t (pushed s y (y.slotBytes (sQ w) (y.slotOf w))))) ∧
    (s0.sRuns i 0x22 s → y.gr (sEa w) % 64 = 0 → y.gr (sEa w) + 64 ≤ spadSize →
      exec (.enqs i) s0 = .next (s2.setTile t (pushed s2 y2 (y2.spad.read (y.gr (sEa w)) 64)))) ∧
    (s0.sRuns i 0x22 s → y.gr (sEa w) % 64 ≠ 0 → exec (.enqs i) s0 = .next ((s.sIssued i).sFault t 0x02 x.pc)))

/-- 12 R254 to R258, 11 R238: SIGNAL adds modulo 2³² and SET sets, at their steps 7 and 9 of R261 (`sync`: the waiters are looked at when the
cycle ends); WAIT and LWAIT go on when the counter satisfies the threshold, an acquiring one with an empty data cache, and stall S
otherwise; TAKE subtracts, at step 11, when it can, stalls when it cannot, and faults S_BAD_OP from 2³¹; a SIGNAL.R to another tile is
sent and holds a place until its status returns, S stalls with no place free, and to the own tile it is a SIGNAL. At the end of a cycle in
which a counter changed S's stalled WAIT, LWAIT or TAKE that the counter satisfies is released, a TAKE having subtracted, then each
engine's head that waits for a counter that satisfies it (12 R256, R257, R262; 08 R178), with a WAIT_RELEASE; a head may start when it is
released, the tile lives and neither a stop nor a halted die holds it. -/
def Obligations.SCountersAndWaits : Prop :=
  ∀ (s0 s : State) (i : SIssue),
    let t := i.tile.val
    let x := s.tile t
    let y := s.issued i
    let w := i.word.toNat
    let c := sCtr w
    let v := y.gr (sEa w)
    let tn := s.tn
    let cy := s.sinceEdge
    let l := c % 64
    let sat := satisfies (y.ctr c) v
    let lsat := satisfies (y.rd (F.TILE_LC_count l)) v
    (s0.sRuns i 0x28 s → exec (.signal i) s0 = .next ((s.sIssued i).sync t 7 (fun z => z.setCtr tn c ((z.ctr c + v) % 2 ^ 32)))) ∧
    (s0.sRuns i 0x2D s → exec (.set i) s0 = .next ((s.sIssued i).sync t 9 (fun z => z.setCtr tn c v))) ∧
    (s0.sRuns i 0x2A s → exec (.wait i) s0 = .next (s.setTile t (if sat then y else
      (y.setWaiting c 2 true).beginWait tn cy s.time 2 (c + 1024 * v) (.counter c v false false)))) ∧
    (s0.sRuns i 0x2B s → exec (.waitAcq i) s0 = .next (s.setTile t (if sat then y.acquire else
      (y.setWaiting c 2 true).beginWait tn cy s.time 2 (c + 1024 * v) (.counter c v false true)))) ∧
    (s0.sRuns i 0x2E s → exec (.lwait i) s0 = .next (s.setTile t (if lsat then y else
      y.beginWait tn cy s.time 3 (l + 256 + 1024 * v) (.landing l v false)))) ∧
    (s0.sRuns i 0x2F s → exec (.lwaitAcq i) s0 = .next (s.setTile t (if lsat then y.acquire else
      y.beginWait tn cy s.time 3 (l + 256 + 1024 * v) (.landing l v true)))) ∧
    (s0.sRuns i 0x2C s →
      (2 ^ 31 ≤ v → exec (.take i) s0 = .next ((s.sIssued i).sFault t 0x01 x.pc)) ∧
      (v = 0 → exec (.take i) s0 = .next (s.setTile t y)) ∧
      (v < 2 ^ 31 → v ≠ 0 → sat = true →
        exec (.take i) s0 = .next ((s.sIssued i).sync t 11 (fun z => z.setCtr tn c ((z.ctr c + 2 ^ 32 - v) % 2 ^ 32)))) ∧
      (v < 2 ^ 31 → v ≠ 0 → sat = false → exec (.take i) s0 = .next (s.setTile t
        ((y.setWaiting c 2 true).beginWait tn cy s.time 2 (c + 512 + 1024 * v) (.counter c v true false))))) ∧
    (s0.sRuns i 0x29 s → y.storesFull = false →
      ¬ (devOf (y.pair (sEb w)) = s.devId ∧ (s.sIssued i).signalTile (y.pair (sEb w) % 2 ^ 48) = some t) →
      let a := y.pair (sEb w)
      let s2 := s.setTile t { y with nextTag := y.nextTag + 1, stores := y.stores ++ [⟨y.nextTag, 2, x.pc, a, 0xFF, 0, s.time, true, false, false, [], []⟩] }
      exec (.signalR i) s0 = .next (s2.sendSignal (s2.reqOf t .s false y.nextTag a) c v)) ∧
    (s0.sRuns i 0x29 s →
      (devOf (y.pair (sEb w)) = s.devId → (s.sIssued i).signalTile (y.pair (sEb w) % 2 ^ 48) = some t →
        exec (.signalR i) s0 = .next ((s.sIssued i).signalLocal t 7 c v)) ∧
      (y.storesFull = true → ¬ (devOf (y.pair (sEb w)) = s.devId ∧ (s.sIssued i).signalTile (y.pair (sEb w) % 2 ^ 48) = some t) →
        exec (.signalR i) s0 = .next (s.sStall t 7))) ∧
    (∀ (z : Tile) (tn cyc : Nat),
      (z.opened = none → z.endCycle = z) ∧
      (∀ o, z.opened = some o → z.endCycle =
        [0, 1, 3].foldl (fun u e => u.pollHead o.tn o.cyc e) (({ z with opened := none } : Tile).pollS o.tn o.cyc)) ∧
      (∀ k thr take acq, z.swait = .counter k thr take acq →
        (satisfies (z.ctr k) thr = false → z.pollS tn cyc = z) ∧
        (satisfies (z.ctr k) thr = true →
          let u := if take then z.setCtr tn k ((z.ctr k + 2 ^ 32 - thr % 2 ^ 32) % 2 ^ 32) else z
          let r := (u.setWaiting k 2 false).unstall.event tn cyc 2 3 (k + 1024 * z.ctr k)
          z.pollS tn cyc = if acq then r.acquire else r)) ∧
      (∀ k thr acq, z.swait = .landing k thr acq →
        (satisfies (z.rd (F.TILE_LC_count k)) thr = false → z.pollS tn cyc = z) ∧
        (satisfies (z.rd (F.TILE_LC_count k)) thr = true →
          let r := z.unstall.event tn cyc 2 3 (k + 256 + 1024 * z.rd (F.TILE_LC_count k))
          z.pollS tn cyc = if acq then r.acquire else r)) ∧
      (∀ e h l, z.q e = h :: l →
        ((h.seen = false ∨ h.rel = true ∨ satisfies (z.ctr h.waitCtr) h.waitThr = false) → z.pollHead tn cyc e = z) ∧
        (h.seen = true → h.rel = false → satisfies (z.ctr h.waitCtr) h.waitThr = true → z.pollHead tn cyc e =
          ((z.setQ e ({ h with rel := true } :: l)).setWaiting h.waitCtr e false).event tn cyc e 3 (h.waitCtr + 1024 * z.ctr h.waitCtr)))) ∧
    (∀ (u e : Nat) (h : Cmd) (l : List Cmd), (s.tile u).q e = h :: l → (s.tile u).rd F.TILE_MM_STATUS_pk1 ≠ 1 →
      (s.headReady u e = some h ↔ h.rel = true ∧ (s.tile u).live = true ∧ s.stopped = false ∧ s.rd (F.PWR_DIE_halted (u / 150)) = 0))

/-- 12 R255, 11 R238: a counter value c satisfies a threshold t when (c − t) mod 2³² < 2³¹. -/
def Obligations.ThresholdsCompareModulo : Prop := ∀ (c t : Word), satisfies c.toNat t.toNat = decide ((c - t).toNat < 2 ^ 31)

/-- 11 R240, R241, R243; 08 R168, R174, R184: a fence that has nothing to wait for lets S go on, one that has stalls it; CINV empties the data
cache, CINV.ALL the instruction cache too; TIME writes TN to a pair; EVT records its argument; TRAP aborts the task with S_TRAP and its
code; HALT stops S, and faults with S_FENCE where a write of the tile has failed. 11 R240, R241, R242: a local fence that S waits on ends
when no access of S is outstanding (no load, no store into the own window) and the engines are idle (that it waits for these and not for
remote stores is log 63, DEDUCED); a remote fence ends when the bytes acknowledged have reached those issued before it and every write
issued before it is acknowledged, and faults S_FENCE when a write before it failed. -/
def Obligations.SFencesCachesAndEnd : Prop :=
  (∀ (s0 s : State) (i : SIssue),
    let t := i.tile.val
    let x := s.tile t
    let y := s.issued i
    let w := i.word.toNat
    (s0.sRuns i 0x30 s →
      exec (.fenceLocal i) s0 = .next
        ((s.setTile t ((y.stallFor s.time 6 .fenceLocal).wr F.TILE_MM_STATUS_fence_local 1)).pollFence t)) ∧
    (s0.sRuns i 0x31 s →
      exec (.fenceRemote i) s0 = .next
        ((s.setTile t ((y.stallFor s.time 6 (.fenceRemote (y.rd F.TILE_MM_ISSUED_bytes) y.nextTag)).wr
          F.TILE_MM_STATUS_fence_remote 1)).pollFence t)) ∧
    (s0.sRuns i 0x32 s → exec (.cinvRemote i) s0 = .next (s.setTile t y.acquire)) ∧
    (s0.sRuns i 0x33 s → exec (.cinvAll i) s0 = .next (s.setTile t { y.acquire with icache := [] })) ∧
    (s0.sRuns i 0x38 s → exec (.time i) s0 = .next (s.setTile t (y.setPair (sRd w) s.tn))) ∧
    (s0.sRuns i 0x39 s → exec (.evt i) s0 = .next (s.setTile t (y.event s.tn s.sinceEdge 2 6 (bitsOf w 12 20)))) ∧
    (s0.sRuns i 0x3A s → exec (.trap i) s0 = .next ((s.sIssued i).sFault t 0x09 x.pc (bitsOf w 12 20))) ∧
    (s0.sRuns i 0x3F s → y.fails = [] →
      exec (.halt i) s0 = .next (s.setTile t ((y.event s.tn s.sinceEdge 2 8 x.pc).wr F.TILE_S_STATUS_state 2))) ∧
    (s0.sRuns i 0x3F s → y.fails ≠ [] →
      exec (.halt i) s0 = .next ((s.setTile t (((y.event s.tn s.sinceEdge 2 8 x.pc).wr F.TILE_S_STATUS_state 2).wr F.TILE_MM_STATUS_fence_failed 1)).sFault
        t 0x0A x.pc))) ∧
  (∀ (s : State) (t : Nat),
    let x := s.tile t
    (x.swait = .fenceLocal → x.accessesDone = true → x.idleEngines = true →
      s.pollFence t = s.setTile t (x.unstall.wr F.TILE_MM_STATUS_fence_local 0)) ∧
    (∀ issued upTo, x.swait = .fenceRemote issued upTo → (∀ g ∈ x.fails, upTo ≤ g) →
      s.pollFence t =
        if (x.rd F.TILE_MM_ACKED_bytes + 2 ^ 64 - issued) % 2 ^ 64 < 2 ^ 63 ∧ (∀ e ∈ x.stores, e.own = true ∨ e.signal = true ∨ upTo ≤ e.tag) then s.setTile t (x.unstall.wr F.TILE_MM_STATUS_fence_remote 0)
        else s) ∧
    (∀ issued upTo, x.swait = .fenceRemote issued upTo → (∃ g ∈ x.fails, g < upTo) →
      s.pollFence t = (s.setTile t (x.wr F.TILE_MM_STATUS_fence_failed 1)).tileFault t .s 0x0A (x.rd F.TILE_S_PC_pc - 4)))

/-! M, the matrix array (06, 05). `s.headReady t e = some c` says that the command c at the head of engine e's queue may start; the
engine looks once an open cycle of the tile's counters is over (`endCycle`, 12 R256, R261). -/

/-- 06 R138 to R140, R469: a command of M that may start and passes its checks starts: M.NOP does nothing more; M.CFG takes the mode and
leaves the accumulators unseeded; M.SEED with source 0 sets them to +0, and with source 1 to the block's values in the accumulators'
format; M.MMA on a clocked array is in progress and reads its operands from then until the next command of M starts or it completes (log
29): it finds each byte as it was or as another engine or a drain has written it meanwhile, in any mix (R129, 11 R246), and adds its
products once; M.DRAIN with the drain buffer free drains the block, and with a block in the buffer it waits; a drain first lets the
earlier one's rows land. An uncorrectable word read by SEED, MMA or DRAIN faults with M_ECC after the start. 06 R139, R469: a command of M
that may start and fails a check starts and faults with the first check's code. A command whose opcode no row has faults M_BAD_OP in any
row. -/
def Obligations.MCommandsRun : Prop :=
  (∀ (s0 s : State) (t : Fin 1200) (c : Cmd), s = s0.endCycle t → s.headReady t 0 = some c → s.mCheck t c = 0 →
    let b := s.mBegin t c
    let x := b.tile t
    let acc := accFmt (x.rd F.TILE_M_STATUS_mode)
    let f := Fmt.ofCode (c.f1 17)
    (c.op = 0 → exec (.mNop t) s0 = .next b) ∧
    (c.op = 1 → exec (.mCfg t) s0 = .next (b.setTile t (x.unseed.wr F.TILE_M_STATUS_mode (c.f1 16)))) ∧
    (c.op = 2 → c.f1 16 = 0 → ∀ e, exec (.mSeed t e) s0 = .next (b.setTile t (x.seed .x40 []))) ∧
    (c.op = 2 → c.f1 16 ≠ 0 →
      let d := (b.drainSome t).countSpad t 0 (4096 * f.bytes)
      let r := (d.tile t).seedBlock f acc (c.f2 18 * 64) (c.f2 20 * 64)
      exec (.mSeed t .ok) s0 = .next (d.setTile t (((d.tile t).seed acc r.val).raise d.tn false r.flags))) ∧
    (c.op = 2 → c.f1 16 ≠ 0 → ∀ w,
      exec (.mSeed t (.uncorrectable w)) s0 = .next (((b.drainSome t).countSpad t 0 (4096 * f.bytes)).mFault t 5 c.pc (some w))) ∧
    (c.op = 3 → (s.tile t).rd F.TILE_M_STATUS_array_on = 1 →
      let d := b.countSpad t 0 (2 * 64 * (opFmt ((s.tile t).rd F.TILE_M_STATUS_mode)).bytes * c.f2 24 + c.scaleBytes)
      exec (.mMma t .ok) s0 = .next (d.setTile t { d.tile t with mmaRun := some { cmd := c }, lastMma := d.time }) ∧
      ∀ w, exec (.mMma t (.uncorrectable w)) s0 = .next (d.mFault t 5 c.pc (some w))) ∧
    (c.op = 4 → (s0.tile t).drain = none →
      let d := (b.drainAll t).countSpad t 0 c.drainReads
      exec (.mDrain t .ok []) s0 = .next ((d.setTile t ((d.tile t).upset [])).drainRun t c) ∧
      (c.mDigest = false → ∀ w, exec (.mDrain t (.uncorrectable w) []) s0 = .next ((d.setTile t ((d.tile t).upset [])).mFault t 5 c.pc (some w)))) ∧
    ((s0.tile t).drain.isSome = true → ∀ e u, exec (.mDrain t e u) s0 = .next s0) ∧
    (∀ r, (s.tile t).mmaRun = some r →
      let l := r.was ++ singleBytes (s.tile t).drainQ
      s.mmaEnd t = (s.draws (2 * l.length)).setTile t
        { (s.tile t).mma s.tn r.cmd ((s.tile t).spad.mixed s.free l) ((s.tile t).spad.mixed (s.free + l.length) l) with mmaRun := none })) ∧
  (∀ (s0 s : State) (t : Fin 1200) (c : Cmd), s = s0.endCycle t → s.headReady t 0 = some c → s.mCheck t c ≠ 0 →
    let bad := (s.mBegin t c).mFault t (s.mCheck t c) c.pc
    (c.op = 0 ∨ 4 < c.op → exec (.mNop t) s0 = .next bad) ∧
    (c.op = 1 ∨ 4 < c.op → exec (.mCfg t) s0 = .next bad) ∧
    (c.op = 2 ∨ 4 < c.op → ∀ e, exec (.mSeed t e) s0 = .next bad) ∧
    (c.op = 3 ∨ 4 < c.op → ∀ e, exec (.mMma t e) s0 = .next bad) ∧
    (c.op = 4 ∨ 4 < c.op → (s0.tile t).drain = none → ∀ e u, exec (.mDrain t e u) s0 = .next bad) ∧
    (4 < c.op → s.mCheck t c = 1))

/-- 06 R114, R116, R123; 05 R101 to R103: after an M.MMA of n steps, whose operands read as `ma` and `mb`, cell (i, j) holds the value it
held, with the n products of row i of A and column j of B added in ascending k (`cellRun`): one product an addition in modes 0 and 2,
products 2k and 2k + 1 together in mode 1, each product truncated to 34 bits in mode 2 and scaled; each addition is exact and rounded once
to the accumulators' format; products that are all zero leave the cell, and a NaN makes it NaN unless every product has a zero factor. A
byte read while others are written is what stood there or one of the bytes written (11 R246). -/
def Obligations.MmaAddsEachCellsProductsInOrder : Prop :=
  (∀ (m : Mem) (g : Nat) (l : List (Nat × Byte)) (a : Nat), m.wf = true → (m.mixed g l).get a = m.get a ∨ ∃ p ∈ l, p.1 = a ∧ (m.mixed g l).get a = p.2) ∧
  (∀ (mode : Nat) (acc : Val) (l : List (Val × Val × Int)) (p q : Val × Val × Int) (g : Bool),
    cellRun mode acc [] g = ⟨acc, 0⟩ ∧
    (mode ≠ 1 → cellRun mode acc (l ++ [p]) g = (let r := cellRun mode acc l g; let u := cellStep mode r.val [p] g; ⟨u.val, r.flags ||| u.flags⟩)) ∧
    (l.length % 2 = 0 →
      cellRun 1 acc (l ++ [p, q]) g = (let r := cellRun 1 acc l g; let u := cellStep 1 r.val [p, q] g; ⟨u.val, r.flags ||| u.flags⟩) ∧
      cellRun 1 acc (l ++ [p]) g = (let r := cellRun 1 acc l g; let u := cellStep 1 r.val [p, (.zero, .zero, 0)] g; ⟨u.val, r.flags ||| u.flags⟩))) ∧
  (∀ (mode : Nat) (acc : Val) (ps : List (Val × Val × Int)) (g : Bool), acc.isNan = false → (∀ p ∈ ps, p.1.isNan = false ∧ p.2.1.isNan = false) →
    let prods := ps.map (fun p => (if mode = 2 then (p.1.mul p.2.1).val.trunc34 else (p.1.mul p.2.1).val).scale p.2.2)
    (∀ v ∈ prods, v.isNan = false) → (∃ v ∈ prods, v.isZero = false) →
    (cellStep mode acc ps g).val = Val.decode (accFmt mode) ((accFmt mode).rne (Val.sum (acc :: prods)).val).val) ∧
  (∀ (mode : Nat) (acc : Val) (ps : List (Val × Val × Int)),
    (∀ p ∈ ps, (p.1.isZero && p.2.1.isNum) || (p.1.isNum && p.2.1.isZero)) → acc.isNan = true → cellStep mode acc ps = ⟨acc, 0⟩) ∧
  ∀ (x : Tile) (tn : Nat) (c : Cmd) (ma mb : Mem) (i j : Nat), i < 64 → j < 64 →
    let mode := x.rd F.TILE_M_STATUS_mode
    let f := opFmt mode
    let a : Oper := ⟨f, bitOf (c.f1 26) 0, c.f2 16 * 64, c.f2 20 * 64⟩
    let b : Oper := ⟨f, bitOf (c.f1 26) 1, c.f2 18 * 64, c.f2 22 * 64⟩
    let sc := fun k => scaleAt ma (bitOf (c.f1 29) 0) (c.f1 27) (c.f2 30) k + scaleAt mb (bitOf (c.f1 29) 1) (c.f1 28) (c.f2 32) k
    let steps := (List.range (c.f2 24)).map (fun k => (a.at_ ma i k, b.at_ mb j k, sc k))
    (x.mma tn c ma mb).cell i j =
      ((accFmt mode).rne (cellRun mode (Val.decode (accFmt mode) (x.cell i j)) steps).val).val % 2 ^ 40

/-- 05 R86, R89, R90, R97: a value that a format holds survives rounding to that format: the word of its value is the word, with no flag;
every NaN gives the format's NaN. -/
def Obligations.RoundingKeepsWhatAFormatHolds : Prop :=
  ∀ (f : Fmt) (w : Nat), w < 2 ^ f.width →
    f.rne (Val.decode f w) = ⟨if (Val.decode f w).isNan then f.nan else w, 0⟩

/-- 06 R122, 18 R395: ARRAY_CLOCK_GATE stops the clock of an array with no M.MMA in progress. An M.MMA on a gated array with no grant free
asks, once, and does not start. POWER_GRANT gives a free grant to the oldest that waits: an array's clock starts, a site powers up, a
tile's self-test begins; with no grant free or none waiting it gives none. 11 R236, 06 R138, R139, 10 R211: ENGINE_COMMAND_COMPLETE with
choice k (log 78) completes the k-th oldest command of M that can complete: a NOP once nothing is before it, a DRAIN once only NOPs are
and its rows have all left, another once only NOPs and DRAINs are; an MMA has then read its operands and a drain written all its rows (log
29). Or it completes the oldest in progress of V, or of D the k-th oldest at its completion point. CMD_DONE comes first, then its signal,
then S's fence. S has none. -/
def Obligations.EnginesAreGrantedAndComplete : Prop :=
  ((∀ (s : State) (t : Fin 1200), (s.tile t).mRun.any (fun c => c.op == 3) = false →
    exec (.arrayClockGate t) s = .next (s.twr t F.TILE_M_STATUS_array_on 0)) ∧
  (∀ (s0 s : State) (t : Fin 1200) (c : Cmd) (e : Ecc), s = s0.endCycle t → s.headReady t 0 = some c → s.mCheck t c = 0 → c.op = 3 →
    (s.tile t).rd F.TILE_M_STATUS_array_on ≠ 1 → (s.tile t).gateReq = false → s.grantsFree (t / 150) = 0 →
    exec (.mMma t e) s0 = .next
      ((s.setWaiters (t / 150) (s.waiters (t / 150) ++ [(0, t.val)])).setTile t { s.tile t with gateReq := true })) ∧
  (∀ (s : State) (d : Fin 8) (t : Nat) (l : List (Nat × Nat)), s.waiters d = (0, t) :: l → (∀ e ∈ l, e.1 ≠ 2) → 0 < s.grantsFree d →
    ∃ u, exec (.powerGrant d) s = .next u ∧ u.waiters d = l ∧
      u.tile t = { (s.tile t).wr F.TILE_M_STATUS_array_on 1 with gateReq := false } ∧ ∀ v, v ≠ t → u.tile v = s.tile v) ∧
  (∀ (s : State) (d : Fin 8), (s.withdraw d).waiters d = [] ∨ (s.withdraw d).grantsFree d = 0 → exec (.powerGrant d) s = .next (s.withdraw d)) ∧
  (∀ (s : State) (d : Fin 8) (k x : Nat) (l : List (Nat × Nat)), (s.withdraw d).waiters d = (k, x) :: l → 0 < (s.withdraw d).grantsFree d →
    let u := ((s.withdraw d).takeGrant d).setWaiters d l
    (k = 1 → exec (.powerGrant d) s = .next { u with pwr := { u.pwr with sites := u.pwr.sites ++ [x] } }) ∧
    (k = 2 → ∀ b, u.bayOf x = some b → exec (.powerGrant d) s = .next (u.setBay b { u.bay b with testing := (u.bay b).testing ++ [x] })))) ∧
  (∀ (s : State) (t : Fin 1200), (s.tile t).live = true →
    let x := s.tile t
    x.mDone.Sublist x.mRun ∧
    (∀ c, c ∈ x.mDone ↔ ∃ n, x.mRun[n]? = some c ∧ x.drain.map (·.cmd) ≠ some c ∧
      (if c.op = 0 then x.mRun.take n = [] else if c.op = 4 then ∀ e ∈ x.mRun.take n, e.op = 0 else ∀ e ∈ x.mRun.take n, e.op = 0 ∨ e.op = 4)) ∧
    (∀ k c, x.mDone[k]? = some c →
      let u := s.mmaEnd t
      let free := fun (z : Tile) => ({ z with mRun := z.mRun.erase c } : Tile).wr F.TILE_M_STATUS_busy (b2n (!(z.mRun.erase c).isEmpty))
      (c.op ≠ 3 → c.op ≠ 4 → exec (.engineCommandComplete t .m k) s = .next ((s.setTile t (free x)).completeCmd t 0 c)) ∧
      (c.op = 3 → exec (.engineCommandComplete t .m k) s = .next ((u.setTile t (free (u.tile t))).completeCmd t 0 c)) ∧
      (c.op = 4 → exec (.engineCommandComplete t .m k) s = .next
        (((s.setTile t (if c.mDigest = true then (free x).digDone (c.f1 23) else free x)).drainAll t).completeCmd t 0 c))) ∧
    (∀ c l, x.vRun = c :: l →
      exec (.engineCommandComplete t .v) s = .next
        ((s.setTile t (({ x with vRun := l } : Tile).wrs
          [(F.TILE_V_STATUS_busy, b2n (!l.isEmpty)), (F.TILE_V_STATUS_mv_busy, b2n (l.any (·.op == 2)))])).completeCmd t 1 c)) ∧
    (∀ k d, (x.dRun.filter (fun d => x.dDone d))[k]? = some d →
      let y := ({ x with dRun := x.dRun.filter (·.num != d.num) } : Tile).dShow
      exec (.engineCommandComplete t .d k) s = .next
        ((s.setTile t (match d.dig with | none => y | some p => y.digDone p.1)).completeCmd t 3 d.cmd)) ∧
    exec (.engineCommandComplete t .s) s = .next s)

/-! V, the vector engine (07). -/

/-- 07 R142 to R162: a command of V that may start and passes its checks starts; V.NOP does nothing more, V.RUN runs its words iteration by
iteration, V.MV writes one rounded product vector per row of activations, all at the command's start (log 29). A memory word outside the
scratchpad (V_BOUNDS) or with an uncorrectable word of it (V_ECC) ends the run there: the words before it have had their effect, those
after it have none, and V faults with the iteration and the word's index. A command that fails a check faults with its code and word. 07
R157, TILE_V_PROBE_CTR: an 8-byte write of a permitted master shows the draw of the tile's key for the counter, and nothing else. -/
def Obligations.VCommandsRun : Prop :=
  (∀ (s0 s : State) (t : Fin 1200) (c : Cmd), s = s0.endCycle t → s.headReady t 1 = some c →
    let b := s.vBegin t c
    let x := b.tile t
    let d : Draws := ⟨x.rd F.TILE_V_KEY_key, x.rd F.TILE_V_STEP_step, c.f2 20, c.f4 24⟩
    let per := if c.words.any (fun w => wOp w == 0x38) then 16 else 8
    let run := fun (e : Ecc) => VRun.iters { st := b, ecc := e } t c.words d per (c.f2 16) 0
    let e := (b.drainSome t).countSpad t 0 (128 * c.f2 20)
    let rs := (List.range (c.f1 22)).map ((e.tile t).mvRow c)
    ((vCheck c).1 = 0 →
      (c.op = 0 → exec (.vNop t) s0 = .next b) ∧
      (c.op = 1 → ∀ u : Ecc,
        ((run u).stop = none → exec (.vRun t u) s0 = .next (run u).st) ∧
        (∀ code it k, (run u).stop = some (code, it, k) → exec (.vRun t u) s0 = .next
          ((run u).st.vFault t code it k c.pc (if code = 4 then some (eccWord (run u).ecc) else none)))) ∧
      (∀ (r : VRun) (it k w : Nat),
        (r.stop.isSome = true → r.word t it k w d = r) ∧
        (r.stop = none → wMem w = true → (memAddr w it < 0 ∨ (spadSize : Int) < memAddr w it + memSize w) →
          r.word t it k w d = { r with stop := some (3, it, k) }) ∧
        (r.stop = none → wMem w = true → 0 ≤ memAddr w it → memAddr w it + memSize w ≤ (spadSize : Int) → wOp w ≠ 2 →
          eccBad r.ecc = true → eccHits r.ecc (memAddr w it).toNat (memSize w) = true → r.word t it k w d = { r with stop := some (4, it, k) }) ∧
        (r.stop = none → wMem w = false → r.word t it k w d =
          { r with st := r.st.setTile t (((r.st.tile t).regWord w d).val.raise r.st.tn true ((r.st.tile t).regWord w d).flags) })) ∧
      (c.op = 2 → ∀ w, exec (.vMv t (.uncorrectable w)) s0 = .next (e.vFault t 4 0 0 c.pc (some w))) ∧
      (c.op = 2 → exec (.vMv t .ok) s0 = .next (e.setTile t
        ((((List.range (c.f1 22)).zip rs).foldl (fun (z : Tile) p => z.putV 0 (c.f1 24 + 2 * p.1) p.2.val) (e.tile t)).raise
          e.tn true (flagsOf (rs.map (·.flags))))))) ∧
    ((vCheck c).1 ≠ 0 →
      let bad := b.vFault t (vCheck c).1 0 (vCheck c).2 c.pc
      (c.op = 0 → exec (.vNop t) s0 = .next bad) ∧ (c.op = 1 → ∀ ecc, exec (.vRun t ecc) s0 = .next bad) ∧
      (c.op = 2 → ∀ ecc, exec (.vMv t ecc) s0 = .next bad))) ∧
  (∀ (s : State) (m : Master) (t : Fin 1200) (ctr : Dword), s.lets m (tileOff t 0x1118) = true →
    let d := draw ((s.tile t).rd F.TILE_V_KEY_key) ctr.toNat
    exec (.vProbe m t 8 ctr) s = .next (s.setTile t ((s.tile t).wrs
      [(F.TILE_V_PROBE_LO_draw_lo, d % 2 ^ 64), (F.TILE_V_PROBE_HI_draw_hi, d / 2 ^ 64), (F.TILE_V_STATUS_probe_done, 1)])))

/-! D, the data mover (10). -/

/-- 10 R211, R217, R219: a command of D that may start, with a place in the expansion queue, and that passes its checks starts: a D.COPY runs
its pattern, with keep set also arming its slot with it; D.RUN runs its slot's pattern with the new bases; D.DROP disarms its slot; D.NOP
does nothing more. One that fails a check starts, moves nothing and faults with the first check's code. -/
def Obligations.DCommandsStart : Prop :=
  ∀ (s0 s : State) (t : Fin 1200) (c : Cmd), s = s0.endCycle t → s.headReady t 3 = some c → (s.tile t).dRun.length < 8 →
    let x := s.tile t
    let n := c.f1 58
    let armed := x.rd F.TILE_D_STREAMS_armed
    (x.dCheck c = none →
      (c.op = 0 → exec (.dNop t) s0 = .next (s.dBegin t c [] none)) ∧
      (c.op = 1 → dKeep c.bytes = false → exec (.dCopy t .ok) s0 = .next ((s.setTile t x).dStart t c c.bytes .ok)) ∧
      (c.op = 1 → dKeep c.bytes = true → exec (.dCopy t .ok) s0 = .next
        ((s.setTile t { x.wr F.TILE_D_STREAMS_armed (armed ||| 2 ^ n) with streams := kput x.streams n c.bytes }).dStart t c c.bytes .ok)) ∧
      (c.op = 2 → ∀ p, x.dPattern c = some p → exec (.dRun t .ok) s0 = .next (s.dStart t c p .ok)) ∧
      (c.op = 3 → exec (.dDrop t) s0 = .next
        ((s.setTile t { x.wr F.TILE_D_STREAMS_armed (armed - (if bitOf armed n then 2 ^ n else 0)) with
          streams := kdel x.streams n }).dBegin t c [] none))) ∧
    (∀ code a, x.dCheck c = some (code, a) →
      let bad := (s.startHead t 3 c).dFault t code (a.map addr64) c.pc
      (c.op = 0 → exec (.dNop t) s0 = .next bad) ∧ (c.op = 1 → ∀ e, exec (.dCopy t e) s0 = .next bad) ∧
      (c.op = 2 → ∀ e, exec (.dRun t e) s0 = .next bad) ∧ (c.op = 3 → exec (.dDrop t) s0 = .next bad))

/-- 10 R213: no request of a pattern crosses a 256-byte boundary of its address, leaves its row, or is empty. -/
def Obligations.NoRequestCrossesABoundary : Prop :=
  ∀ (p : List Byte) (i a : Nat), dRow p ≠ 0 →
    let n := dSpan p i a
    1 ≤ n ∧ n ≤ 256 ∧ (a + n - 1) / 256 = a / 256 ∧ i / dRow p = (i + n - 1) / dRow p

/-- 10 R213, R215: the fetch side of a D that goes on and has room asks for the next piece of a global pattern: one READ of the piece, one
entry of the request table, under the bay's master code and engine D; nothing else of the tile changes but the tag and the command's
place. -/
def Obligations.DAsksForOnePieceAtATime : Prop :=
  ∀ (s : State) (t : Nat) (d : DCmd),
    let x := s.tile t
    let a := addr64 (dSrcAt d.pat d.pos)
    let n := dSpan d.pat d.pos a
    dSrcGlobal d.pat = true → x.bufferFull = false → x.tableFull = false →
    let y := ({ x with nextTag := x.nextTag + 1 } : Tile).setDCmd { d with pos := d.pos + n }
    let s1 := s.setTile t { y with reqs := x.reqs ++ [⟨x.nextTag, d.num, 0, a, n, d.pos, s.time⟩] }
    s.dFetchOne t d = some (s1.sendRead (s1.reqOf t .d false x.nextTag a) n)

/-- 10 R219, R220; 11 R242: D_RESP_TIMEOUT of an entry that waits faults D_RESP_TIMEOUT at its address; D_ABORT_TIMEOUT abandons the entries
of an ABORTING tile, records their write bytes and makes D quiescent; WRITE_ACK_TIMEOUT records the first write without an
acknowledgement. -/
def Obligations.DAndWriteTimeouts : Prop :=
  (∀ (s : State) (t : Fin 1200) (tag : Word) (r : DReq), (s.tile t).live = true →
    (s.tile t).reqs.find? (fun r => r.tag % 2 ^ 24 == tag.toNat % 2 ^ 24) = some r →
    exec (.dRespTimeout t tag) s = .next (s.dFault t 0xA (some r.addr) (((s.tile t).dRun.find? (·.num == r.cmd)).map (·.cmd.pc) |>.getD 0))) ∧
  (∀ (s : State) (t : Fin 1200), (s.tile t).state = 3 → (s.tile t).rd F.TILE_D_STATUS_quiescent = 0 →
    exec (.dAbortTimeout t) s = .next (s.setTile t
      ((({ s.tile t with reqs := [] } : Tile).dShow.wr F.TILE_D_ABORT_BYTES_abandoned (s.tile t).dWriteBytes).dQuiet
        s.tn s.sinceEdge (s.tile t).dWriteBytes))) ∧
  (∀ (s : State) (t : Fin 1200) (tag : Word) (w : Store), (s.tile t).live = true →
    (s.tile t).stores.find? (fun w => sameTag w.tag tag.toNat && !w.signal && !w.own) = some w → s.isLoft w.addr = false →
    (s.tile t).fails.contains w.tag = false →
    exec (.writeAckTimeout t tag) s = .next ((s.failWrite t w 6 0 0).fenceLook t))

/-! Tiles ending, chains and vault stations (08, 09, 13). -/

/-- 08 R182: a HALTED tile with nothing left to do finishes: IDLE, and the hub hears of it; with the last present tile of the bay the LAUNCH
completes and the bay is released. 08 R184, 20 R422: an ABORTING tile whose D is quiescent becomes QUIESCENT, its rings freeze and the hub
hears of it. R183, R184, R186: a fault of a tile that lives records its event and aborts the tile, one of a tile that does not live
changes nothing, so the first cause stays; an abort leaves the tile ABORTING with the cause, its origin, the tick, the PC and the trap
code, and every queue, command, wait, stream, chain block, drain, register of V and accumulator of M discarded. -/
def Obligations.TilesFinishAndBecomeQuiescent : Prop :=
  (∀ (s : State) (t : Nat) (e : Engine) (cause pc trap : Nat) (ecc : Option Nat),
    ((s.tile t).live = false → s.tileFault t e cause pc trap ecc = s) ∧
    ((s.tile t).live = true →
      (s.tileFault t e cause pc trap ecc).tile t =
        (((s.drainSome t).tile t).endCycle.event s.tn s.sinceEdge (engNo e) 9 cause).abort s.tn s.sinceEdge s.time cause t pc trap)) ∧
  (∀ (x : Tile) (tn cyc now cause origin pc trap : Nat),
    let y := x.abort tn cyc now cause origin pc trap
    y.mq = [] ∧ y.vq = [] ∧ y.dq = [] ∧ y.mRun = [] ∧ y.vRun = [] ∧ y.dRun = [] ∧ y.mmaRun = none ∧ y.drainQ = [] ∧ y.drain = none ∧ y.acc = [] ∧
    y.chainIn = [] ∧ y.chainHeld = [] ∧ y.streams = [] ∧ y.vregs = [] ∧ y.swait = .none ∧ y.hold = false ∧
    (KMap.wf x.endCycle.abortClear.clearWaiting.regs = true →
      y.state = 3 ∧ y.rd F.TILE_S_ABORT_cause = cause % 2 ^ 8 ∧ y.rd F.TILE_S_ABORT_origin = origin % 2 ^ 11 ∧ y.rd F.TILE_S_ABORT_valid = 1 ∧
      y.rd F.TILE_S_ABORT_tn_low = tn % 2 ^ 24 ∧ y.rd F.TILE_S_ABORT_INFO_pc = pc % 2 ^ 24 ∧ y.rd F.TILE_S_ABORT_INFO_trap_code = trap % 2 ^ 20)) ∧
  ∀ (s : State) (t : Fin 1200) (b : Nat), s.bayOf t = some b →
    let x := s.tile t
    let fin := (s.bay b).finished ++ [t.val]
    let s1 := ((s.setTile t (x.wr F.TILE_S_STATUS_state 0)).sends (.tileFinished t)).setBay b { s.bay b with finished := fin }
    let lp := fun (p : Pkt) => p.type == 2 && p.stage == 2 && p.bay == some b
    (x.mayFinish = true → s.stopped = false → (s.bayTiles b).all (fun u => fin.contains u) = false → exec (.tileFinish t) s = .next s1) ∧
    (x.mayFinish = true → s.stopped = false → (s.bayTiles b).all (fun u => fin.contains u) = true →
      (∀ q k, (s.bay b).holder = some q → (s.queue q).busyPkt lp = some k →
        exec (.tileFinish t) s = .next ((s1.completePkt q k).releaseBay b)) ∧
      (((s.bay b).holder = none ∨ ∃ q, (s.bay b).holder = some q ∧ (s.queue q).busyPkt lp = none) →
        exec (.tileFinish t) s = .next (s1.releaseBay b))) ∧
    (x.state = 3 → x.rd F.TILE_D_STATUS_quiescent = 1 →
      let s2 := ((s.setTile t ((x.wr F.TILE_S_STATUS_state 4).onRings (fun z e => z.freeze s.tn s.sinceEdge e 2))).sends (.tileQuiescent t)).control (s.tileNode t) .hub 3 t
      ((∀ q, (s.bay b).holder = some q → (s2.queue q).state ≠ 4) → exec (.tileQuiescent t) s = .next s2) ∧
      (∀ q, (s.bay b).holder = some q → (s2.queue q).state = 4 → exec (.tileQuiescent t) s = .next (s2.destroyStep q)))

/-- 08 R185: the first abort of a bay that reaches the hub goes to every tile of it with BAY_ABORT and makes the queue that holds the bay
GUILTY with the tile's cause; of a later one only its cause may count, where it shares the cycle of the first (13 R290). 13 R297: a bay
whose tiles are QUIESCENT, or IDLE (log 24, DEDUCED), is released; one not released in 200 µs is reset, and released when the reset ends;
a queue that waits in FENCING past it, holding no bay, is DISABLED (R296). -/
def Obligations.BaysAbortResetAndRelease : Prop :=
  ∀ (s : State) (b : Fin 64),
    (∀ t : Fin 1200, s.bayOf t = some b.val → (s.tile t).aborting = true → (s.tile t).rd F.TILE_S_ABORT_cause < 0x40 →
      let s0 := s.control (s.tileNode t) .hub 2 t
      ((s.bay b).aborted = true → exec (.bayAbort t) s = .next (s0.bayCause b ((s.tile t).rd F.TILE_S_ABORT_cause) t)) ∧
      ((s.bay b).aborted = false → (s.bay b).holder = none → exec (.bayAbort t) s = .next (s0.hubAbort b 0x40 t)) ∧
      (∀ q, (s.bay b).aborted = false → (s.bay b).holder = some q →
        exec (.bayAbort t) s = .next ((s0.hubAbort b 0x40 t).markGuilty q ((s.tile t).rd F.TILE_S_ABORT_cause) t))) ∧
    ((s.bay b).aborted = true → (s.bay b).resetAt = none → (s.bayTiles b).all (fun t => (s.tile t).state == 0 || (s.tile t).state == 4) = true →
      exec (.bayRelease b) s = .next (s.releaseBay b)) ∧
    (∀ q, (s.bay b).holder = some q → (s.bay b).aborted = true → (s.bay b).resetAt = none → s.stopped = false →
      let s1 := (((((s.forEach (s.bayTiles b) (fun a t => a.setTile t (a.tile t).hubReset)).setBay b { s.bay b with resetAt := some s.time }).wr
        (F.FE_BAY_reset_escalated b) 1).bump F.FE_COUNTS_bay_resets).logs .BAY_RESET [b])
      exec (.bayReset b) s = .next
        (if 3 ≤ (s1.queue q).state then (s1.setQueue q ((s1.queue q).wr F.FE_Q_DESTROY_escalated 1)).destroyStep q else s1)) ∧
    (∀ q : Fin 32768, exec (.bayReset b (some q)) s = .next
      (if (s.queue q).state = 5 ∧ s.baysOf q = [] ∧ s.stopped = false then
        (s.setQueue q ((s.queue q).wr F.FE_Q_DESTROY_escalated 1)).destroyFenced q else s)) ∧
    ((s.bay b).resetAt.isSome = true →
      ((s.bay b).holder = none → exec (.bayResetEnd b) s = .next (s.releaseBay b)) ∧
      ∀ q, (s.bay b).holder = some q → exec (.bayResetEnd b) s = .next ((s.releaseBay b).destroyForce q))

/-- 09 R188, R190, R193: a chain row at a hop of this device that adds is held in its chain's block, one of four, and the rows of a waiting
drain that may pass go on; a row with no place waits in the mesh. A row of the drain passes, in order, as the first hop's own row, or at a
later hop as the sum of the incoming and the own value of each column rounded once to X40, with a row of the chain's block there; it goes
to the next hop, from the last hop of this device to the hub and the exit device as a REDUCE packet, and at the chain's last hop into the
tile's own scratchpad in the output format, with the signal after row 63 (R189, R191). When a drain's next row meets an incoming row on
which the adder's copies differ, that is a CONTAINED failure of class 7 that stops the bay. -/
def Obligations.ChainRowsAreHeldAndPass : Prop :=
  (∀ (own inp : List (BitVec 40)) (j : Nat), j < own.length → j < inp.length →
    (addRows own inp).val.getD j 0 = BitVec.ofNat 40
      (Fmt.x40.rne ((Val.decode .x40 (inp.getD j 0).toNat).add (Val.decode .x40 (own.getD j 0).toNat)).val).val) ∧
  (∀ (s : State) (t f k : Nat) (d : Drain) (c : ChainDef) (own : List (BitVec 40)) (rest : List (List (BitVec 40))),
    (s.tile t).drain = some d → d.rows = own :: rest → s.image.chain? d.chain = some c → c.place? t = some k →
    let x := s.tile t
    let next := ({ x with drain := some { d with rows := rest, row := d.row + 1 } } : Tile)
    (k = 0 → s.chainRun t (f + 1) = ((s.setTile t (next.raise s.tn false 0)).passRow t c k d.row d.dest own).chainRun t f) ∧
    (∀ r, k ≠ 0 → x.rowIn d.chain d.row = some (r, false) → s.chainRun t (f + 1) =
      ((s.setTile t (next.raise s.tn false (addRows own r).flags)).passRow t c k d.row d.dest (addRows own r).val).chainRun t f) ∧
    (k ≠ 0 → x.rowIn d.chain d.row = none → s.chainRun t (f + 1) = s.setTile t x.showRed)) ∧
  (∀ (s : State) (t k row : Nat) (c : ChainDef) (dest : Dword) (v : List (BitVec 40)),
    (∀ h, c.hops[k + 1]? = some h → h.kind = 0 → s.passRow t c k row dest v =
      ((s.countMesh t 320).carry (s.tileNode t) (s.tileNode h.id) 4 (reducePacket s.devId s.devId 0 0 c.id 0 row (rowBytes v)) 320).flies
        (.chainRow h.id c.id row v)) ∧
    (∀ h, c.hops[k + 1]? = some h → h.kind ≠ 0 →
      let b := reducePacket s.devId h.id 0 0 c.id 0 row (rowBytes v)
      s.passRow t c k row dest v = ((s.countMesh t 320).carry (s.tileNode t) .hub 4 b 320).sendPkt b) ∧
    (c.hops[k + 1]? = none → bits dest 47 1 = 1 →
      let r := collect (v.map (fun w => convert .x40 (redFmt dest) none w.toNat))
      let s1 := s.spadWrite t (bits dest 0 16 * 64 + row * (bits dest 16 16 * 64)) (elemBytes (redFmt dest) r.val)
      let s2 := s1.setTile t ((s1.tile t).raise s1.tn false r.flags)
      s.passRow t c k row dest v = if row = 63 then s2.signalLocal t 5 (bits dest 32 8) 1 else s2)) ∧
  ∀ (s0 s : State) (t : Fin 1200) (chain : BitVec 10) (row : Fin 64) (v : List (BitVec 40)) (m : Bool) (c : ChainDef) (k : Nat),
    s = s0.arrived (.chainRow t chain.toNat row v) → s.image.chain? chain.toNat = some c → c.place? t = some k → k ≠ 0 → (s.tile t).aborting = false → v.length = 64 →
    let x := s.tile t
    let known := x.chainIn.any (·.1 == chain.toNat)
    let l := if known then x.chainIn.map (fun b => if b.1 = chain.toNat then (b.1, kput b.2 row.val (v, m)) else b)
      else x.chainIn ++ [(chain.toNat, [(row.val, v, m)])]
    (x.rowIn chain.toNat row = none → (x.chainIn.length < 4 ∨ known = true) →
      exec (.chainRow t chain row v m) s0 = .next ((s.setTile t ({ x with chainIn := l } : Tile).showRed).chainGo t)) ∧
    ((x.rowIn chain.toNat row ≠ none ∨ (4 ≤ x.chainIn.length ∧ known = false)) →
      exec (.chainRow t chain row v m) s0 = .next
        ((s.setTile t ({ x with chainHeld := x.chainHeld ++ [(chain.toNat, row.val, v, m)] } : Tile).showRed).chainGo t)) ∧
    (∀ d own rest r, x.drain = some d → d.chain = chain.toNat → d.rows = own :: rest → x.rowIn chain.toNat d.row = some (r, true) →
      s.chainGo t = (s.suspect (s.site t)).adderFault c.bay 7 t (s.recOfTile 2 7 0x42 t))

/-- 09 R194 to R203: a row at a live station of its oldest or next round is added to its bank value by value and counted, its source joins the
round's forwarders, and the rounds then complete are output (`stationRun`); VAULT_ROW brings a tile's, REDUCE another device's. A row for
a station without a bay or without a LAUNCH is dropped, one of a later round waits, one too many or of a past round raises VAULT_EXCESS;
an adder mismatch or a bank's uncorrectable word fails the station; so does a thirty-third forwarding device of a round raise VAULT_EXCESS
(R200). A returned row is kept until all 64 are there, which then go to the station's subscribers and forwarders and end the round. A
chain row from another device enters the hop after its entry hop; one of a chain the image does not hold, or whose entry hop does not name
the sender with a hop of this device next, logs CHAIN_MISMATCH (R31, R192). That a row of a wrong length or number does nothing is log 75. -/
def Obligations.VaultsAddRowByRow : Prop :=
  ∀ (s s0 : State) (k : Fin 64) (src round : BitVec 16) (row : Fin 64) (fmt : Byte) (id : BitVec 16) (data : List Byte),
    let v := s.vault k
    let d := s.vaultDef k
    let o := s.rd (F.HUB_VST_STATUS_round k)
    let dist := (round.toNat + 65536 - o) % 65536
    let b := round.toNat % 2
    let n := kget v.rows b 0
    let row8 := BitVec.ofNat 8 row
    (∀ vals ecc fw, rowFull vals = true → d.bay ≠ 0xFF → v.live = true → dist < 2 → n < 64 * d.contributors → eccBad ecc = false →
      ((src.toNat = s.devId ∧ fw = kget v.fwd b []) ∨ (src.toNat ≠ s.devId ∧ joinForwarder (kget v.fwd b []) src.toNat = some fw)) →
      let a := v.addRow b row vals
      let taken := (((s.placeRow k b (decide (dist = 0)) a.1 fw).rowTaken k a.2.1 a.2.2 ecc).stationRun k)
      (s = s0.arrived (.vaultRow k src.toNat round.toNat row vals) → exec (.vaultRow k src round row vals ecc false) s0 = .next taken) ∧
      (s = s0.carry .hub (stationNode k) 5 data data.length → s0.shuns src.toNat = false → id.toNat = k.val → vals = dataVals fmt.toNat data →
        exec (.reduce src 1 fmt id round row8 data ecc false) s0 = .next taken)) ∧
    (∀ l : List (BitVec 40), l.length = 64 → ∀ j : Fin 64,
      let key := b * 4096 + row * 64 + j
      let w := (l.getD j 0).toNat
      kget (v.addRow b row (.x40 l)).1.vals key 0 = (vaultAdd (kget v.vals key 0) (kget v.flags key 0) (Val.decode .x40 w)).1.1 ∧
      kget (v.addRow b row (.x40 l)).1.flags key 0 = (vaultAdd (kget v.vals key 0) (kget v.flags key 0) (Val.decode .x40 w)).1.2) ∧
    (∀ vals ecc m, rowFull vals = true → s = s0.arrived (.vaultRow k src.toNat round.toNat row vals) →
      ((d.bay = 0xFF ∨ v.live = false) → exec (.vaultRow k src round row vals ecc m) s0 = .next ((s.redDropped k round.toNat).stationRun k)) ∧
      (d.bay ≠ 0xFF → v.live = true →
        (2 ≤ dist → dist < 32768 → exec (.vaultRow k src round row vals ecc m) s0 = .next
          ((s.setVault k { v with held := v.held ++ [(src.toNat, round.toNat, row.val, vals, ecc, m)] }).stationRun k)) ∧
        ((32768 ≤ dist ∨ dist < 2 ∧ 64 * d.contributors ≤ n) →
          exec (.vaultRow k src round row vals ecc m) s0 = .next ((s.stationRaise k 0x86).stationRun k)) ∧
        (dist < 2 → n < 64 * d.contributors →
          exec (.vaultRow k src round row vals ecc true) s0 = .next ((s.stationFault k 7).stationRun k) ∧
          (eccBad ecc = true → exec (.vaultRow k src round row vals ecc false) s0 = .next ((s.stationFault k 8).stationRun k)) ∧
          (eccBad ecc = false → src.toNat ≠ s.devId → src.toNat ∉ kget v.fwd b [] → 32 ≤ (kget v.fwd b []).length →
            exec (.vaultRow k src round row vals ecc false) s0 = .next ((s.stationRaise k 0x86).stationRun k))))) ∧
    (s0.shuns src.toNat = false →
      (s = s0.carry .hub (stationNode k) 5 data data.length → id.toNat = k.val → d.bay ≠ 0xFF → v.live = true →
        s.rd (F.HUB_VST_STATUS_state k) = 3 → src.toNat = d.forwardTo → round.toNat = o → (kput v.rets row data).length < 64 → ∀ ecc m,
        exec (.reduce src 2 fmt id round row8 data ecc m) s0 = .next (s.setVault k { v with rets := kput v.rets row data })) ∧
      (s = s0.carry .hub (stationNode k) 5 data data.length → id.toNat = k.val → d.bay ≠ 0xFF → v.live = true →
        s.rd (F.HUB_VST_STATUS_state k) = 3 → src.toNat = d.forwardTo → round.toNat = o → 64 ≤ (kput v.rets row data).length → ∀ ecc m,
        exec (.reduce src 2 fmt id round row8 data ecc m) s0 = .next
          ((((((s.setVault k { v with rets := kput v.rets row data }).wr (F.HUB_VST_STATUS_state k) 2).stationSend k round.toNat fmt.toNat
            ((kput v.rets row data).map (·.2))).stationNext k).stationAdmit k).stationRun k)) ∧
      (∀ c e h l, s0.image.chain? id.toNat = some c → c.hops = e :: h :: l → e.kind = 1 → e.id = src.toNat → h.kind = 0 → ∀ ecc m,
        exec (.reduce src 0 fmt id round row8 data ecc m) s0 = .next ((s0.carry .hub (s0.tileNode h.id) 4 data data.length).chainRow h.id c.id row
          ((elems .x40 64 data).map (BitVec.ofNat 40)) m)) ∧
      (s0.image.chain? id.toNat = none → ∀ ecc m,
        exec (.reduce src 0 fmt id round row8 data ecc m) s0 = .next (s0.logs .CHAIN_MISMATCH [id.toNat, src.toNat])) ∧
      (∀ c, s0.image.chain? id.toNat = some c → (∀ e h l, c.hops = e :: h :: l → ¬ (e.kind = 1 ∧ e.id = src.toNat ∧ h.kind = 0)) → ∀ ecc m,
        exec (.reduce src 0 fmt id round row8 data ecc m) s0 = .next (s0.logs .CHAIN_MISMATCH [id.toNat, src.toNat])))

/-! Requests, register writes and answers (00, 04, 11, 12, 15, 22). -/

/-- 00 R9, 04 R70 to R84, 11 R237: a permitted write of this device's memory is performed at its target, reached over the mesh in the same
command (`c`, 10 R224; log 69, DESIGN CHOICE); one into the scratchpad window of a tile that takes it lands its bytes, counts them at the
landing counter that a bay or a link names (an lc of 64 or more names none: log 79, DEDUCED), and is acknowledged; at a tile that is being
aborted one from outside its bay is answered DROPPED (log 51, DEDUCED). A denied or unmapped one is logged and answered so, and one to
HBM, a scratchpad or a tile's registers in MOTHBALL is answered DROPPED (18 R401), denied coming before asleep (log 12, DEDUCED).
(`replayed`: a write that is a RESUME_REPLAY then has its effect, 03 R64.) -/
def Obligations.WritesReachTheirTargets : Prop :=
  ∀ (s : State) (r : Req) (data : List Byte) (lc : Byte) (errs : List BurstErr) (m : Master),
    s.dark = false → data ≠ [] → reqTooLong r data.length = false → s.stopsAt r = none → s.arrivalOf r = .take m → devOf r.addr.toNat = s.devId →
    let a := r.addr.toNat % 2 ^ 48
    let q : Req := { r with master := m }
    let c := s.carryIn q data.length 1 (writePacket s.devId s.devId q lc.toNat data) data.length
    let tgt := c.target a data.length
    let byD := r.eng == some .d
    let n := data.length
    (∀ u, c.check m a n 2 byD = (c, .ok u) → exec (.write r data lc errs) s = .next (c.writeAt m q lc.toNat data errs u).replayed) ∧
    (∀ t o, tgt = .spad t o → c.permits m tgt 2 byD = true → c.pwrMb = false → a < 0xFFFFF8000000 →
      let s1 := c.spadWrite t o data
      (((c.tile t).aborting = false ∨ namesLc m = false ∨ ∃ b, m = .bay b ∧ c.bayOf t = some b.val) →
        exec (.write r data lc errs) s = .next (if namesLc m = true ∧ lc.toNat < 64
          then (s1.land t lc.toNat n).replyWrite q .ok lc.toNat n else s1.replyWrite q .ok 0xFF n).replayed) ∧
      ((c.tile t).aborting = true → namesLc m = true → (∀ b, m = .bay b → c.bayOf t ≠ some b.val) →
        exec (.write r data lc errs) s = .next (c.replyWrite q .dropped 0xFF 0).replayed)) ∧
    (a < 0xFFFFFC000000 → tgt = .unmapped → exec (.write r data lc errs) s = .next
      (((c.logAccess true (masterCode m) 0xFFFF 2 (c.global a)).logAbsent a).replyWrite q .unmapped 0xFF 0).replayed) ∧
    (a < 0xFFFFFC000000 → tgt ≠ .unmapped → c.permits m tgt 2 byD = false → exec (.write r data lc errs) s = .next
      ((c.logAccess false (masterCode m) tgt.code 2 (c.global a)).replyWrite q .denied 0xFF 0).replayed) ∧
    (a < 0xFFFFFC000000 → c.permits m tgt 2 byD = true → c.pwrMb = true → ((∃ g, tgt = .hbm g) ∨ ∃ t o, tgt = .spad t o) →
      exec (.write r data lc errs) s = .next ((c.logs .PWR_ASLEEP [masterCode m, a]).replyWrite q .dropped 0xFF 0).replayed)

/-- 04 R70 to R84, 08 R173: a permitted read answers from its target, reached over the mesh in the same command (`c`, 10 R224; log 69, DESIGN
CHOICE), a scratchpad window with the bytes that stand there (among them those of a DRAIN not yet complete that a free choice lets in,
R129), a word with one wrong bit corrected and recorded, a word with more answered ECC, recorded and, for a request from outside the bay,
stopping the bay (17 R367). A denied or unmapped one is logged and answered so, with all ones; in MOTHBALL a read of HBM or a scratchpad
completes with all ones (18 R401), denied coming before asleep (log 12, DEDUCED). -/
def Obligations.ReadsAnswerFromTheirTargets : Prop :=
  ∀ (s : State) (r : Req) (n : Nat) (errs : List BurstErr) (ext : Option (List Byte)) (m : Master),
    s.dark = false → 1 ≤ n → reqTooLong r n = false → s.stopsAt r = none → s.arrivalOf r = .take m → devOf r.addr.toNat = s.devId →
    let a := r.addr.toNat % 2 ^ 48
    let q : Req := { r with master := m }
    let c := s.carryIn q n 0 (readPacket s.devId s.devId q n) 0
    let tgt := c.target a n
    let kind := if r.exec then 4 else 1
    let byD := r.eng == some .d
    let run := exec (.read r n errs false ext) s
    (∀ u, c.check m a n kind byD = (c, .ok u) → run = .next (c.readAt m q n errs ext u)) ∧
    (∀ t o, tgt = .spad t o → c.permits m tgt kind byD = true → c.pwrMb = false → a < 0xFFFFF8000000 →
      let d := (c.drainSome t).countSpad t 0 n
      let es := errs.filter (fun e => e.burst < (o % 8 + n + 7) / 8)
      let z := es.foldl (fun b e => if flips e = 1 then b.spadCorrected t (o / 8 * 8 + 8 * e.burst) else b) d
      (errs = [] → run = .next ((d.countMesh t n).replyRead q .ok ((d.tile t).spad.read o n) true)) ∧
      (es.find? (fun e => 1 < flips e) = none → run = .next ((z.countMesh t n).replyRead q .ok ((z.tile t).spad.read o n) true)) ∧
      (∀ e, es.find? (fun e => 1 < flips e) = some e →
        let z1 := (z.suspect (z.site t)).record { z.recOfTile 2 4 0 t with addr := z.spadAddr t (o / 8 * 8 + 8 * e.burst) }
        (∀ b, z.bayOf t = some b → (∀ k, m = .bay k → k.val ≠ b) → run = .next ((z1.safetyStop b t).replyRead q .ecc [])) ∧
        ((z.bayOf t = none ∨ ∃ b, m = .bay b ∧ z.bayOf t = some b.val) → run = .next (z1.replyRead q .ecc [])))) ∧
    (a < 0xFFFFFC000000 → tgt = .unmapped → run = .next
      (((c.logAccess true (masterCode m) 0xFFFF kind (c.global a)).logAbsent a).replyRead q .unmapped (allOnes n))) ∧
    (a < 0xFFFFFC000000 → tgt ≠ .unmapped → c.permits m tgt kind byD = false → run = .next
      ((c.logAccess false (masterCode m) tgt.code kind (c.global a)).replyRead q .denied (allOnes n))) ∧
    (a < 0xFFFFFC000000 → c.permits m tgt kind byD = true → c.pwrMb = true → ((∃ g, tgt = .hbm g) ∨ ∃ t o, tgt = .spad t o) →
      run = .next ((c.logs .PWR_ASLEEP [masterCode m, a]).replyRead q .ok (allOnes n)))

/-- 22 R449 to R451, R456: what the host writes and reads through an open BAR2 goes to the address behind its window under the host's code, a
poisoned request changes only the error register; the shelf's controller reaches staging memory, and this device under the shelf's code. -/
def Obligations.HostAndShelfReachMemory : Prop :=
  ∀ (s : State) (errs : List BurstErr),
    (∀ (off : BitVec 41), s.bar2Open off.toNat = true →
      let r := s.portReq .host (s.bar2At off.toNat)
      (∀ data, exec (.hostMemWrite off data false errs) s = .next ((s.count 68 data.length).writeAs .host r 0xFF data errs).replayed) ∧
      (∀ data, exec (.hostMemWrite off data true errs) s = .next s.poisoned.replayed) ∧
      (∀ n ext, exec (.hostMemRead off n false errs .bar2 ext) s = .next ((s.count 69 n).readAs .host r n errs ext)) ∧
      (∀ n, exec (.hostMemRead off n true errs) s = .next (s.poisoned.sends (.completion .unmapped [])))) ∧
    (∀ (a : Dword) (n : Nat) (data : List Byte), s.dark = false →
      (2 ^ 63 ≤ a.toNat → a.toNat + data.length ≤ 2 ^ 63 + 0x400000 →
        exec (.shelfInboundRequest true a n data errs) s = .next
          ({ s.count 70 data.length with shelf := { s.shelf with staging := s.shelf.staging.write (a.toNat - 2 ^ 63) data } } : State).replayed) ∧
      (2 ^ 63 ≤ a.toNat → a.toNat + n ≤ 2 ^ 63 + 0x400000 →
        exec (.shelfInboundRequest false a n data errs) s = .next
          ((s.count 71 n).sends (.completion .ok (s.shelf.staging.read (a.toNat - 2 ^ 63) n))).replayed) ∧
      (a.toNat + data.length ≤ 2 ^ 48 → exec (.shelfInboundRequest true a n data errs) s = .next
        ((s.count 70 data.length).writeAs .shelf (s.portReq .shelf a.toNat) 0xFF data errs).replayed) ∧
      (a.toNat + n ≤ 2 ^ 48 → exec (.shelfInboundRequest false a n data errs) s = .next
        ((s.count 71 n).readAs .shelf (s.portReq .shelf a.toNat) n errs).replayed))

/-- 08 R170, 10 R219, R220, 11 R241, R242, 12 R258, 15 R330: an answer of the tile's launch epoch reaches the load, the write, the signal or
the entry of D that it names; an OK acknowledgement of a remote write raises the acknowledged bytes; an answer of another epoch is only
counted as stale. A poisoned completion of a loft read is counted and handled as Completer Abort (22 R451). An answer to the hub (tile
0x7FF) is that of a snapshot's copy write, of the tag and the snapshot's number that log 34 (DESIGN CHOICE) gives it, or of a RELAY: an OK
copy write raises the acknowledged bytes, and holds the copy when they meet the issued ones of a released step; another status ends it (16
R353); an OK RELAY frees its place and is counted, another status leaves it to its resend, and an UNREACHABLE gives the relay up (21
R441). -/
def Obligations.AnswersReturnToTheirTile : Prop :=
  ∀ (s : State) (t : Fin 1200) (tag : Word) (epoch : Byte) (st : Status) (data : List Byte) (keep : Bool) (lc : Byte) (n : Nat) (reason : Byte),
    let x := s.tile t
    let u := BitVec.ofNat 11 t
    (x.rd F.TILE_D_STATUS_epoch = epoch.toNat →
      exec (.readResp t tag epoch st data keep false) s = .next (s.readAnswered t tag.toNat st false data keep) ∧
      (s.loftWaits t tag.toNat = true →
        exec (.readResp t tag epoch st data keep true) s = .next (s.poisoned.readAnswered t tag.toNat .ecc false data keep)) ∧
      exec (.landAck u tag epoch st lc n) s = .next (s.writeAnswered t tag.toNat st false lc.toNat n) ∧
      exec (.sigStatus t tag epoch st) s = .next (s.signalAnswered t tag.toNat st) ∧
      exec (.unreachable u tag epoch reason 1) s = .next (s.writeAnswered t tag.toNat .dropped true 0xFF 0) ∧
      exec (.unreachable u tag epoch reason 2) s = .next (s.readAnswered t tag.toNat .dropped true [] false) ∧
      exec (.unreachable u tag epoch reason 4) s = .next (s.signalAnswered t tag.toNat .dropped) ∧
      (∀ w, x.stores.find? (fun w => sameTag w.tag tag.toNat && !w.signal) = some w → w.own = false → lc.toNat = w.lc → n = w.bytes →
        let b := s.answerIn t w.addr 3 []
        let z := b.tile t
        let y := ({ z with stores := z.stores.filter (fun e => e.tag != w.tag), reqs := z.reqs.filter (fun e => e.tag != w.tag) } : Tile).dShow
        let s1 := (b.setTile t y).unhold t w.tag
        z.live = true →
        exec (.landAck u tag epoch .ok lc n) s = .next (((s1.setTile t ((s1.tile t).acked n)).fenceLook t).dPump t))) ∧
    (x.rd F.TILE_D_STATUS_epoch ≠ epoch.toNat →
      let stale := s.setTile t (x.bump F.TILE_D_STATUS_stale)
      exec (.readResp t tag epoch st data keep false) s = .next stale ∧ exec (.landAck u tag epoch st lc n) s = .next stale ∧
      exec (.sigStatus t tag epoch st) s = .next stale ∧ ∀ lost, exec (.unreachable u tag epoch reason lost) s = .next stale) ∧
    (let k := tag.toNat % 2 ^ 24
     let acked : State := { s with snap := { s.snap with acked := s.snap.acked + n } }
     (k = copyTag → s.snapState = 2 → epoch.toNat = s.snapN % 256 →
       (st ≠ .ok → exec (.landAck 0x7FF tag epoch st lc n) s = .next
         ((((s.logs .SNAP_COPY_FAIL [s.snapN]).snapSet 0).snapFail 6).board (planCoord s.snap.plan) s.snapN 2)) ∧
       exec (.unreachable 0x7FF tag epoch reason 1) s = .next
         ((((s.logs .SNAP_COPY_FAIL [s.snapN]).snapSet 0).snapFail 6).board (planCoord s.snap.plan) s.snapN 2) ∧
       ((s.on F.HUB_SNAP_STATUS_released = false ∨ acked.snap.acked ≠ s.snap.issued ∨ s.fenced = true) →
         exec (.landAck 0x7FF tag epoch .ok lc n) s = .next acked) ∧
       (s.on F.HUB_SNAP_STATUS_released = true → acked.snap.acked = s.snap.issued → s.fenced = false →
         exec (.landAck 0x7FF tag epoch .ok lc n) s = .next ((acked.snapSet 3).board (planCoord s.snap.plan) s.snapN 1))) ∧
     (k = copyTag → (s.snapState ≠ 2 ∨ epoch.toNat ≠ s.snapN % 256) → exec (.landAck 0x7FF tag epoch st lc n) s = .next s) ∧
     (2 ^ 23 ≤ k →
       let i := k - 2 ^ 23
       (s.fw.sent.any (fun e => e.1 == i) = true → exec (.landAck 0x7FF tag epoch .ok lc n) s = .next
         ((({ s with fw := { s.fw with sent := s.fw.sent.filter (fun e => e.1 != i) } } : State).bump F.HUB_FW_PROGRESS_forwarded).relayGo 4)) ∧
       ((st ≠ .ok ∨ s.fw.sent.any (fun e => e.1 == i) = false) → exec (.landAck 0x7FF tag epoch st lc n) s = .next s) ∧
       exec (.unreachable 0x7FF tag epoch reason 7) s = .next
         (({ s with fw := { s.fw with toSend := [], sent := [], relayOff := true } } : State).wr F.HUB_FW_STATUS_relay_fail 1)))

/-- 12 R254, R258, R266 to R269; 20 R424: a remote signal that is permitted adds to its counter, and is dropped by a tile that is being
aborted, with the answer DROPPED (log 51, DEDUCED); a register write from outside signals as a remote one; the CPC sets a counter through
TILE_SYNC_SET in ON, the open debug port through DBG_SYNC_SET, and every other manual set is refused; a write of TILE_DIG_CFG empties its
slot. -/
def Obligations.CountersAreReachedFromOutside : Prop :=
  ∀ (s : State) (m : Master) (t : Fin 1200) (c : Byte) (v : Word),
    (∀ (r : Req), s.dark = false → s.arrivalOf r = .take m → devOf r.addr.toNat = s.devId → s.signalTile (r.addr.toNat % 2 ^ 48) = some t.val →
      s.permits m (.spad t 0) 2 false = true → s.pwrMb = false →
      (∀ o, s.target (r.addr.toNat % 2 ^ 48) 1 ≠ .loft o) → s.stopsAt r = none →
      exec (.signalPacket r c v) s = .next
        (((s.carryIn r 1 6 (signalPacket s.devId s.devId r c.toNat v.toNat) 0).signalRemote (s.reqNode r) t c.toNat v.toNat).sendSigStatus r
          (if (s.tile t).aborting then .dropped else .ok))) ∧
    (∀ (b : State) (src : Node) (n : Nat), b.signalRemote src t n v.toNat = if (b.tile t).aborting
      then b.setTile t ((b.tile t).bump F.TILE_SYNC_STATUS_dropped)
      else b.sync t (b.arrivalPort src (b.tileNode t)) (fun x => x.setCtr b.tn n ((x.ctr n + v.toNat) % 2 ^ 32))) ∧
    (s.lets m (tileOff t 0x1A08) = true → exec (.tileSyncSignal m t 8 c v) s = .next (s.signalRemote .hub t c.toNat v.toNat)) ∧
    (s.lets m (tileOff t 0x1A10) = true → exec (.tileSyncSet m t 8 c v) s = .next (if m = .cpc ∧ s.pwrOn = true
      then s.sync t 10 (fun x => x.manualSet s.tn s.sinceEdge c.toNat v.toNat 1) else s.refuseSet t (masterCode m) c.toNat v.toNat)) ∧
    (s.lets m 0x50100 = true → s.present t = true → exec (.dbgSyncSet m 8 (BitVec.ofNat 11 t) c v) s = .next
      (if m = .debug ∧ s.debugGrants = true ∧ s.pwrOn = true
      then s.sync t 10 (fun x => x.manualSet s.tn s.sinceEdge c.toNat v.toNat 2) else s.refuseSet t (masterCode m) c.toNat v.toNat)) ∧
    (∀ (n : Fin 16) (w : Dword) (row : RegRow), s.lets m (tileOff t (0x3000 + 0x100 * n.val)) = true →
      findRow tileRows (0x3000 + 0x100 * n.val) = some row →
      let o := 0x3000 + 0x100 * n.val
      exec (.digCfgWrite m t n 8 false w) s = .next (s.setTile t
        (({ s.tile t with regs := rput (s.tile t).regs o (mergeWrite row (rget (s.tile t).regs o) o 8 w.toNat) } : Tile).emptySlot n)))

/-- 00 R7, R9: a register write that the tables permit takes the writable bits of the reached half and clears the bits written as 1 of its W1C
fields, bit by bit, in a hub-side register, a stack's, a port's, a queue's and a tile's; a write of the lower half then starts what its WO
field says; a write of a width that the register does not take changes nothing and is logged, and so is one that the register ignores. 04
R85: ACC_CLEAR_COUNTS and ACC_CLEAR_LOG. 22 R450: HUB_BAR2_WINDOW. 18: PWR_BUDGET's maximum restarts as it is read. -/
def Obligations.RegisterWritesAndReads : Prop :=
  (∀ (row : RegRow) (old : Dword) (off size v i : Nat), i < 64 → off % 8 = 0 ∧ (size = 8 ∨ size = 4) ∨ off % 8 = 4 ∧ size = 4 →
    let hit := size = 8 ∨ i / 32 = off % 8 / 4
    let b := v.testBit (if size = 8 then i else i % 32)
    (mergeWrite row old off size v).getLsbD i =
      if hit ∧ row.rw.testBit i = true then b
      else if hit ∧ row.w1c.testBit i = true ∧ b = true then false else old.getLsbD i) ∧
  ∀ (s : State) (m : Master),
    (∀ (off : BitVec 26) (size : Nat) (v : Dword) (tgt : Target), s.dark = false →
      s.check m (0xFFFFFC000000 + off.toNat) size 2 false = (s, .ok tgt) →
      let ends := fun (u : State) => exec (.regWrite m off size v) s = .next u.replayed
      ends (s.regWriteAt m off.toNat size v.toNat) ∧
      (∀ row, (regPlace off.toNat).row? = some row → widthOk row size = false → (∀ t o, regPlace off.toNat ≠ .tile t o) → off.toNat / 8 * 8 ≠ 0x50100 →
        ends (s.logs .REG_MISALIGNED [masterCode m, off.toNat, size])) ∧
      (∀ t o row, regPlace off.toNat = .tile t o → (Place.tile t o).row? = some row →
        (widthOk row size = false → ends (s.logs .REG_MISALIGNED [masterCode m, tileOff t o, size])) ∧
        (widthOk row size = true → o - o % 8 ∉ [0x1118, 0x1A08, 0x1A10] → ¬ (0x3000 ≤ o - o % 8 ∧ o - o % 8 < 0x4000 ∧ (o - o % 8) % 0x100 = 0) →
          let x := s.tile t
          ends (s.setTile t { x with regs := rput x.regs (o - o % 8) (mergeWrite row (rget x.regs (o - o % 8)) o size v.toNat) }))) ∧
      (∀ p row, regPlace off.toNat = p → p.row? = some row → widthOk row size = true → off.toNat / 8 * 8 ≠ 0x50100 →
        let w := fun old => mergeWrite row old off.toNat size v.toNat
        (∀ o, p = .hub o →
          let k := o / 8 * 8
          let old := rget s.regs (hubKey m k)
          let s1 := s.setRegs (rput s.regs (hubKey m k) (w old))
          (trimLimit k = none → k ∉ [0x300, 0x800, 0x30018, 0x40010] → ends (if off.toNat % 8 = 0 then s1.hubTrigger m k v.toNat else s1)) ∧
          (k = 0x300 → ends (if s.on F.HUB_LOFT_CTRL_enable = true then s.logs .REG_LOCKED [off.toNat] else s1)) ∧
          (k = 0x800 → ends (if bits (w old) 30 18 % s.pcie.bar2Gib = 0 then s1 else s.logs .REG_LOCKED [off.toNat])) ∧
          (k = 0x30018 → ends (s.setRegs (rput s.regs k (putBits (w old) 0 16 (max 2000 (min 9600 (bits (w old) 0 16))))))) ∧
          (k = 0x40010 → ends (if off.toNat % 8 = 0 then { s1 with safe := { s1.safe with full := 0 } } else s1)) ∧
          (∀ lim, trimLimit k = some lim →
            let c := clampUser lim (w old)
            let s2 := s.setRegs (rput s.regs k c.1)
            ends (if c.2 = true then (s2.wr F.TB_EVENT_trim_clamped 1).raised .TRIM_CLAMPED [k] else s2))) ∧
        (∀ st o, p = .stack st o →
          let x := s.stack st
          let s1 := s.setStack st { x with regs := rput x.regs (o / 8 * 8) (w (rget x.regs (o / 8 * 8))) }
          ends (if off.toNat % 8 = 0 then s1.regTrigger m v.toNat (.stack st (o / 8 * 8)) else s1)) ∧
        (∀ k o, p = .port k o →
          let x := s.port k
          let s1 := s.setPort k { x with regs := rput x.regs (o / 8 * 8) (w (rget x.regs (o / 8 * 8))) }
          ends (if off.toNat % 8 = 0 then s1.regTrigger m v.toNat (.port k (o / 8 * 8)) else s1)) ∧
        (∀ q o, p = .queue q o →
          let x := s.queue q
          let s1 := s.setQueue q { x with regs := rput x.regs (o / 8 * 8) (w (rget x.regs (o / 8 * 8))) }
          (o / 8 * 8 ≤ 0x10 → x.state ≠ 0 → ends (s.logs .FE_Q_BUSY [off.toNat])) ∧
          ((o / 8 * 8 ≤ 0x10 → x.state = 0) → o / 8 * 8 ≠ 0x28 → ends s1)))) ∧
    (s.lets m 0x1018 = true →
      exec (.accClearCounts m) s = .next (s.wrs [(F.HUB_ACC_COUNTS_denied, 0), (F.HUB_ACC_COUNTS_unmapped, 0)]) ∧
      exec (.accClearLog m) s = .next (s.setRegs (rput (dropRegs s.regs 0x1100 0x1500) 0x1020 0))) ∧
    (s.lets m 0x800 = true → ∀ base : BitVec 18, exec (.bar2WindowWrite m base) s = .next (s.regWriteAt m 0x800 8 (base.toNat * 2 ^ 30))) ∧
    (∀ (off : BitVec 3) (tgt : Target), s.dark = false → s.check m (0xFFFFFC030018 + off.toNat) 4 1 false = (s, .ok tgt) →
      let s1 := s.sends (.completion .ok (s.regRead m (0x30018 + off.toNat) 4))
      exec (.pwrBudgetRead m off 4) s = .next (if off.toNat = 4 then s1.budgetRead else s1)) ∧
    (∀ (tgt : Target), s.dark = false → s.check m 0xFFFFFC030018 8 1 false = (s, .ok tgt) →
      exec (.pwrBudgetRead m 0 8) s = .next (s.sends (.completion .ok (s.regRead m 0x30018 8))).budgetRead)

/-- 00 R9, 04 R70, R83, R85: a command that is a register write (`controlOf`), of a width or an alignment that R9 does not allow, of an
address that maps nothing, or of a master that the tables do not permit, answers a next state in which only the access log and its counts
have changed: REG_MISALIGNED, the unmapped entry, or the denied entry. An entry stands in the place that HUB_ACC_LOG_PTR.next gives, and
every other register stays. -/
def Obligations.DeniedCommandsChangeOnlyTheLog : Prop :=
  (∀ (s : State) (c : Instr) (m : Master) (off n : Nat), s.controlOf c = some (m, off, n) → s.dark = false → s.stop.replay = none →
    let a := 0xFFFFFC000000 + off
    let tgt := s.target a n
    let fits := (n = 4 ∨ n = 8) ∧ off % n = 0
    (¬ fits → exec c s = .next (s.logs .REG_MISALIGNED [masterCode m, a, n])) ∧
    (fits → tgt = .unmapped → exec c s = .next ((s.logAccess true (masterCode m) 0xFFFF 2 (s.global a)).logAbsent a)) ∧
    (fits → tgt ≠ .unmapped → s.permits m tgt 2 false = false → exec c s = .next (s.logAccess false (masterCode m) tgt.code 2 (s.global a)))) ∧
  ∀ (s : State) (unmapped : Bool) (master target kind addr : Nat),
    let u := s.logAccess unmapped master target kind addr
    let k := s.rd F.HUB_ACC_LOG_PTR_next
    u = { s with regs := u.regs, log := s.log ++ [⟨if unmapped then .ADDR_UNMAPPED else .ACCESS_DENIED, [master, target, kind, addr]⟩] } ∧
    ∀ j, j ∉ [F.HUB_ACC_COUNTS_denied.off, F.HUB_ACC_COUNTS_unmapped.off, (F.HUB_ACC_LOG_ADDR_addr k).off, (F.HUB_ACC_LOG_INFO_master k).off, F.HUB_ACC_LOG_PTR_next.off] →
      rget u.regs j = rget s.regs j

/-! The command front end (13). -/

/-- 13 R275 to R286: the next packet of the queue that its dispatcher serves starts with its row, a malformed one marks the queue GUILTY with
BAD_PACKET. NOP completes; LAUNCH starts the bay's tiles (in the same command: log 22, DESIGN CHOICE), waits for it or finds none; COPY
takes the copy unit; the fences, TICK_WAIT, SNAPSHOT_CUT, TIMESTAMP and JUMP do as their packets say. 08 R180: a tile after LAUNCH is
RUNNING at the entry under the next epoch, its counters at 0, its caches, staging slots, queues, requests, accumulators and registers of V
empty, g1 to g7 as R180 lists them and every other register 0. -/
def Obligations.PacketsDoAsTheirTypesSay : Prop :=
  (∀ (x : Tile) (l : LaunchInfo) (t rank tn cyc : Nat), KMap.wf x.regs = true →
    let y := x.launch l t rank tn cyc
    y.icache = [] ∧ y.dcache = [] ∧ y.stage = [] ∧ y.mq = [] ∧ y.vq = [] ∧ y.dq = [] ∧ y.loads = [] ∧ y.stores = [] ∧ y.reqs = [] ∧ y.mRun = [] ∧
    y.vRun = [] ∧ y.dRun = [] ∧ y.acc = [] ∧ y.vregs = [] ∧ y.streams = [] ∧ y.drain = none ∧ y.chainIn = [] ∧ y.swait = .none ∧ y.fails = [] ∧
    y.spad = x.spad ∧ (∀ n, n < 256 → y.ctr n = 0) ∧ (∀ n, n < 64 → y.rd (F.TILE_LC_count n) = 0) ∧
    y.state = 1 ∧ y.pc = l.entry % 2 ^ 24 ∧ y.rd F.TILE_S_CODE_BASE_base = l.base % 2 ^ 64 ∧ y.rd F.TILE_M_STATUS_seeded = 0 ∧
    y.rd F.TILE_D_STATUS_epoch = (x.rd F.TILE_D_STATUS_epoch + 1) % 256 ∧
    (t < 2 ^ 32 → rank < 2 ^ 32 → l.count < 2 ^ 32 → l.args < 2 ^ 64 → l.bay < 2 ^ 32 → l.dev < 2 ^ 32 →
      y.gr 1 = t ∧ y.gr 2 = rank ∧ y.gr 3 = l.count ∧ y.gr 4 = l.args % 2 ^ 32 ∧ y.gr 5 = l.args / 2 ^ 32 ∧ y.gr 6 = l.bay ∧ y.gr 7 = l.dev) ∧
    ∀ n, n = 0 ∨ 7 < n → y.gr n = 0) ∧
  ∀ (s : State) (q : Fin 32768) (k : Nat) (p0 : Pkt), (s.queue q).next? = some (k, p0) → s.served q = true →
    let a := s.startPkt q k p0
    let p : Pkt := { p0 with started := true }
    let n8 := fun o => le p.bytes o 8
    let b := le p.bytes 8 1
    let d := (a.queue q).disp
    (p0.ok = true →
      (p0.type = 1 → exec (.nop q) s = .next ((a.completePkt q k).settle q)) ∧
      (p0.type = 2 →
        ((a.image? = none ∨ a.image.bay? b = none ∨ a.bayTiles b = []) → exec (.launch q) s = .next ((a.feCause q 0x8B).settle q)) ∧
        (a.image? ≠ none → a.image.bay? b ≠ none → a.bayTiles b ≠ [] →
          ((a.bay b).waiting = [] → a.launchable b = true → exec (.launch q) s = .next ((a.issue q k b p).settle q)) ∧
          (((a.bay b).waiting ≠ [] ∨ a.launchable b = false) → exec (.launch q) s = .next
            (((a.setQueue q ((a.queue q).setPkt k { p with stage := 1, bay := some b })).setBay b
              { a.bay b with waiting := (a.bay b).waiting ++ [q.val] }).settle q)))) ∧
      (p0.type = 3 →
        let c := (a.waitPkt q k { p with stage := 1 }).wr (F.FE_DISP_busy d) 1
        exec (.copy q) s = .next (({ c with disp := kput c.disp d ⟨some q.val, n8 16, n8 24, le p.bytes 32 4, b⟩ } : State).settle q)) ∧
      (p0.type = 4 → exec (.fenceSignal q) s = .next ((a.ownWrite q k b (n8 16) (sub p.bytes 24 8)).settle q)) ∧
      (p0.type = 5 → ∀ v errs, exec (.fenceWait q v errs) s = .next ((a.fenceRead q k p v errs).settle q)) ∧
      (p0.type = 6 → exec (.tickWait q) s = .next ((if n8 16 ≤ a.tn then a.completePkt q k else a.waitPkt q k p).settle q)) ∧
      (p0.type = 7 →
        let e := a.enterAct (n8 16) 2 (le p.bytes 24 4) 1
        let s1 := e.1.actResult 1 e.2.1 (if e.2.1 = 0 then some e.2.2 else none)
        (e.2.1 = 0 → exec (.snapshotCutPacket q) s = .next
          ((s1.setQueue q ((s1.queue q).setPkt k { p with stage := 1, left := e.2.2 })).settle q)) ∧
        (e.2.1 ≠ 0 → exec (.snapshotCutPacket q) s = .next ((s1.feCause q 0x89).settle q))) ∧
      (p0.type = 8 → exec (.timestamp q) s = .next ((a.ownWrite q k b (n8 16)
        (leBytes 8 a.tn ++ leBytes 4 (a.sinceEdge * 5 / 12) ++ leBytes 4 0)).settle q)) ∧
      (p0.type = 9 → exec (.jump q) s = .next
        ((a.setQueue q { a.queue q with jump := some (b, n8 16, le p.bytes 24 4) }).settle q))) ∧
    (p0.ok = false →
      let bad := a.markGuilty q 0x82 0x7FF
      ((p0.type < 2 ∨ 9 < p0.type) → exec (.nop q) s = .next bad) ∧ (p0.type = 2 → exec (.launch q) s = .next bad) ∧
      (p0.type = 3 → exec (.copy q) s = .next bad) ∧ (p0.type = 4 → exec (.fenceSignal q) s = .next bad) ∧
      (p0.type = 5 → ∀ v errs, exec (.fenceWait q v errs) s = .next bad) ∧ (p0.type = 6 → exec (.tickWait q) s = .next bad) ∧
      (p0.type = 7 → exec (.snapshotCutPacket q) s = .next bad) ∧ (p0.type = 8 → exec (.timestamp q) s = .next bad) ∧
      (p0.type = 9 → exec (.jump q) s = .next bad))

/-- 13 R280 to R287 (log 23, DESIGN CHOICE: the confirmation of a posted write is a command of its own; log 118: of a write not confirmed a
free choice says whether its completion was poisoned): what a packet that waits waits for: a later read of its fence, its tick, its copy
unit (which fails when a piece cannot be read or written, or a write elsewhere is not confirmed), the confirmation of a fence write. The
timer that passes timeout_ms marks the queue GUILTY. -/
def Obligations.WaitingPacketsEnd : Prop :=
  ∀ (s : State) (q : Fin 32768),
    let x := s.queue q
    (∀ k n v errs, s.feReady = true → nthIdx (fun p => p.started && !p.done && p.type == 5 && p.stage == 1) x.pkts n = some k →
      exec (.fencePoll q v errs n) s = .next ((s.fenceRead q k (x.pkts.getD k { bytes := [] }) v errs).settle q)) ∧
    (∀ k, s.stopped = false → x.busyPkt (fun p => p.type == 6 && p.stage == 1 && le p.bytes 16 8 ≤ s.tn) = some k →
      exec (.tickWaitExpiry q) s = .next (s.completePkt q k)) ∧
    (∀ c l, x.confirm = c :: l →
      let s1 := s.setQueue q { x with confirm := l }
      let s2 := s1.badCompletion.1
      let either := fun (ok : Bool) => if ok then s1 else s2
      (c = 0 → ∀ k, x.busyPkt (fun p => p.type == 4 || p.type == 8) = some k → exec (.fenceWriteConfirm q true) s = .next (s1.completePkt q k)) ∧
      (c = 1 → exec (.fenceWriteConfirm q true) s = .next (s1.qMsix q)) ∧
      ((c = 2 ∨ c = 3) → exec (.fenceWriteConfirm q true) s = .next s1) ∧
      (c < 4 → exec (.fenceWriteConfirm q false) s = .next (s2.writeFault q)) ∧
      (c = 4 → x.state = 2 → ∀ ok, exec (.fenceWriteConfirm q ok) s = .next ((either ok).guiltyEnd q)) ∧
      (c = 5 → x.state = 5 → ∀ ok, exec (.fenceWriteConfirm q ok) s = .next ((either ok).destroyFenced q)) ∧
      (c = 6 → ∀ ok, exec (.fenceWriteConfirm q ok) s = .next (either ok))) ∧
    (∀ (d : Fin 4) c data confirmed errs, kget s.disp d {} = c → c.queue = some q.val →
      let l := cut256 (c.len / 256 + 2)
      let r := s.copyRead (c.space % 2) c.src data errs (l c.src c.len)
      let o := r.1.copyData c r.2.1
      let w := o.1.copyWrite (c.space / 2 % 2) c.dst o.2 (l c.dst c.len)
      let s1 := ({ w.1 with disp := kput w.1.disp d ({} : Disp) } : State).wr (F.FE_DISP_busy d) 0
      (∀ k, r.2.2 = true → (w.2 = 0 ∨ (w.2 = 1 ∧ confirmed = true)) → (s1.queue q).busyPkt (fun p => p.type == 3) = some k →
        exec (.copyUnitDone d data errs confirmed) s = .next (s1.completePkt q k)) ∧
      (((r.2.2 = false ∧ (w.2 ≠ 1 ∨ confirmed = true)) ∨ 2 ≤ w.2) → exec (.copyUnitDone d data errs confirmed) s = .next (s1.feCause q 0x88)) ∧
      (w.2 = 1 → confirmed = false → exec (.copyUnitDone d data errs confirmed) s = .next (s1.badCompletion.1.feCause q 0x88))) ∧
    (s.timerRuns q = true → exec (.queueTimeout q) s = .next (s.feCause q 0x80))

/-- 13 R271, R292, R296, R299: a permitted doorbell of an ACTIVE or GUILTY queue within its ring sets tail, one beyond it marks the queue
GUILTY, any other is ignored and logged; CREATE, DESTROY and RESUME, and the clear of the counts; RING_FETCH of an ACTIVE queue with
nothing to fetch from a JUMP's buffer adds up to 16 packets of the ring. -/
def Obligations.QueuesAreOperated : Prop :=
  ∀ (s : State) (m : Master) (q : Fin 32768),
    let x := s.queue q
    let gone := (s.qState q 3).cancelWork q
    let y := ({ x with regs := rput x.regs 0x30 0x7FF00 } : Queue).retire ((x.tail + 2 ^ 32 - x.head) % 2 ^ 32)
    (∀ t : Word, s.lets m (doorbellOff q) = true →
      let there := (x.tail + 2 ^ 32 - x.head) % 2 ^ 32
      let here := (t.toNat + 2 ^ 32 - x.head) % 2 ^ 32
      ((x.state = 1 ∨ x.state = 2) → there ≤ here → here ≤ x.entries → exec (.doorbell m q t) s = .next (s.setQueue q (x.wr F.FE_Q_PTR_tail t.toNat))) ∧
      ((x.state = 1 ∨ x.state = 2) → (here < there ∨ x.entries < here) → exec (.doorbell m q t) s = .next (s.feCause q 0x84)) ∧
      (x.state ≠ 1 → x.state ≠ 2 → exec (.doorbell m q t) s = .next (s.logs .FE_DB_IGNORED [q.val]))) ∧
    (s.lets m (queueOff q 0x28) = true →
      (x.state = 0 → x.cfgOk = true → exec (.create m q) s = .next
        (((s.setQueue q (({ regs := rput (rput (rput x.regs 0x18 0) 0x30 0x7FF00) 0x38 0 } : Queue).wrs
          [(F.FE_Q_STATE_destroyed, 0), (F.FE_Q_STATE_reset_done, 0)])).qState q 1).partitionCheck q)) ∧
      (x.state = 0 → x.cfgOk = false → exec (.create m q) s = .next (s.logs .FE_Q_BADCFG [q.val])) ∧
      (x.state ≠ 0 → exec (.create m q) s = .next (s.logs .FE_Q_BUSY [q.val])) ∧
      ((x.state = 1 ∨ x.state = 2) → exec (.destroy m q) s = .next
        ((gone.setQueue q { gone.queue q with seqAt := s.time, seqStep := 0 }).destroyStep q)) ∧
      (x.state ≠ 1 → x.state ≠ 2 → exec (.destroy m q) s = .next (s.logs .FE_Q_BUSY [q.val])) ∧
      (x.state = 2 → x.rd F.FE_Q_STATE_reset_done = 1 → exec (.resume m q) s = .next
        (((s.setQueue q (({ y with pkts := [], fetchedTo := x.tail, seqStep := 0 } : Queue).wr F.FE_Q_STATE_reset_done 0)).qState q 1).partitionCheck q)) ∧
      ((x.state ≠ 2 ∨ x.rd F.FE_Q_STATE_reset_done ≠ 1) → exec (.resume m q) s = .next (s.logs .FE_Q_BUSY [q.val]))) ∧
    (s.lets m 0x800010 = true → exec (.feClearCounts m) s = .next (s.wrs [(F.FE_COUNTS_guilty_events, 0), (F.FE_COUNTS_bay_resets, 0)])) ∧
    (∀ n i data errs, n = x.fetchCount → i = x.fetchedTo → x.state = 1 → s.feReady = true → x.jump = none →
      let r := s.fetchRing q data errs n i 0
      (∀ l, r.2 = some l → exec (.ringFetch q data errs) s = .next
        ((r.1.setQueue q { r.1.queue q with pkts := (r.1.queue q).pkts ++ l, fetchedTo := (i + n) % 2 ^ 32 }).settle q)) ∧
      (r.2 = none → exec (.ringFetch q data errs) s = .next (r.1.feCause q 0x83)))

/-! HBM (14). -/

/-- 14 R303 to R306: a burst that is written whole reads back as written, and every byte elsewhere stays (a row being mirrored takes it at its
spare too, R314); a write of less than a burst reads it, puts its bytes in and writes the burst, or changes no byte and is counted when
the read is uncorrectable; a read is decoded: no error, a correction of the erased lines and of at most (4 - f) / 2 others that fits the
syndromes, counted and recorded, or none, which fails the request, is counted and recorded, and makes the row a candidate. 14 R308 to
R310: HBM_SCRUB corrects the next granule of a pseudo-channel of a serving stack; a temperature reading sets now, max, the refresh code
and throttling, with HBM_HOT when throttling changes; HBM_TEMP_CLEAR brings max to now. The refresh code rises at once: 2 above 95 °C, at
least 1 above 85 °C. -/
def Obligations.HbmScrubsAndWatchesTemperature : Prop :=
  (∀ (s : State) (r : Region) (a addr : Nat) (data : List Byte) (pc o : Nat), s.image.place r a = (pc, o) → o % 32 = a % 32 →
    let st := pc / 32
    let mirror := (s.stack st).build.find? (fun e => e.pc == pc % 32 && e.bank == bankOf o && e.row == rowOf o)
    (s.hbm.wf = true → a % 32 = 0 → data.length = 32 →
      let w := s.hbmWrite r a addr data []
      w.2 = 32 ∧ w.1.hbm.wf = true ∧ (∀ z, (w.1.hbmRead r a 32 z []).2 = some data) ∧
      ∀ b, (b < s.hbmPhys pc o ∨ s.hbmPhys pc o + 32 ≤ b) →
        (∀ e, mirror = some e → b < hbmKey pc (toRow o (49120 + e.spare)) ∨ hbmKey pc (toRow o (49120 + e.spare)) + 32 ≤ b) →
        w.1.hbm.get b = s.hbm.get b) ∧
    (∀ errs, 0 < data.length → data.length < 32 → a % 32 + data.length ≤ 32 →
      let n := data.length
      let rd := (s.busErrs pc o addr errs 0).burstRead pc o addr (errsOf errs 0) false
      (rd.2 = none → s.hbmWrite r a addr data errs =
        (rd.1.setStack st ((rd.1.stack st).bump F.HBM_ECC_COUNTS_dropped_writes), 0)) ∧
      (∀ b, rd.2 = some b → s.hbmWrite r a addr data errs =
        (rd.1.burstStore pc (o / 32 * 32) n (b.take (o % 32) ++ data ++ b.drop (o % 32 + n)), n)))) ∧
  (∀ (s : State) (pc o addr : Nat) (errs : List (Nat × Byte)),
    let st := pc / 32
    let x := s.stack st
    let k := s.hbmPhys pc (o / 32 * 32)
    let po := k % 0xC0000000
    let er := x.erased (pc % 32)
    let s0 := s.count (36 + 2 * st) 32
    let rd := s.burstRead pc o addr errs false
    (s.hbmBad.contains (k / 32) = false → rsDecode er errs = some [] → rd = (s0, some (xorLines (s.hbm.read k 32) errs))) ∧
    (∀ e l, s.hbmBad.contains (k / 32) = false → rsDecode er errs = some (e :: l) →
      rd.2 = some (xorLines (xorLines (s.hbm.read k 32) errs) (e :: l)) ∧ rd.1 =
        (((s0.setStack st (x.bump F.HBM_ECC_COUNTS_corrected)).hbmRecord 1 0 st (pc % 32) (bankOf po) (rowOf po) (burstOf po) ((e :: l).map (·.1)) addr).hbmCharge
          st (pc % 32) ((e :: l).map (·.1))).hbmHistory st (pc % 32) (bankOf po) (rowOf po) (burstOf po)
          (((e :: l).map (·.1)).any (fun n => !er.contains n)) false) ∧
    ((s.hbmBad.contains (k / 32) = true ∨ rsDecode er errs = none) → rd =
      (((s0.setStack st ((x.bump F.HBM_ECC_COUNTS_uncorrectable).wr F.HBM_LAST_UE_addr addr)).hbmRecord 2 1 st (pc % 32) (bankOf po) (rowOf po) (burstOf po)
        [] addr).hbmCandidate st (pc % 32) (bankOf po) (rowOf po), none))) ∧
  (∀ (er : List Nat) (errs : List (Nat × Byte)),
    let s := syndromes errs
    let sets := chooseUpTo ((4 - er.length) / 2) ((List.range 36).filter (fun k => !er.contains k))
    ((∀ b ∈ s, b = 0) → rsDecode er errs = some []) ∧
    (rsDecode er errs = none → ∀ ls ∈ sets, tryLines s (er ++ ls) = none) ∧
    (∀ fix, rsDecode er errs = some fix → fix ≠ [] → ∃ ls ∈ sets, ∃ l, tryLines s (er ++ ls) = some l ∧ fix = l.filter (fun e => e.2 != 0))) ∧
  (∀ (s : State) (st : Fin 16) (pc : Fin 32) (errs : List BurstErr),
    let x := s.stack st
    let g := kget x.scrub pc 0
    let n := (g + 1) % 12582912
    x.rd F.HBM_STATUS_state = 1 → exec (.hbmScrub st pc errs) s = .next
      ((s.setStack st { x with scrub := if n = 0 then kdel x.scrub pc else kput x.scrub pc n }).scrubGranule (32 * st.val + pc.val) (256 * g) errs)) ∧
  (∀ (s : State) (st : Fin 16) (temp : Byte),
    let x := s.stack st
    let t := temp.toNat
    let c85 := coolSince x.cool85 t 82 s.time
    let c95 := coolSince x.cool95 t 92 s.time
    let hot := if x.rd F.HBM_STATUS_throttled = 1 then decide (102 < t) else decide (105 < t)
    let y := ({ x with cool85 := c85, cool95 := c95 } : Stack).wrs
      [(F.HBM_TEMP_now, t), (F.HBM_TEMP_max, max t (x.rd F.HBM_TEMP_max)),
       (F.HBM_STATUS_refresh, refreshCode (x.rd F.HBM_STATUS_refresh) t (coolFor c85 s.time) (coolFor c95 s.time)),
       (F.HBM_STATUS_throttled, b2n hot)]
    exec (.hbmTempRead st temp) s = .next (if (x.rd F.HBM_STATUS_throttled = 1) = hot then s.setStack st y else (s.setStack st y).hbmHot st)) ∧
  (∀ (s : State) (m : Master) (st : Fin 16), s.lets m (stackOff st 8) = true →
    exec (.hbmTempClear m st) s = .next (s.setStack st ((s.stack st).wr F.HBM_TEMP_max ((s.stack st).rd F.HBM_TEMP_now)))) ∧
  ∀ (old t : Nat) (a b : Bool), (95 < t → refreshCode old t a b = 2) ∧ (85 < t → 1 ≤ refreshCode old t a b)

/-- 14 R311 to R316 (log 80, DESIGN CHOICE: how long the copy of a row takes is the outside world's): HBM_RET_ADD takes a row of the array as
a candidate; when its rows are copied the new generation is READY; HBM_RET_SCHEDULE enters its swap; the swap puts it in force, keeping
every entry of the old generation that no new one replaces; HBM_RET_DISCARD drops it. -/
def Obligations.RowsAreRetired : Prop :=
  ∀ (s : State) (m : Master) (st : Fin 16),
    let x := s.stack st
    (∀ bad, x.rd F.HBM_RET_STATUS_state = 1 →
      let s1 := ((List.range x.build.length).zip x.build).foldl (fun a p => a.copyRow st p.2 ((bad.filter (·.1 == p.1)).map (·.2))) s
      exec (.hbmRowCopyDone st bad) s = .next ((s1.setStack st ((s1.stack st).wr F.HBM_RET_STATUS_state 2)).hbmAutoSwap st)) ∧
    (s.lets m (stackOff st 0x20) = true →
      (x.rd F.HBM_RET_ADD_row ≤ 49151 → exec (.hbmRetAdd m st) s = .next
        (s.hbmCandidate st (x.rd F.HBM_RET_ADD_pc) (x.rd F.HBM_RET_ADD_bank) (x.rd F.HBM_RET_ADD_row))) ∧
      (49151 < x.rd F.HBM_RET_ADD_row → exec (.hbmRetAdd m st) s = .next (s.logs .HBM_RET_BUSY [st.val])) ∧
      (x.rd F.HBM_RET_STATUS_state = 2 →
        let e := s.enterAct (x.rd F.HBM_RET_SWAP_TN_tn) 4 (1 + 256 * st.val) 3
        (e.2.1 = 0 → exec (.hbmRetSchedule m st) s = .next (e.1.setStack st ((e.1.stack st).wr F.HBM_RET_STATUS_state 3))) ∧
        (e.2.1 = 1 → exec (.hbmRetSchedule m st) s = .next (e.1.logs .HBM_LATE [st.val]))) ∧
      (x.rd F.HBM_RET_STATUS_state ≠ 2 → exec (.hbmRetSchedule m st) s = .next (s.logs .HBM_RET_BUSY [st.val])) ∧
      (x.rd F.HBM_RET_STATUS_state ≠ 0 → exec (.hbmRetDiscard m st) s = .next
        (((s.cancelActs (isHbmSwap st)).setStack st ({ x.wr F.HBM_RET_STATUS_state 0 with build := [] } : Stack).sync).hbmBuild st)) ∧
      (x.rd F.HBM_RET_STATUS_state = 0 → exec (.hbmRetDiscard m st) s = .next (s.logs .HBM_RET_BUSY [st.val]))) ∧
    (∀ a s1, s.takeDue 4 (fun a => a.arg % 256 == 1) = some (a, s1) → a.arg / 256 % 256 = st →
      let z := s1.stack st
      let g := z.rd F.HBM_RET_STATUS_generation + 1
      (z.rd F.HBM_RET_STATUS_state = 3 → exec .hbmTableSwap s = .next
        (((s1.setStack st ((({ z with active := z.nextTable, build := [], saved := z.nextTable, savedGen := g } : Stack).sync).wrs
          [(F.HBM_RET_STATUS_state, 0), (F.HBM_RET_STATUS_generation, g)])).newTable st z.active z.nextTable).hbmBuild st)) ∧
      ∀ e ∈ z.active, (∀ n ∈ z.build, ¬ (n.pc = e.pc ∧ n.bank = e.bank ∧ n.row = e.row)) → e ∈ z.nextTable)

/-! Device links (15). -/

/-- 15 R322 to R325: at a port in HELLO or UP a flit's corrected and uncorrectable codewords are counted. UP, a good data flit with the
expected number is taken, another that is not a repeat fails it, and a repeat is acknowledged again; a NAK resends from its number, a
retrain request retrains; what each acknowledges leaves the store, and its credits return. A bad flit is counted and recorded and fails
the expected one; one whose codewords were corrected is recorded too (17 R367). In HELLO a good flit hands its HELLO packets on, a bad one
is counted. The model's choices in it: HELLO flits without sequence numbers (log 21), fill words (log 14), the kind of a record (log 19)
and what a global stop lets through (log 20). -/
def Obligations.FlitsAreTakenInOrder : Prop :=
  ∀ (s : State) (p : Fin 32) (flit : List Byte) (fixed : Nat) (bad : Bool),
    let st := (s.port p).rd F.LNK_STATUS_state
    let x := ((s.port p).bump F.LNK_FEC_corrected fixed).bump F.LNK_FEC_uncorrectable (b2n bad)
    let s0 := (s.setPort p x).fecRecord p (fixed != 0 && !bad)
    let good := bad = false ∧ flit.length = 256 ∧ le flit 252 4 = (crc32 (flit.take 252)).toNat
    let seq := le flit 0 2 % 4096
    let kind := le flit 0 2 / 4096
    let ack := le flit 2 2 % 4096
    let s1 := fun a => s0.setPort p ((x.acked a).credit (le flit 4 1 % 8) (le flit 5 1))
    (st = 2 →
      (good → kind = 1 → exec (.linkFlit p flit bad fixed) s = .next (s0.helloFlit p flit)) ∧
      (¬ good → exec (.linkFlit p flit bad fixed) s = .next (s0.setPort p (x.bump F.LNK_ERRS_crc_fail)))) ∧
    (st = 3 → good →
      (kind = 1 → seq = x.expect → exec (.linkFlit p flit bad fixed) s = .next (((s1 ack).dataFlit p flit).egressDrain p)) ∧
      (kind = 1 → seq ≠ x.expect → (x.failSeq ≠ none ∨ 2048 ≤ (seq + 4096 - x.expect) % 4096) →
        exec (.linkFlit p flit bad fixed) s = .next (((s1 ack).sendCtl p 0 x.ack 0 0).egressDrain p)) ∧
      (kind = 1 → seq ≠ x.expect → x.failSeq = none → (seq + 4096 - x.expect) % 4096 < 2048 →
        exec (.linkFlit p flit bad fixed) s = .next (((s1 ack).flitFail p).egressDrain p)) ∧
      (kind = 0 → exec (.linkFlit p flit bad fixed) s = .next ((s1 ack).egressDrain p)) ∧
      (let s2 := s1 ((ack + 4095) % 4096)
       kind = 2 → exec (.linkFlit p flit bad fixed) s = .next
        (((s2.setPort p ((s2.port p).bump F.LNK_ERRS_retries)).resend p ack).egressDrain p)) ∧
      (kind = 3 → exec (.linkFlit p flit bad fixed) s = .next (((s1 ack).portRetrain p).egressDrain p))) ∧
    (st = 3 → ¬ good →
      let s2 := (s0.setPort p (x.bump F.LNK_ERRS_crc_fail)).portRecord 1 9 8 p
      exec (.linkFlit p flit bad fixed) s = .next (if x.failSeq = none ∨ seq = x.expect then s2.flitFail p else s2))

/-- 15 R321, R324, R330, R334: a trained port sends its HELLO, a retrained one is UP again, with the spare and the width that its bad lanes
then ask for, and sends its store again, or is DOWN when no half is good; a timeout, a lane's failure, an O port's lost lock and the
operations of LNK_CTRL move the port as R334 says; a packet that has waited 1 ms is dropped and recorded. A lane that fails in a port past
training is marked and raised, and the port retrains or goes DOWN. A retrain takes an UP port to RETRAIN and counts it; training takes a
DOWN port to TRAINING, but for the O ports of an isolated engine; LNK_DOWN is an event and a record, and the port's store is dropped and
answered with reason 2. The record's kind is log 19, and that HELLO flits carry no sequence number log 21. -/
def Obligations.PortsChangeState : Prop :=
  ∀ (s : State) (m : Master) (p : Fin 32),
    let x := s.port p
    (x.rd F.LNK_STATUS_state = 1 →
      (x.widthLost = true → exec (.linkTrained p) s = .next (s.portDown p)) ∧
      (x.widthLost = false → exec (.linkTrained p) s = .next (((s.setPort p (x.wrs [(F.LNK_STATUS_state, 2), (F.LNK_STATUS_spare_for, x.spareTo)])).applyWidth p).sends
        (.flit p (mkFlit 0 1 0 0 0 0 (ctrlPacket s.devId 1 (leBytes 8 s.groupDigest) []))))) ∧
      exec (.linkTrainTimeout p) s = .next ((s.setPort p (x.wrs [(F.LNK_STATUS_state, 0), (F.LNK_EVENT_train_fail, 1)])).raised .LNK_TRAIN_FAIL [p.val])) ∧
    (x.rd F.LNK_STATUS_state = 4 →
      let s1 := (s.setPort p { x.wrs [(F.LNK_STATUS_state, 3), (F.LNK_STATUS_spare_for, x.spareTo)] with fails := 0 }).applyWidth p
      let s2 := s1.sendAll (((s1.port p).store).map (fun e => .flit p e.2))
      (x.widthLost = false → exec (.linkTrained p) s = .next (s2.egressDrain p)) ∧
      (x.widthLost = true → exec (.linkTrained p) s = .next (s.portDown p)) ∧
      exec (.linkRetrainTimeout p) s = .next (s.portDown p)) ∧
    (∀ lane, exec (.laneLockLoss p lane) s = .next (s.markLane p lane) ∧ exec (.laneBerCheck p lane true) s = .next (s.markLane p lane) ∧
      exec (.laneBerCheck p lane false) s = .next s) ∧
    (∀ lane : Fin 9, (16 ≤ p.val ∨ x.laneBad lane = true ∨ x.rd F.LNK_STATUS_state < 2) → s.markLane p lane = s) ∧
    (16 ≤ p.val → exec (.oPortLockLoss p) s = .next (s.portRetrain p)) ∧
    (s.lets m (lnkCtrlOff p) = true →
      exec (.lnkRetrain m p) s = .next (s.portRetrain p) ∧ exec (.lnkDisable m p) s = .next (s.portDrop p) ∧
      exec (.lnkEnable m p) s = .next (s.portTrain p)) ∧
    (∀ vc e, x.egress.find? (fun e => pktVc e.2 == vc.toNat) = some e → s.stopped = false →
      exec (.egressStallDrop p vc) s = .next
        (((((s.setPort p { x.wr F.LNK_EVENT_stall 1 with egress := x.egress.erase e }).hubEvent).portRecord 2 12 6 p).dropPkt p 4 e.2).freed p e.2)) ∧
    (∀ lane : Fin 9, p.val < 16 → x.laneBad lane = false → 2 ≤ x.rd F.LNK_STATUS_state →
      let y := x.wrs [(F.LNK_STATUS_bad_lanes, x.rd F.LNK_STATUS_bad_lanes + 2 ^ lane.val), (F.LNK_EVENT_lane_bad, 1)]
      let z := { y with nextHalf := decide (2 ≤ y.badLanes.length), marked := x.marked ++ [lane.val] }
      let s1 := (s.setPort p z).raised .LNK_LANE_BAD [p.val, lane.val]
      s.markLane p lane = if z.widthLost then s1.portDown p else s1.portRetrain p) ∧
    (s.portRetrain p = if x.rd F.LNK_STATUS_state = 3
      then (s.setPort p { (x.wr F.LNK_STATUS_state 4).bump F.LNK_STATUS_retrains with trainAt := s.time }).logs .LNK_RETRAIN [p.val] else s) ∧
    (s.portTrain p = if x.rd F.LNK_STATUS_state ≠ 0 ∨ (16 ≤ p.val ∧ (s.oe (decide (24 ≤ p.val))).isolated = true) then s
      else s.setPort p { x.wrs [(F.LNK_STATUS_state, 1), (F.LNK_STATUS_retrains, 0)] with trainAt := s.time }) ∧
    (s.portDown p =
      (((s.setPort p (x.wr F.LNK_EVENT_down 1)).raised .LNK_DOWN [p.val]).record { sev := 2, cls := 9, kind := 0, unit := p.val }).portDrop p) ∧
    (let gone := ({ x.wr F.LNK_STATUS_state 0 with
          store := [], owners := [], egress := [], rx := [], fails := 0, failSeq := none, retrain2 := 0 } : Port)
     s.portDrop p = (x.egress.map (·.2)).foldl (fun a b => a.freed p b)
      ((x.owners.map (·.2) ++ x.egress.map (·.2)).foldl
        (fun a b => (a.setPort p ((a.port p).bump F.LNK_DROPS_stall)).unreach b 2)
        { s.setPort p gone with relayed := s.relayed.filter (fun e => e.1 != p.val) }))

/-- 15 R325, R334, R336 to R340: a HELLO of the peer that LINKS names, with this group's digest, brings the port UP with full credit; any
other brings it DOWN. A membership packet of a member that was not heard is recorded and flooded once to every other UP port; one of
another group is counted as foreign. At a heartbeat edge a member is present while it was heard in the last two periods and its last flag
is clear, and the device itself unless FENCED; more than half of the members, or half with the anchor, are a quorum: FORMING becomes
MEMBER with it, MEMBER becomes FENCED without it, which makes every ACTIVE queue GUILTY with PARTITIONED, and FENCED stays. Requests of a
fenced member, or on a fenced device of any other, are refused. -/
def Obligations.NeighboursAndMembersAreHeard : Prop :=
  ∀ (s : State) (p : Fin 32) (src : BitVec 16),
    (∀ digest : Dword, (s.port p).rd F.LNK_STATUS_state = 2 →
      let y := (s.port p).wr F.LNK_STATUS_peer src.toNat
      (s.peer? p = some src.toNat → digest.toNat = s.groupDigest →
        exec (.hello p src digest) s = .next ((s.setPort p y.up).egressDrain p) ∧ y.up.credits = fullCredits) ∧
      (s.peer? p ≠ some src.toNat → exec (.hello p src digest) s = .next
        ((s.setPort p (y.wrs [(F.LNK_STATUS_state, 0), (F.LNK_EVENT_peer_mismatch, 1)])).raised .LNK_PEER_MISMATCH [p.val, src.toNat])) ∧
      (s.peer? p = some src.toNat → digest.toNat ≠ s.groupDigest → exec (.hello p src digest) s = .next
        ((s.setPort p (y.wrs [(F.LNK_STATUS_state, 0), (F.LNK_EVENT_digest_mismatch, 1)])).raised .LNK_DIGEST_MISMATCH [p.val, src.toNat]))) ∧
    (∀ (period digest : Dword) (fenced : Bool) (hops : Byte),
      let key := (src.toNat, period.toNat)
      let g := { s.grp with
        latest := kput s.grp.latest src.toNat period.toNat
        fenced := if fenced then (if s.grp.fenced.contains src.toNat then s.grp.fenced else s.grp.fenced ++ [src.toNat])
          else s.grp.fenced.filter (· != src.toNat)
        heard := s.grp.heard ++ [key] }
      let s1 : State := { s with grp := g }
      let pk := pktHop (memberPacket src.toNat period.toNat digest.toNat fenced)
      ((digest.toNat ≠ s.groupDigest ∨ s.image.members.contains src.toNat = false) →
        exec (.membership p src period digest fenced hops) s = .next (s.bump F.HUB_GRP_COUNTS_foreign)) ∧
      (digest.toNat = s.groupDigest → s.image.members.contains src.toNat = true → src.toNat ≠ s.devId → s.grp.heard.contains key = false →
        exec (.membership p src period digest fenced hops) s = .next (if 32 ≤ hops.toNat + 1 then s1.countDrop p 3
          else s1.forEach ((List.range 32).filter (fun q => q != p.val && s1.portUp q))
            (fun a q => a.egressPut q (pk.take 8 ++ leBytes 1 (hops.toNat + 1) ++ pk.drop 9))))) ∧
    (∀ k d, d ≠ s.devId → (s.grpPresent k d = true ↔ (∃ l, kget? s.grp.latest d = some l ∧ k ≤ l + 2) ∧ d ∉ s.grp.fenced)) ∧
    (∀ k, s.grpPresent k s.devId = !s.fenced) ∧
    (2 ≤ s.image.members.length → s.pwrMb = false → s.grp.resume = 0 →
      let pk := memberPacket s.devId (s.tn / 100) s.groupDigest s.fenced
      let s1 := s.forEach ((List.range 32).filter s.portUp) (fun a q => a.egressPut q pk)
      s1.pwrMb = false → s1.grp.resume = 0 → s.heartbeat = s1.evaluate (s.tn / 100)) ∧
    (∀ k,
      let ms := s.image.members
      let n := ((ms.map (s.grpPresent k)).filter (· == true)).length
      let anchor := s.grpPresent k s.image.anchor
      let quorum := ms.length < 2 * n ∨ (2 * n = ms.length ∧ anchor = true)
      let s1 := (s.setRegs (putPresent s.regs 0 256 (ms.map (s.grpPresent k)))).wrs
        [(F.HUB_GRP_STATUS_present, n), (F.HUB_GRP_STATUS_anchor_present, b2n anchor), (F.HUB_GRP_STATUS_quorum, b2n (decide quorum))]
      let st := s.rd F.HUB_GRP_STATUS_state
      (st = 2 → s.evaluate k = s1) ∧
      (st ≠ 2 → quorum → s.evaluate k = s1.grpState 1) ∧
      (st = 1 → ¬ quorum → s.evaluate k =
        (let s2 := s1.grpState 2
         (s2.forEach ((s2.queues.filter (fun e => e.2.state == 1)).map (·.1)) (fun a q => a.feCause q 0x8A)).boardLook)) ∧
      (st = 0 → ¬ quorum → s.evaluate k = s1.boardLook)) ∧
    (∀ st, s.grpState st = if s.rd F.HUB_GRP_STATUS_state = st then s
      else s.wrs [(F.HUB_GRP_STATUS_state, st), (F.HUB_GRP_STATUS_tn_low, s.tn)]) ∧
    (∀ kind fmt id round row data ecc mm, src.toNat ≠ s.devId → (s.fenced = true ∨ src.toNat ∈ s.grp.fenced) →
      exec (.reduce src kind fmt id round row data ecc mm) s = .next (s.bump F.HUB_GRP_COUNTS_fenced_drops)) ∧
    (∀ tile tag index count id data, s.dark = false → src.toNat ≠ s.devId → (s.fenced = true ∨ src.toNat ∈ s.grp.fenced) →
      exec (.relay src tile tag index count id data) s =
        .next ((s.bump F.HUB_GRP_COUNTS_fenced_drops).relayAnswer src.toNat tile.toNat tag.toNat .dropped))

/-! Snapshots (16). -/

/-- 16 R348 to R357: the action cuts, and its packet completes; when the mover has read every tensor the manifest follows, the reads are
released and the fence is written, its confirmation awaited (log 85); a read that fails, a missing acknowledgement or ABANDON drops the
snapshot; the coordinator's timeout is a failure verdict; a MEMBER in HELD follows its commit word. CLEAR_ERROR clears the error alone.
That the whole copy is sent by SNAP_RELEASE is log 38. -/
def Obligations.SnapshotsAreCutCopiedAndDecided : Prop :=
  ∀ (s : State),
    (∀ a s1, s.takeDue 2 = some (a, s1) → exec .snapshotCut s = .next ((s1.cut (a.arg % 2 ^ 32)).cutEnds a.slot true)) ∧
    (s.snapState = 2 → s.rd F.HUB_SNAP_STATUS_released = 0 → ∀ errs confirmed,
      let r := s.moveAll errs s.snap.tensors 0x400000 []
      (r.2 = none → exec (.snapRelease errs confirmed) s = .next ((r.1.logs .SNAP_COPY_FAIL [s.snapN]).snapDrop 6)) ∧
      (∀ ds, r.2 = some ds →
        let m := r.1.manifest ds
        let s2 := r.1.copyAll (m.length / 256 + 1) (devAddr (planHolder s.snap.plan) (0x1000 + s.slotAt (s.rd F.HUB_SNAP_STATUS_slot))) m
        let s3 := s2.wr F.HUB_SNAP_STATUS_released 1
        let f := planFence s.snap.plan
        let w := s3.hubWrite (f % 2) (f / 8 * 8) (leBytes 8 s.snapN)
        (f = 0 → exec (.snapRelease errs confirmed) s = .next (s3.raised .SNAP_RELEASED [s.snapN])) ∧
        (f ≠ 0 → (w.2 = 0 ∨ w.2 = 1 ∧ confirmed = true) →
          exec (.snapRelease errs confirmed) s = .next (w.1.raised .SNAP_RELEASED [s.snapN])) ∧
        (f ≠ 0 → ¬ (w.2 = 0 ∨ w.2 = 1 ∧ confirmed = true) → exec (.snapRelease errs confirmed) s = .next (w.1.confirmed (w.2 != 1))))) ∧
    (s.snapState = 2 → s.snap.acked < s.snap.issued → exec .snapAckTimeout s = .next ((s.logs .SNAP_COPY_FAIL [s.snapN]).snapDrop 6)) ∧
    (∀ n a, s.snap.coord = some (n, a) → exec .snapCommitTimeout s = .next (s.verdict n 2)) ∧
    (s.snapState = 3 → s.member = true →
      let r := s.hubRead 0 (devAddr s.devId (0x20000 + s.buddyBase)) 8 none []
      (∀ w, r.2 = some w → le w 0 4 = s.snapN →
        (le w 4 1 = 1 → exec .snapCommitPoll s = .next r.1.snapCommit) ∧
        (le w 4 1 = 2 → exec .snapCommitPoll s = .next ((r.1.snapSet 0).snapFail 7))) ∧
      (∀ w, r.2 = some w → le w 0 4 ≠ s.snapN → exec .snapCommitPoll s = .next r.1)) ∧
    (∀ m, s.lets m snapCtrl = true →
      (exec (.snapAbandon m) s = .next (if s.snapState = 2 ∨ s.snapState = 3 then s.snapDrop 7 else s)) ∧
      exec (.snapClearError m) s = .next (s.wr F.HUB_SNAP_STATUS_error 0))

/-- 16 R359 to R365; 22 R455 to R459: a completed command of the shelf engine frees its queue entry and brings its next one; a failed or late
one stops the copy, resets the controller and creates its queues again; a Read of a restore that is late ends it. RESTORE in IDLE with no
bay held reads its source, makes checks 1 to 5 and begins, or shows the code of the first that fails; its completion sets the tensors,
cursors and streams, or leaves them undefined with the code; REPLAY_CHECK compares the loss with the witness; WITNESS writes the record
once. Bytes that cannot be read are free (log 36), REPLAY_CHECK outside its window is SNAP_BUSY and a restore from a shelf keeps LAST.slot
(log 85), and the layout of staging memory is log 37. -/
def Obligations.ShelfCopiesRestoreAndReplay : Prop :=
  ∀ (s : State) (m : Master),
    (∀ j a, s.snap.job = some j → s.shelf.cmdAt = some a →
      let s1 := ({ s with shelf := { s.shelf with cmdAt := none } } : State).nvmeReg 0x100C 4 s.shelf.ioTail
      exec (.shelfIoComplete true) s = .next (s1.shelfStep j).shelfFree ∧
      exec (.shelfIoComplete false) s = .next ((s1.shelfStop.bump F.SHELF_ERRS_resets).nvmeEnable.nvmeQueues).shelfFree ∧
      (s.snapState ≠ 4 → exec .shelfCmdTimeout s = .next ((s.shelfStop.bump F.SHELF_ERRS_resets).nvmeEnable.nvmeQueues).shelfFree)) ∧
    (∀ a, s.snapState = 4 → s.shelf.readAt = some a → exec .shelfCmdTimeout s = .next
      (((((s.snapSet 0).readsAt none).shelfFailed).loseTensors s.snap.manifest).snapFail 0x10)) ∧
    (s.lets m snapCtrl = true → ∀ src,
      let onShelf := s.rd F.HUB_SNAP_SRC_kind = 1 ∧ s.rd F.SHELF_STATUS_state = 2
      let fetched := ((if onShelf then s.shelfFetch s.srcBase 0 none (src.shelfHeader.take 4096) 2 else s).srcFetch 0x1000 none src.manifest).srcFailed src
      ((s.snapState ≠ 0 ∨ s.noBayHeld = false) → exec (.restore m src) s = .next (s.snapFail 1)) ∧
      (s.snapState = 0 → s.noBayHeld = true →
        (∀ c, s.restoreCheck src = some c → exec (.restore m src) s = .next (fetched.snapFail c)) ∧
        (s.restoreCheck src = none → exec (.restore m src) s = .next
          (({ fetched.snapSet 4 with snap := { fetched.snap with manifest := src.manifest } } : State).readsAt
            (if s.rd F.HUB_SNAP_SRC_kind = 1 then some s.time else none)))) ∧
      (s.rd F.HUB_SNAP_RESULT_restored = 0 → exec (.replayCheck m src) s = .next (s.snapFail 1)) ∧
      (s.rd F.HUB_SNAP_RESULT_restored = 1 →
        let mf := s.snap.manifest
        let len := le mf 76 1
        let got := (s.srcFetch 0 none src.witness).srcFailed src
        let r := got.readOrFree (le mf 80 8) len
        let fit := src.reachable && witnessOk src.witness (le mf 8 4) && le src.witness 8 8 == le mf 16 8 + 1 && le src.witness 4 1 == len
        (fit = false → exec (.replayCheck m src) s = .next (got.wr F.HUB_SNAP_RESULT_replay 3)) ∧
        (fit = true → exec (.replayCheck m src) s = .next
          (r.1.wr F.HUB_SNAP_RESULT_replay (if r.2 = sub src.witness 16 len then 1 else 2))))) ∧
    (∀ o put d, s.srcFetch o put d = if s.rd F.HUB_SNAP_SRC_kind = 1 ∧ s.rd F.SHELF_STATUS_state = 2
      then s.shelfFetch (s.rd F.HUB_SNAP_SRC_shelf * s.rd F.HUB_SNAP_SHELF_shelf_lbas + 1) o put d (d.length + 1) else s) ∧
    (∀ src, s.snapState = 4 →
      let mf := s.snap.manifest
      let n := le mf 8 4
      let s0 := (s.snapSet 0).readsAt none
      let r := s0.restoreTensors mf src.tensors
      (src.reachable = false → exec (.restoreComplete src) s = .next (((s0.srcFailed src).loseTensors mf).snapFail 0x10)) ∧
      (src.reachable = true →
        (∀ id, r.2 = some id → exec (.restoreComplete src) s = .next (((r.1.loseTensors mf).wr F.HUB_SNAP_RESULT_bad_tensor id).snapFail 0x15)) ∧
        (r.2 = none →
          let s2 := (r.1.restoreRest mf).setLast n
            (if s.rd F.HUB_SNAP_SRC_kind = 0 then s.rd F.HUB_SNAP_SRC_slot else s.rd F.HUB_SNAP_LAST_slot) (b2n (witnessOk src.witness n)) (le mf 16 8)
          exec (.restoreComplete src) s = .next
            ((s2.wrs [(F.HUB_SNAP_RESULT_restored, 1), (F.HUB_SNAP_RESULT_replay, 0)]).raised .RESTORE_DONE [n])))) ∧
    (s.lets m snapCtrl = true →
      let len := planLossLen s.snap.plan
      let due := s.on F.HUB_SNAP_LAST_valid && s.rd F.HUB_SNAP_LAST_snapshot == s.snapN && len != 0 && s.rd F.HUB_SNAP_LAST_witness == 0
      let r := s.readOrFree (planLossAddr s.snap.plan) len
      let body := leBytes 4 s.snapN ++ leBytes 1 len ++ leBytes 3 0 ++ leBytes 8 (s.rd F.HUB_SNAP_LAST_STEP_step + 1) ++ r.2 ++ List.replicate (64 - len) 0
      (due = false → exec (.witness m) s = .next (s.snapFail 1)) ∧
      (due = true → exec (.witness m) s = .next
        ((r.1.cpcPut (devAddr (planHolder s.snap.plan) (s.slotAt (s.rd F.HUB_SNAP_LAST_slot))) (body ++ sha384 body)).wr
          F.HUB_SNAP_LAST_witness 1).saveSnap))

/-! The timebase (03). -/

/-- 03 R47 to R54, R61: an edge of the timebase counts a tick, sends the tokens and brings what falls due; an edge, frame or token of the
source is measured, a token's by its arrival less the port's delay and its departure offset (R51); a missing edge, 4,096 periods without
lock and a TN that differs lead where R54 says; the actions of a tick fire in the order COUNTER_SAMPLE, GLOBAL_STOP, SNAPSHOT_CUT,
TABLE_SWAP, FW_ACTIVATE, POWER_RAMP, SELFTEST_SLOT, PHASE_START and of one type by slot (R58), those dropped of which R57, R60, R61 and
R399 say so; a delay request is answered and its response gives the port's delay; RELOCK leaves CONFLICT, CLEAR_STATS clears the worst
error, ADD and CANCEL act on the bank of the master. Log 52, 53, 107 and 108 name what the model chooses (a token's arrival, a frame's
check, the delay's rounding, a port that is not up). -/
def Obligations.TheTimebaseFollowsItsSource : Prop :=
  ∀ (s : State) (m : Master),
    (let s1 := ((({ s with tb := { s.tb with edge := s.time } } : State).firewallTick.wr F.TB_TN_tn (s.tn + 1)).latchTrims.countLost).tokens
     let s2 := if s1.tn % 1024 = 0 then s1.askDelays else s1
     exec .tickEdge s = .next ((if s2.tn % 100 = 0 then s2.heartbeat else s2).commitDue.autoSwaps)) ∧
    (let now := sortActs (s.tb.pend.filter (fun a => a.tn == s.tn))
     (now.Perm (s.tb.pend.filter (fun a => a.tn == s.tn)) ∧
      now.Pairwise (fun a b => actRank a.type < actRank b.type ∨ (actRank a.type = actRank b.type ∧ a.slot ≤ b.slot)) ∧
      (∀ i j : Fin 8, i < j → actRank ([7, 1, 2, 4, 5, 8, 6, 3].getD i 0) < actRank ([7, 1, 2, 4, 5, 8, 6, 3].getD j 0))) ∧
     ((∀ a ∈ s.tb.pend, a.tn = s.tn → s.dropWhy a = none) → s.commitDue.tb.due = s.tb.due ++ now) ∧
     s.dropWhy = fun a =>
       if s.pwrMb && a.type != 7 then some false
       else if s.tickLost && (a.type == 2 || a.type == 4 || a.type == 5) then some true
       else if s.fenced && a.type == 2 then some true
       else if s.stopped && (a.type == 3 || a.type == 6 || a.type == 8) then some false else none) ∧
    (∀ phase, s.tbSource = 0 → s.tbState ≠ 0 →
      exec (.tickInEdge phase) s = .next (s.sourceEdge (phase + s.trim F.TB_TICKIN_OFFSET_factory) (s.tb.srcTn.map (· + 1)) false)) ∧
    (∀ frame, s.tbSource = 0 → s.tbState ≠ 0 →
      (frameOk frame = true → exec (.tickFrame frame) s = .next
        (({ s with tb := { s.tb with srcTn := some (frame.extractLsb' 8 64).toNat, badFrame := 0 } } : State).sourceTn (frame.extractLsb' 8 64).toNat)) ∧
      (frameOk frame = false → s.tb.badFrame = 0 → exec (.tickFrame frame) s = .next { s with tb := { s.tb with badFrame := 1 } }) ∧
      (frameOk frame = false → s.tb.badFrame ≠ 0 → exec (.tickFrame frame) s = .next
        (({ s with tb := { s.tb with badFrame := 0 } } : State).tbRaise F.TB_EVENT_frame_bad .TICK_FRAME_BAD))) ∧
    (∀ (p : Fin 32) (tn : Dword) (offset : Word) (depth : Byte) hold arrival, s.tbSource = 1 → s.tbState ≠ 0 → p.val = s.image.sourcePort →
      let s1 := (s.wr F.TB_STATUS_depth (min 255 (depth.toNat + 1))).sourceTn tn.toNat
      (s1.tbState = 2 → exec (.tick p tn offset depth true arrival) s = .next
        ({ s1 with tb := { s1.tb with srcTn := some tn.toNat } } : State).tickLoss) ∧
      ((s1.tbState ≠ 2 ∨ hold = false) → exec (.tick p tn offset depth hold arrival) s = .next
        (s1.sourceEdge (arrival - signed 32 (s.rd (F.TB_LINK_DELAY_measured p)) - (offset.toNat : Int)) (some tn.toNat) hold))) ∧
    (s.tbSource ≠ 2 → s.tbState ≠ 0 → s.tbState ≠ 4 →
      let s1 : State := { s with tb := { s.tb with missing := s.tb.missing + 1, run := 0, srcTn := s.tb.srcTn.map (· + 1) } }
      exec .tickEdgeMissing s = .next (if s.tbState = 2 ∧ 3 ≤ s.tb.missing + 1 then s1.tickLoss else s1)) ∧
    (s.tbState = 1 →
      let s1 := (s.tbSet 0).tbRaise F.TB_EVENT_lock_fail .TICK_LOCK_FAIL
      (s1.rd F.PWR_STATUS_state ≠ 0 → exec .tickLockTimeout s = .next s1) ∧
      (s1.rd F.PWR_STATUS_state = 0 → s1.rd F.PWR_STATUS_step = 11 → s1.rd F.PWR_STATUS_failed = 0 →
        exec .tickLockTimeout s = .next (s1.startFail 11 7 .TICK_LOCK_FAIL))) ∧
    (∀ (p : Fin 32) (t1 t2 t3 t4 : Dword), s.portUp p = true →
      exec (.delayReq p t1 t2 t3) s = .next (s.egressPut p (ctrlPacket s.devId 3 (leBytes 8 t1.toNat) (leBytes 8 t2.toNat ++ leBytes 8 t3.toNat))) ∧
      exec (.delayResp p t1 t2 t3 t4) s = .next (s.wr (F.TB_LINK_DELAY_measured p)
        (delayOf t1.toNat t2.toNat t3.toNat t4.toNat (s.trim (F.TB_LINK_DELAY_factory p)) % 2 ^ 32).toNat)) ∧
    (s.lets m tbCtrl = true →
      (s.tbState ≠ 5 → exec (.relock m) s = .next s) ∧
      (s.tbState = 5 → exec (.relock m) s = .next
        { s.tbSet 1 with tb := { (s.tbSet 1).tb with acqStart := s.time, missing := 0 } }) ∧
      exec (.clearStats m) s = .next (s.wr F.TB_PHASE_ERR_worst 0)) ∧
    (s.lets m actCmd = true → ∀ b, bankOfMaster m = some b →
      (∀ type : BitVec 4,
        let r := s.addAct (s.rd (F.TB_ACT_TN_tn.bank b)) type.toNat (s.rd (F.TB_ACT_ARG_arg.bank b)) b
        exec (.tbActAdd m type) s = .next (r.1.actResult b r.2.1 (if r.2.1 = 0 then some r.2.2 else none))) ∧
      (∀ slot : BitVec 10, s.tb.pend.find? (fun x => x.slot == slot.toNat) = none → exec (.tbActCancel m slot) s = .next (s.actResult b 5 none)) ∧
      (∀ (slot : BitVec 10) a, s.tb.pend.find? (fun x => x.slot == slot.toNat) = some a → a.type ≠ 4 → a.type ≠ 5 →
        exec (.tbActCancel m slot) s = .next (if s.committed a then s.actResult b 1 none
          else (s.cancelActs (fun y => y.slot == slot.toNat)).actResult b 0 none)))

/-- 03 R57, R61 to R66; 12 R254: GLOBAL_STOP, or on source 2 the STOP of a neighbour, stops the device: the ports whose STOP_DONE has not come
are open, the transit counts are 0, the event rings of every present tile record the stop and freeze, TIMEs are taken and a device on
source 2 passes the STOP on; STOP_DONE goes out once every packet has, and the neighbour's closes its port, for the stop to come if it is
early; ports still open are reported; a quiescent device resumes with its logged packets applied first (`replayed`) or without them, the
transit counts cleared and the packets held sent, another is busy. PHASE_START signals every tile of its bay as a remote arrival. Log 56
names the model's choice of what a replay does with an open port. -/
def Obligations.TheDeviceStopsAndResumes : Prop :=
  ∀ (s : State) (m : Master),
    (∀ a s1, s.takeDue 1 = some (a, s1) → exec .globalStop s = .next s1.stopNow) ∧
    (∀ p, s.tbSource = 2 → exec (.stop p) s = .next s.stopNow) ∧ (∀ p, s.tbSource ≠ 2 → exec (.stop p) s = .next s) ∧
    (s.stopped = true → s.stopNow = s) ∧
    (s.stopped = false →
      let s1 := ({ s with stop := { at_ := s.time } } : State).wrs
        ([(F.TB_STOP_STATUS_stopped, 1), (F.TB_STOP_STATUS_open_ports, maskOf (s.enabledPorts.filter (fun p => !s.stop.early.contains p)))] ++
         (List.range 32).map (fun p => (F.TB_TRANSIT_COUNT_packets p, 0)) ++ (List.range 32).map (fun p => (F.TB_TRANSIT_COUNT_bytes p, 0)))
      let s2 := s1.forEach s1.presentTiles (fun a t =>
        a.setTile t ((a.tile t).endCycle.onRings (fun x e => (x.event a.tn a.sinceEdge e 0xB 0).freeze a.tn a.sinceEdge e 1)))
      s.stopNow = if s.tbSource = 2 then s2.timeAll.toPorts (ctrlPacket s.devId 7 [] []) else s2.timeAll) ∧
    (let s1 := ({ s with stop := {} } : State).wrs
      ([(F.TB_STOP_STATUS_stopped, 0), (F.TB_STOP_STATUS_open_ports, 0)] ++
       (List.range 32).map (fun p => (F.TB_TRANSIT_COUNT_packets p, 0)) ++ (List.range 32).map (fun p => (F.TB_TRANSIT_COUNT_bytes p, 0)))
     let s2 := s.stop.held.foldl State.sendPkt s1
     s.endStop false = s2.resumeIssue ∧
     s.endStop true = { s2 with stop := { replay := some ((s.stop.transit.map (fun e => e.2.map (fun b => (e.1, b)))).flatten) } }) ∧
    (s.stopped = true → s.stop.sent = false → s.enabledPorts.all (fun p => (s.port p).egress.isEmpty) = true →
      exec .stopDoneSend s = .next (({ s with stop := { s.stop with sent := true } } : State).toPorts (ctrlPacket s.devId 8 [] []))) ∧
    (∀ p : Fin 32, s.stopped = false →
      exec (.stopDone p) s = .next { s with stop := { s.stop with early := s.stop.early ++ [p.val] } }) ∧
    (∀ p : Fin 32, s.stopped = true → bitOf (s.rd F.TB_STOP_STATUS_open_ports) p = true →
      exec (.stopDone p) s = .next (s.wr F.TB_STOP_STATUS_open_ports (s.rd F.TB_STOP_STATUS_open_ports - 2 ^ p.val))) ∧
    (s.stopped = true → s.rd F.TB_STOP_STATUS_open_ports ≠ 0 → s.rd F.TB_STOP_STATUS_open_ports ≠ s.stop.gaveUp →
      exec .stopPortOpen s = .next (({ s with stop := { s.stop with gaveUp := s.rd F.TB_STOP_STATUS_open_ports } } : State).tbRaise
        F.TB_EVENT_port_open .STOP_PORT_OPEN)) ∧
    (s.lets m tbCtrl = true →
      (s.quiescent = true → exec (.resumeReplay m) s = .next (s.endStop true).replayed ∧ exec (.resumeDiscard m) s = .next (s.endStop false)) ∧
      (s.quiescent = false → exec (.resumeReplay m) s = .next (s.logs .STOP_BUSY []).replayed ∧ exec (.resumeDiscard m) s = .next (s.logs .STOP_BUSY []))) ∧
    (∀ a s1, s.takeDue 3 = some (a, s1) → exec .phaseStart s = .next
      (s1.forEach (s1.bayTiles (bitsOf a.arg 0 6)) (fun b t => b.signalRemote .hub t (bitsOf a.arg 8 8) (bitsOf a.arg 16 32))))

/-! The safety monitor and observation (17, 20). -/

/-- 17 R369 to R384: the watchdog of a busy engine stops its bay with a CONTAINED record; the self-test slot withdraws the last one's requests
and tests the named bays, and each end of a test counts the words it corrected and acts on its tile or station; an age past 500 ms
degrades its bay; PRETEST powers an unmapped site or is refused, its end makes the site GOOD or FAILED; MARK_SUSPECT marks,
REPORT_MISMATCH records and makes the device untrusted, CLEAR_COUNTS clears. An event is counted by its severity; one that R383 lets merge
raises the newest record's count; any other takes the ring's next entry, behind the records of its cycle that come before it; in a full
ring a CORRECTED one is lost, another overwrites the oldest unread CORRECTED record, or the oldest. What PRETEST refuses beside a mapped
site is log 42, that a request not granted in its slot is withdrawn log 81. -/
def Obligations.TheMonitorWatchesTestsAndRecords : Prop :=
  ∀ (s : State) (m : Master),
    (∀ (t : Fin 1200) e b, s.bayOf t = some b → (s.tile t).endCycle.live = true → s.stopped = false → (s.tile t).endCycle.engineBusy e = true →
      (e = .s ∨ s.rd (F.PWR_DIE_halted (t / 150)) = 0) → exec (.engineWatchdog t e) s = .next
        (((s.suspect (s.site t)).record { s.recOfTile 2 14 0x42 t with detail := [BitVec.ofNat 8 (engNo e)] }).safetyStop b t)) ∧
    (∀ a s1, s.takeDue 6 = some (a, s1) →
      let s2 := s1.forEach (List.range 8) State.withdraw
      exec .selftestSlot s = .next (s2.testBays ((s2.image.bays.map (·.id)).filter (bitOf a.arg)))) ∧
    (∀ (t : Fin 1200) pass words,
      let s1 := words.foldl (fun a o => a.spadCorrected t o) s
      (s.testingTile t = true → exec (.selftestDone (.tile t) pass words none) s = .next (s1.tileTested t pass) ∧
        ∀ o, exec (.selftestDone (.tile t) pass words (some o)) s = .next (((s1.suspect (s1.site t)).record
          { s1.recOfTile 2 4 0 t with addr := s1.spadAddr t (o / 8 * 8) }).tileTested t pass)) ∧
      (s.testingTile t = false → ∀ bad, exec (.selftestDone (.tile t) pass words bad) s = .next (s.tileTested t pass))) ∧
    (∀ (k : Fin 64) pass words bad, exec (.selftestDone (.station k) pass words bad) s = .next (s.stationTested k pass)) ∧
    (∀ b : Fin 64, s.image.bay? b ≠ none → s.rd (F.SAFE_ST_AGE_degraded b) = 0 → s.pwrMb = false → 500 * msCycles < s.bayAge b → exec (.safetyDegraded b) s = .next
      (((s.wrs [(F.SAFE_ST_AGE_degraded b, 1), (F.SAFE_STATUS_degraded, 1)]).raised .SAFETY_DEGRADED [b.val]).record
        { sev := 1, cls := 16, kind := 1, bay := b })) ∧
    (∀ pass (us : Word) k, s.safe.pretest = some (k, 1) →
      let s1 : State := { s with safe := { s.safe with pretest := none }, pwr := { s.pwr with sites := s.pwr.sites.filter (· != k) } }
      let s2 := s1.wrs [(F.SAFE_REPAIR_STATUS_state, if pass then 2 else 3), (F.SAFE_REPAIR_STATUS_elapsed_us, us.toNat)]
      exec (.pretestDone pass us) s = .next (if s2.siteState k = 2 then s2 else s2.setSite k (if pass then 0 else 2))) ∧
    (s.lets m safeRepair = true → ∀ (die : BitVec 3) (row col : BitVec 4),
      let b := s.repairSite die row col
      let k := siteNo die row col
      (b.safe.pretest = none → row.toNat < 10 → (b.image?.bind (·.tileAt k)).isSome = false → b.pwrOn = true →
        exec (.pretest m die row col) s = .next (({ b with safe := { b.safe with pretest := some (k, 0) }, pwr := { b.pwr with
          siteQ := kput b.pwr.siteQ die.toNat (kget b.pwr.siteQ die.toNat [] ++ [k]) } } : State).wr F.SAFE_REPAIR_STATUS_state 1)) ∧
      (b.safe.pretest.isSome = true → exec (.pretest m die row col) s = .next b) ∧
      (b.safe.pretest = none → (10 ≤ row.toNat ∨ (b.image?.bind (·.tileAt k)).isSome = true ∨ b.pwrOn = false) → exec (.pretest m die row col) s = .next (b.wr F.SAFE_REPAIR_STATUS_state 3)) ∧
      exec (.markSuspect m die row col) s = .next (if row.toNat < 10 then b.suspectLater k else b)) ∧
    (s.lets m safeCtrl = true →
      exec (.reportMismatch m) s = .next ((s.record { sev := 3, cls := 0x12, kind := 1 }).wr F.SAFE_STATUS_untrusted 1) ∧
      exec (.safeClearCounts m) s = .next (s.wrs [(F.SAFE_COUNTS_corrected, 0), (F.SAFE_COUNTS_contained, 0), (F.SAFE_COUNTS_uncontained, 0)])) ∧
    (∀ r : Rec,
      let s1 := if r.sev = 1 then s.bump F.SAFE_COUNTS_corrected else if r.sev = 2 then s.bump F.SAFE_COUNTS_contained
        else s.bump F.SAFE_COUNTS_uncontained
      let s2 := (s1.placeRec r).logs .ERROR_RECORD [r.sev, r.cls, r.kind]
      let s3 := if s2.on F.SAFE_CTRL_irq_en then s2.msix (s2.rd F.SAFE_CTRL_vector) else s2
      (s1.recMerges r = true → s.record r = s1.mergeRec) ∧
      (s1.recMerges r = false → (r.sev = 1 → s.record r = s2) ∧ (r.sev = 2 → s.record r = s3.ibi 1) ∧
        (r.sev = 3 → s.record r = (s3.wr F.SAFE_STATUS_uncontained 1).ibi 1))) ∧
    (∀ r : Rec,
      let n := s.safe.recs
      let b := recBytes n s.tn s.sinceEdge 1 r
      let w := s.rd F.SAFE_REC_PTR_write
      let s1 : State := { s with safe := { s.safe with recs := n + 1 } }
      (s.recUnread < 512 → s.placeRec r =
        (let s2 := ((s1.orderRec b (min s.recUnread n) w n).wr F.SAFE_REC_PTR_write ((w + 1) % 512)).newestRec w
         { s2 with safe := { s2.safe with full := if s.recUnread = 511 then 1 else 0 } })) ∧
      (512 ≤ s.recUnread → r.sev = 1 → s.placeRec r = s.bump F.SAFE_REC_PTR_lost) ∧
      (512 ≤ s.recUnread → r.sev ≠ 1 →
        (∀ k, s.oldestCorrected = some k → s.placeRec r = ((s1.orderRec b (min 512 n) k n).bump F.SAFE_REC_PTR_lost).newestRec k) ∧
        (s.oldestCorrected = none →
          let s2 := ((s1.orderRec b (min 512 n) s.oldestRec n).bump F.SAFE_REC_PTR_lost).newestRec s.oldestRec
          s.placeRec r = if s.oldestRec = w then s2.wrs [(F.SAFE_REC_PTR_write, (w + 1) % 512), (F.SAFE_REC_PTR_read, (w + 1) % 512)] else s2))) ∧
    (∀ b k w n, (s.recAfter b w n = none → s.orderRec b k w n = s.putRec w (renumber b n)) ∧
      ∀ p, s.recAfter b w n = some p → s.orderRec b (k + 1) w n = (s.putRec w (renumber (s.recAt p) n)).orderRec b k p (n - 1))

/-- 20 R422, R432 to R436: DBG_EVT_FREEZE freezes every ring, or thaws those frozen for it; ARM takes one dump of an aligned range at a time,
CANCEL ends it, and its copy ends with the range's digest or COPY_FAULT (an ARM outside the ranges ends so at once: log 39), a completion
that reports an error counted; a sample captures the counters of the named sets with the TN. -/
def Obligations.RingsDumpsAndSamples : Prop :=
  ∀ (s : State) (m : Master),
    (s.lets m evtFreezeOff = true → exec (.evtFreeze m) s = .next (s.evtAll true) ∧ exec (.evtThaw m) s = .next (s.evtAll false)) ∧
    (s.lets m dumpCtrl = true →
      (1 ≤ s.dumpState → s.dumpState ≤ 3 → exec (.dumpArm m) s = .next (s.wr F.HUB_DUMP_STATUS_error 3) ∧
        exec (.dumpCancel m) s = .next (s.dumpEnd 5 4)) ∧
      ((s.dumpState = 0 ∨ 3 < s.dumpState) → exec (.dumpCancel m) s = .next s ∧
        (s.dumpOk = true → exec (.dumpArm m) s = .next
          (({ s with dump := { bay := (s.bayOf (s.rd F.HUB_DUMP_CTRL_tile)).getD 0 } } : State).wrs
            [(F.HUB_DUMP_STATUS_state, 1), (F.HUB_DUMP_STATUS_error, 0), (F.HUB_DUMP_STATUS_held, 0)])) ∧
        (s.dumpOk = false → exec (.dumpArm m) s = .next (s.wrs [(F.HUB_DUMP_STATUS_state, 5), (F.HUB_DUMP_STATUS_error, 2)])))) ∧
    (s.dumpState = 3 → ∀ ok errs,
      let src := s.rd F.HUB_DUMP_SRC_addr
      let n := s.rd F.HUB_DUMP_LEN_length
      let r := s.copyRead 0 src none errs (cut256 (n / 256 + 2) src n)
      let dst := s.rd F.HUB_DUMP_DST_addr
      let w := r.1.copyWrite (s.rd F.HUB_DUMP_CTRL_dst_space) dst r.2.1 (cut256 (n / 256 + 2) dst n)
      let d := rawDigest 0 (n / 8) r.2.1
      let w1 := w.1.confirmed (w.2 != 1 || ok)
      (r.2.2 = true → (w.2 = 0 ∨ w.2 = 1 ∧ ok = true) → exec (.dumpCopyDone ok errs) s = .next
        ((w1.dumpEnd 4 0).wrs [(F.HUB_DUMP_DIG_LO_digest, d), (F.HUB_DUMP_DIG_HI_digest, d / 2 ^ 64)])) ∧
      ((r.2.2 = false ∨ ¬ (w.2 = 0 ∨ w.2 = 1 ∧ ok = true)) → exec (.dumpCopyDone ok errs) s = .next ((w1.dumpEnd 5 2).logs .DUMP_ERROR [2]))) ∧
    (∀ a s1, s.takeDue 7 = some (a, s1) → exec .counterSample s = .next (s1.forEach ((List.range 9).filter (bitOf a.arg)) State.sampleOne))

/-! Power and starts (18, 22). -/

/-- 18 R385 to R393; 22 R453, R454: with both supplies a start runs, warm or cold as it is asked for; supplies that come bring one, the
auxiliary one alone only VSAFE and VAON, and supplies that fall blank what they feed; PERST_N holds the first step and its release goes on
with it; a failed start is retried unless its cause forbids it, and a step past its limit fails. A warm start is cold when retained state
is invalid or three have failed. Every start keeps the fuses' copies and the counters of failed starts; a warm one also the capability
words, link delays, site states and ageing, the trained values of bundles and stacks, the erasure marks, the images, the record numbers
and, while VIO stays on, HBM; everything else is at reset, which for what R391 does not list is log 67. STEP_TIMEOUT as the passing of
R389's limit is log 59. -/
def Obligations.SuppliesStartsAndResets : Prop :=
  ∀ (s : State) (m : Master) (i : StartIn),
    (s.pwr.aux = false →
      (exec (.auxPowerOn i true) s = .next
        (({ s with pwr := { s.pwr with aux := true, v48 := true, trip := false } } : State).startUp false i)) ∧
      (exec (.auxPowerOn i false) s = .next
        ((({ s with pwr := { s.pwr with aux := true, v48 := false, trip := false, inputs := some i, startAt := s.time } } : State).domains [28, 29] true).wrs
          [(F.PWR_STATUS_step, 1), (F.PWR_STATUS_warm, 0), (F.PWR_STATUS_failed, 0)]))) ∧
    (s.pwr.aux = true → ∀ v48, exec (.auxPowerOn i v48) s = .next s) ∧
    (let s1 := (({ s with pwr := { s.pwr with aux := false, v48 := false, trip := false, retained := false }, i3c := {} } : State).off48).domains (List.range 30) false
     exec .auxPowerOff s = .next ((s1.setRegs (rput s1.regs F.PWR_EVENT_input_range.off 0)).wr F.PWR_STATUS_warm_fails 0)) ∧
    (s.pwr.aux = true → s.pwr.off = true →
      exec (.vinReturn i) s = .next (({ s with pwr := { s.pwr with v48 := true } } : State).startUp true i)) ∧
    (∀ mv : BitVec 16,
      let s1 := s.wr F.PWR_INPUT_mv mv.toNat
      exec (.vinRangeFault mv) s = .next ((((((s1.pwrEvent F.PWR_EVENT_input_range).logs .PWR_INPUT [mv.toNat]).ibi 2).supplyRecord 0 8 []).stopDies (List.range 8))) ∧
      exec (.vinLowShutdown mv) s = .next { s1.off48 with pwr := { s1.off48.pwr with v48 := false } }) ∧
    (s.lets m pwrCtrl = true → s.powered = true →
      (s.pwrSt ≠ 3 → exec (.warmStart m i) s = .next (s.startUp true i) ∧ exec (.coldStart m i) s = .next (s.startUp false i)) ∧
      (s.pwrSt = 3 → exec (.warmStart m i) s = .next s)) ∧
    (s.pwrSt = 0 → s.rd F.PWR_STATUS_failed = 1 → s.pwr.resetHeld = false → s.powered = true →
      s.rd F.PWR_STATUS_fail_code ≠ 2 → s.rd F.PWR_STATUS_fail_code ≠ 6 →
      exec (.startRetry i) s = .next (s.startUp (s.on F.PWR_STATUS_warm) i)) ∧
    (s.starting = true → s.rd F.PWR_STATUS_step ≠ 11 → (s.rd F.PWR_STATUS_step ≠ 8 ∨ s.stow.copyOp ≠ none) →
      exec .stepTimeout s = .next (s.startFail (s.rd F.PWR_STATUS_step) 8 .STEP_TIMEOUT)) ∧
    (s.pwr.off = false → s.pwrSt ≠ 3 → exec .perstAssert s = .next
      (({ s with pcie := { s.pcie with perst := true } } : State).startHold (!(s.pwr.resetHeld && s.pwr.heldCold)))) ∧
    (∀ warm, s.startHold warm =
      (let s1 := (s.blank warm).wrs [(F.PWR_STATUS_warm, b2n warm), (F.PWR_STATUS_retained, b2n s.pwr.retained),
          (F.PWR_STATUS_hbm_kept, b2n (warm && s.pwr.vioKept))]
       let s2 := if warm then s1.forEach (List.range 16) (fun a k => a.setStack k ((a.stack k).wr F.HBM_STATUS_state 2)) else s1
       { s2 with pwr := { s2.pwr with resetHeld := true, heldCold := !warm } })) ∧
    (s.pcie.perst = true → s.pwr.resetHeld = true → exec (.perstRelease i) s = .next
      (({ s with pcie := { s.pcie with perst := false }, pwr := { s.pwr with resetHeld := false } } : State).startIf (!s.pwr.heldCold) i)) ∧
    (s.dark = false → s.pcie.perst = false → s.pwrSt ≠ 3 → s.powered = true → exec (.hotReset i) s = .next (s.startUp true i)) ∧
    (∀ warm, s.pcie.perst = false →
      let s1 := if i.crcBad then ({ s with pwr := { s.pwr with retained := false } } : State).wr F.PWR_STATUS_warm_fails 0 else s
      ((warm = true ∧ s1.pwr.retained = true ∧ s1.rd F.PWR_STATUS_warm_fails < 3) → s.startUp warm i = s1.startRun true i) ∧
      (¬ (warm = true ∧ s1.pwr.retained = true ∧ s1.rd F.PWR_STATUS_warm_fails < 3) → s.startUp warm i = s1.startRun false i)) ∧
    (∀ warm,
      let k := s.kept warm i
      let l := keptAlways ++ (if warm then keptWarm else if s.pwr.sitesKept then keptSites else [])
      (∀ e ∈ l, rget k.regs e.1 &&& BitVec.ofNat 64 e.2 = rget s.regs e.1 &&& BitVec.ofNat 64 e.2) ∧
      (∀ o, (∀ e ∈ l, e.1 ≠ o) → rget k.regs o = rget State.resetRegs o) ∧
      k.queues = [] ∧ k.bays = [] ∧ k.ports = [] ∧ k.vaults = [] ∧
      k.fw.bankA = s.fw.bankA ∧ k.fw.bankB = s.fw.bankB ∧ k.fw.recovery = s.fw.recovery ∧ k.fw.settings = s.fw.settings ∧
      k.stackMap = (List.range 16).map (fun n => (n, (s.stack n).start warm s.pwr.vioKept))) ∧
    (let k := s.kept true i
     (∀ n, n < 13 → rget k.regs (0x100 + 8 * n) = rget s.regs (0x100 + 8 * n)) ∧
     (∀ n, n < 80 → rget k.regs (F.SAFE_SITE_state n).off = rget s.regs (F.SAFE_SITE_state n).off) ∧
     (∀ b, (s.bundle b).kept = { bad := (s.bundle b).bad, spares := (s.bundle b).spares, txSpares := (s.bundle b).txSpares,
                                 half := (s.bundle b).half, down := (s.bundle b).down }) ∧
     k.pkg.bundles = (List.range 376).map (fun b => (b, (s.bundle b).kept)) ∧
     k.stow.inForce = s.stow.inForce ∧ k.stow.staged = s.stow.staged ∧ k.safe.recs = s.safe.recs ∧
     (s.pwr.vioKept = true → k.hbm = s.hbm ∧ k.hbmBad = s.hbmBad) ∧ (s.pwr.vioKept = false → k.hbm = { undef := some (s.free + 1200) })) ∧
    (let k := s.kept false i
     k.pkg.bundles = (List.range 376).map (fun b => (b, { down := true })) ∧ k.stow.inForce = none ∧ k.stow.staged = none ∧ k.tiles = [] ∧
     k.safe.recs = 0 ∧ k.hbm = { undef := some (s.free + 1200) } ∧ k.hbmBad = [])

/-- 18 R387, R394 to R402: a domain outside its limits stops what it feeds; a temperature or power sample sets the shares; POWER_RAMP sets the
rates it names; MOTHBALL is entered with no bay held, the snapshot unit IDLE and retirement IDLE, and WAKE leaves it. A sample above 11.5
kW sets the power share to 4, one near the sustained limit takes 2 off at most once in 100 us, and otherwise it rises by 1 at most once in
1 ms. What PWR_DIE.throttled_us counts is log 58. -/
def Obligations.PowerIsSharedAndSaved : Prop :=
  ∀ (s : State) (m : Master),
    (∀ (i : Fin 30) (raw : BitVec 16),
      let v := s.domainVolts i raw
      let s1 := (s.wrs [(F.PWR_DOMAIN_mv i, v / 2), (F.PWR_DOMAIN_fault i, 1)]).pwrEvent F.PWR_EVENT_domain_fault
      let s2 := (s1.logs .PWR_DOMAIN [i.val, v / 2]).supplyRecord 4 (if i.val < 24 then i.val / 3 else 8) [BitVec.ofNat 8 i]
      ((s.rd (F.PWR_DOMAIN_on i) = 0 ∨ ((domainLimits i).1 ≤ v ∧ v ≤ (domainLimits i).2)) → exec (.domainFault i raw) s = .next s) ∧
      (s.rd (F.PWR_DOMAIN_on i) ≠ 0 → (v < (domainLimits i).1 ∨ (domainLimits i).2 < v) →
        (i.val < 24 → exec (.domainFault i raw) s = .next (s2.stopDies [i.val / 3])) ∧
        ((i.val = 26 ∨ i.val = 27) → exec (.domainFault i raw) s = .next
          (s2.forEach ((List.range 16).map (· + (if i.val = 26 then 0 else 16)))
            (fun a p => if (a.port p).rd F.LNK_STATUS_state = 0 then a else a.portDown p))) ∧
        (24 ≤ i.val → i.val ≠ 26 → i.val ≠ 27 → exec (.domainFault i raw) s = .next (s2.stopDies (List.range 8))))) ∧
    (∀ (d : Fin 9) (raw : List (BitVec 16)),
      let x := s.hottest d raw
      let t := min (x / 16) 255
      let s0 := s.wr (F.PWR_DIE_temp d) t
      let s1 := if d.val < 8 && s.rd (F.PWR_DIE_share d) != 16 then s0.bump (F.PWR_DIE_throttled_us d) 10 else s0
      (115 ≤ t → exec (.dieTempSample d raw) s = .next
        (((({ s1 with pwr := { s1.pwr with trip := true } } : State).logs .THERMTRIP [d.val, t]).supplyRecord 9 d [BitVec.ofNat 8 t]).stopDies
          (if d.val = 8 then List.range 8 else [d.val])).off48) ∧
      (t < 115 → s.hot d ≠ 0 → bitOf (s.hot d) 6 = true → exec (.dieTempSample d raw) s = .next
        (s1.forEach (List.range 7) (fun a k => a.threshold d x k)).sharesGo)) ∧
    (∀ i : PowerIn,
      let s1 := s.wrs [(F.PWR_INPUT_mv, i.mv.toNat), (F.PWR_INPUT_current, i.current.toNat), (F.PWR_INPUT_watts, i.watts.toNat),
        (F.PWR_BUDGET_average_w, i.average.toNat), (F.PWR_BUDGET_max_10ms_w, max (s.rd F.PWR_BUDGET_max_10ms_w) i.max10.toNat)]
      let s2 : State := { s1 with pwr := { s1.pwr with power := (s1.powerShare i).1, powerAt := (s1.powerShare i).2 } }
      exec (.powerSample i) s = .next (if (s1.powerShare i).1 = s.pwr.power then s2 else (s2.pwrEvent F.PWR_EVENT_power_throttle).sharesGo)) ∧
    (∀ i : PowerIn,
      let p := s.pwr.power
      let near := s.rd F.PWR_BUDGET_sustained_w ≤ i.average.toNat + 100 ∨ i.above8ms = true
      (11500 < i.watts.toNat → s.powerShare i = (4, s.time)) ∧
      (i.watts.toNat ≤ 11500 → near → s.powerShare i = if 100 * usCycles ≤ s.time - s.pwr.powerAt then (p - 2, s.time) else (p, s.pwr.powerAt)) ∧
      (i.watts.toNat ≤ 11500 → ¬ near → s.powerShare i =
        if p < 16 ∧ msCycles ≤ s.time - s.pwr.powerAt then (p + 1, s.time) else (p, s.pwr.powerAt))) ∧
    (∀ a s1, s.takeDue 8 = some (a, s1) → exec .powerRamp s = .next
      ({ s1 with pwr := { s1.pwr with rampSet := ((List.range 8).filter (bitOf a.arg)).foldl (fun m d => kput m d (bitsOf a.arg 16 5)) s1.pwr.rampSet } } : State).shares) ∧
    (∀ (d : Fin 8) k l, kget s.pwr.siteQ d [] = k :: l → s.safe.pretest = none →
      let s1 : State := { s with pwr := { s.pwr with siteQ := kput s.pwr.siteQ d l } }
      exec (.sitePowerUp d) s = .next (if s.image.sites.contains k && !s.pwr.sites.contains k
        then { s1 with pwr := { s1.pwr with sites := s1.pwr.sites ++ [k] } } else s1)) ∧
    (s.lets m pwrCtrl = true → exec (.mothball m) s = .next s.mothball ∧ exec (.wake m) s = .next s.wake) ∧
    (s.pwrSt = 1 → s.mothball = (s.pwrState 4).timeAll) ∧
    (s.linkUp = true → s.dark = false → exec .hostD3hot s = .next (s.wr F.HUB_PCIE_STATUS_dstate 3).mothball ∧
      exec .hostD0 s = .next (s.wr F.HUB_PCIE_STATUS_dstate 0).wake) ∧
    (s.pwrSt = 4 → s.noBayHeld = true → s.snapState = 0 → (List.range 16).all (fun k => (s.stack k).rd F.HBM_RET_STATUS_state == 0) = true →
      let s1 := (((s.forEach (List.range 32) (fun a p => a.portDrop p)).forEach (List.range 16)
        (fun a k => a.setStack k ((a.stack k).wr F.HBM_STATUS_state 2))).domains mothballDomains false).tapReset
      exec .mothballEntry s = .next ((({ s1 with pwr := { s1.pwr with sites := [], siteQ := [], mbAt := s.time } } : State).pwrState 2).timeAll)) ∧
    (s.pwrSt = 5 →
      let s0 := s.wakeTiles.domains [24, 27] true
      let s1 : State := { s0 with pkg := { s0.pkg with
        bundles := (List.range 376).map (fun b => (b, { (s.bundle b).kept with retrains := (s.bundle b).retrains })) } }
      let s2 := s1.forEach (List.range 16) (fun a k => a.setStack k ((a.stack k).wr F.HBM_STATUS_state 1))
      let s3 := ({ s2 with pwr := { s2.pwr with sites := s2.image.sites, siteQ := [], rampSet := [] }, grp := { s2.grp with resume := 3 } } : State).pwrState 1
      exec .wakeComplete s = .next ((((s3.shares.forEach s3.enabledPorts (fun a p => a.portTrain p)).pwrEvent F.PWR_EVENT_wake_done).timeAll).launchAll))

/-! Signed commands, attestation and firmware (19, 21). -/

/-- 19 R407 to R413: a SUBMIT of the command that the bank's buffer holds, with the security services running, that passes the checks of R408
has its effect, its result is 0 and the bank's nonce is new; one that fails shows the first failure's code and offset, with a new nonce
and nothing else; while the services do not run, or check another bank's command, it shows 7 and keeps the nonce. CLOSE closes debug. That
the check takes a free time while result and effect are there at once is log 116. -/
def Obligations.SignedCommandsAreChecked : Prop :=
  ∀ (s : State) (m : Master) (bank : Nat), bankOfMaster m = some bank → s.lets m (secCtrl bank) = true →
    let b := s.secBytes bank
    let row := fun (c : Nat) (i : StartIn) => if c = 1 then Instr.ownerRegister m else if c = 2 then .ownerRevoke m else if c = 3 then .deploy m
      else if c = 4 then .returnCmd m i else .debugUnlock m
    let a := ((s.secBegin bank).secResult bank 0 0).newNonce bank
    (s.secReady = true → s.secChecking bank = false → s.secCheck bank b = none →
      (le b 4 2 = 1 → exec (.ownerRegister m) s = .next (a.ownerRegister b)) ∧
      (le b 4 2 = 2 → exec (.ownerRevoke m) s = .next (a.revokeSlot (le b 6 2))) ∧
      (le b 4 2 = 3 → exec (.deploy m) s = .next (a.lifecycleTo 2).debugClose) ∧
      (le b 4 2 = 4 → ∀ i, exec (.returnCmd m i) s = .next (a.returned.startIf false i)) ∧
      (le b 4 2 = 5 → exec (.debugUnlock m) s = .next (a.debugUnlock b))) ∧
    (∀ c i, 1 ≤ c → c ≤ 5 → le b 4 2 = c →
      ((s.secReady = false ∨ s.secChecking bank = true) → exec (row c i) s = .next (s.secResult bank 7 0)) ∧
      (∀ e, s.secReady = true → s.secChecking bank = false → s.secCheck bank b = some e →
        exec (row c i) s = .next (((s.secBegin bank).secResult bank e.1 e.2).newNonce bank))) ∧
    exec (.close m) s = .next s.debugClose

/-- 19 R405, R417: over a link that is up, with the security services running, each request of the SPDM responder has its response: slot 0's
chain in portions, InvalidRequest for another slot or an offset past its end; a CHALLENGE with the summary of measurements it asks for and
the requester's context; measurement block 0 the count, 1 to 7 a block, 255 all seven, others InvalidRequest, signed when that is asked
for; UnsupportedRequest for any other request. While the services do not run every answer is Busy. The layout of the messages and which
blocks the summaries take are the model's choice (log 44), certificate, signature and nonce are free (log 3). -/
def Obligations.TheResponderAnswers : Prop :=
  ∀ (s : State), s.linkUp = true → s.dark = false →
    (s.secReady = true →
      exec .getVersion s = .next (s.sends (.spdm [0x10, 0x04, 0, 0, 0, 1, 0, 0x13])) ∧
      exec .getCapabilities s = .next (s.sends (.spdm
        ([0x13, 0x61, 0, 0, 0, Config.spdmExponent, 0, 0] ++ leBytes 4 0x16 ++ leBytes 8 Config.spdmSizes.toNat))) ∧
      exec .negotiateAlgorithms s = .next (s.sends (.spdm
        ([0x13, 0x63, 0, 0] ++ leBytes 2 36 ++ [1, 0] ++ leBytes 4 4 ++ leBytes 4 0x80 ++ leBytes 4 2 ++ leBytes 16 0))) ∧
      exec .getDigests s = .next (s.sends (.spdm ([0x13, 0x01, 1, 1] ++ sha384 s.chainBytes))) ∧
      (∀ offset length : BitVec 16, offset.toNat < s.chainBytes.length →
        let p := sub s.chainBytes offset.toNat length.toNat
        exec (.getCertificate 0 offset length) s = .next (s.sends (.spdm
          ([0x13, 0x02, 0, 0] ++ leBytes 2 p.length ++ leBytes 2 (s.chainBytes.length - offset.toNat - p.length) ++ p)))) ∧
      (∀ slot (offset length : BitVec 16), (slot ≠ 0 ∨ s.chainBytes.length ≤ offset.toNat) →
        exec (.getCertificate slot offset length) s = .next (s.sends (.spdm [0x13, 0x7F, 1, 0]))) ∧
      (∀ nonce kind ctx,
        (∀ h, s.measSummary kind = some h →
          let r := s.signedAnswer nonce ([0x13, 0x03, 0, 1] ++ sha384 s.chainBytes) h ctx true
          exec (.challenge 0 nonce kind ctx) s = .next (r.1.sends (.spdm r.2))) ∧
        (∀ slot, (slot ≠ 0 ∨ s.measSummary kind = none) →
          exec (.challenge slot nonce kind ctx) s = .next (s.sends (.spdm [0x13, 0x7F, 1, 0])))) ∧
      (∀ nonce (i : Byte) ctx signed, (i.toNat ≤ 7 ∨ i.toNat = 255) →
        let l := if i.toNat = 0 then [] else if i.toNat = 255 then [1, 2, 3, 4, 5, 6, 7] else [i.toNat]
        let b := (l.map s.measBlock).flatten
        let r := s.signedAnswer nonce ([0x13, 0x60, if i.toNat = 0 then 7 else 0, 0] ++ leBytes 1 l.length ++ leBytes 3 b.length ++ b) [] ctx signed
        exec (.getMeasurements i nonce ctx signed) s = .next (r.1.sends (.spdm r.2))) ∧
      (∀ nonce (i : Byte) ctx signed, 7 < i.toNat → i.toNat ≠ 255 →
        exec (.getMeasurements i nonce ctx signed) s = .next (s.sends (.spdm [0x13, 0x7F, 1, 0]))) ∧
      (∀ code : Byte, exec (.spdmUnsupported code) s = .next (s.sends (.spdm [0x13, 0x7F, 7, code])))) ∧
    (∀ nonce head mid ctx signed,
      let b := head ++ (List.range 32).map (Config.freeByte s.free) ++ mid ++ leBytes 2 0 ++ leBytes 8 ctx.toNat
      s.signedAnswer nonce head mid ctx signed =
        (s.draw.2, b ++ (if signed then Config.deviceSign s.sec.secretId (s.bootDigest ++ nonce ++ b) else []))) ∧
    (∀ kind : Byte, s.measSummary kind = if kind = 0 then some [] else if kind = 1 then some (sha384 (([1, 2, 3].map s.measBlock).flatten))
      else if kind = 255 then some (sha384 (([1, 2, 3, 4, 5, 6, 7].map s.measBlock).flatten)) else none) ∧
    (s.secReady = false → ∀ slot offset length nonce kind ctx index signed code, ∀ c ∈ [Instr.getVersion, .getCapabilities, .negotiateAlgorithms,
        .getDigests, .getCertificate slot offset length, .challenge slot nonce kind ctx, .getMeasurements index nonce ctx signed, .spdmUnsupported code],
      exec c s = .next (s.sends (.spdm [0x13, 0x7F, 3, 0])))

/-- 21 R440 to R443, R448: PREPARE erases the inactive bank in IDLE or FAILED; STAGE in READY reads the image into chunks; a programmed chunk
is written, relayed and acknowledged, and the last brings the check; the first RELAY from prev in READY begins reception, a next one of
the same image is taken, one already programmed is acknowledged again, others are refused; chunks not acknowledged are sent again;
RECEIVING that stalls fails; a VERIFIED device relays again. A bank that passes is VERIFIED; in RECOVERY it becomes active at once and
nothing is relayed. A source that cannot be read is FW_FLASH (log 46). -/
def Obligations.FirmwareIsReceivedAndRelayed : Prop :=
  ∀ (s : State) (m : Master),
    (s.lets m fwCtrl = true →
      ((s.fwState = 0 ∨ s.fwState = 7) →
        let b := (s.setBank s.fwInactive {}).setBootRecord (10 + s.fwInactive) 0
        exec (.fwPrepare m) s = .next { b with fw := { b.fw with preparing := true, sent := [] } }) ∧
      (s.fwState ≠ 0 → s.fwState ≠ 7 → exec (.fwPrepare m) s = .next s.fwRefuse) ∧
      (s.fwState ≠ 1 → ∀ errs ext, exec (.fwStage m errs ext) s = .next s.fwRefuse) ∧
      (s.fwState = 1 → ∀ errs ext,
        let n := s.rd F.HUB_FW_LEN_length
        let r := s.hubRead 0 (s.rd F.HUB_FW_SRC_addr) n ext errs
        (r.2 = none → exec (.fwStage m errs ext) s = .next (r.1.fwFailed 7)) ∧
        (∀ d, r.2 = some d →
          let c := r.1.fwReceive (leNat ((sha384 d).take 8)) ((n + 4095) / 4096) (some n)
          exec (.fwStage m errs ext) s = .next
            (if n = 0 then c.fwCheck else { c with fw := { c.fw with chunks := cutChunks (n / 4096 + 1) 0 d } }))) ∧
      (s.fwState = 3 → s.rd F.PWR_STATUS_state ≠ 3 →
        let b := bootBytes (s.bank s.fwInactive)
        let n := (b.length + 4095) / 4096
        exec (.fwRelayAgain m) s = .next
          ((({ s with fw := { s.fw with id := leNat ((sha384 b).take 8), count := n, toSend := List.range n, sent := [], relayOff := false } } : State).wrs
            [(F.HUB_FW_PROGRESS_chunks, n), (F.HUB_FW_PROGRESS_forwarded, 0)]).relayGo 4))) ∧
    (s.fw.preparing = true → (s.fwState = 0 ∨ s.fwState = 7) →
      exec .fwPrepareDone s = .next (({ s with fw := { s.fw with preparing := false } } : State).fwSet 1)) ∧
    (∀ i d from_ l, s.fw.chunks = (i, d, from_) :: l → s.fwState = 2 →
      let k := s.fwInactive
      let s1 := (s.setBank k ((s.bank k).write (4096 * i) d)).sends (.flash k (4096 * i) d)
      let done := s1.fw.done ++ [i]
      let s2 := (({ s1 with fw := { s1.fw with chunks := l, done := done, toSend := s1.fw.toSend ++ [i] } } : State).wr
        F.HUB_FW_PROGRESS_programmed done.length).relayGo 4
      (∀ s3, (from_ = none → s3 = s2) → (∀ e, from_ = some e → s3 = s2.relayAnswer e.1 e.2.1 e.2.2 .ok) →
        exec (.fwChunkProgrammed true) s = .next (if done.length = s.fw.count then s3.fwCheck else s3)) ∧
      exec (.fwChunkProgrammed false) s = .next (s.fwFailed 7)) ∧
    (let k := s.fwInactive
     let s1 := (s.setBootRecord (10 + k) 1).fwSet 3
     (∀ c, s.fwVerify (s.bank k) s.fwLength (some s.fw.id) = some c → s.fwCheck = s.fwFailed c) ∧
     (s.fwVerify (s.bank k) s.fwLength (some s.fw.id) = none →
       (s.rd F.PWR_STATUS_state ≠ 3 → s.fwCheck = s1) ∧
       (s.rd F.PWR_STATUS_state = 3 → s.fwCheck = (s1.setBootRecord 13 k).wr F.HUB_FW_STATUS_active_bank k))) ∧
    (∀ i l n, s.fw.toSend = i :: l → s.rd F.PWR_STATUS_state = 3 → s.relayGo (n + 1) = { s with fw := { s.fw with toSend := [] } }) ∧
    (∀ (src : BitVec 16) (tile : BitVec 11) (tag index count : Word) (id : Dword) data,
      s.dark = false → s.shuns src.toNat = false → s.image.members.contains src.toNat = true →
      let fits := src.toNat = s.rd F.HUB_FW_RELAY_prev ∧ index.toNat < count.toNat ∧
        (s.fwState = 1 ∨ (s.fwState = 2 ∧ id.toNat = s.fw.id ∧ count.toNat = s.fw.count))
      let from_ := some (src.toNat, tile.toNat, tag.toNat)
      (¬ fits → exec (.relay src tile tag index count id data) s = .next
        ((s.bump F.HUB_FW_PROGRESS_refused).relayAnswer src.toNat tile.toNat tag.toNat .dropped)) ∧
      (fits → s.fwState = 1 →
        let c := s.fwReceive id.toNat count.toNat none
        exec (.relay src tile tag index count id data) s = .next { c with fw := { c.fw with chunks := [(index.toNat, data, from_)] } }) ∧
      (fits → s.fwState = 2 →
        (s.fw.done.contains index.toNat = true → exec (.relay src tile tag index count id data) s = .next
          (s.relayAnswer src.toNat tile.toNat tag.toNat .ok)) ∧
        (s.fw.done.contains index.toNat = false → s.fw.chunks.any (fun e => e.1 == index.toNat) = true →
          exec (.relay src tile tag index count id data) s = .next s) ∧
        (s.fw.done.contains index.toNat = false → s.fw.chunks.any (fun e => e.1 == index.toNat) = false →
          exec (.relay src tile tag index count id data) s = .next
            { s with fw := { s.fw with chunks := s.fw.chunks ++ [(index.toNat, data, from_)] } }))) ∧
    (∀ i n a l, s.fw.sent = (i, n, a) :: l →
      (8 ≤ n → exec .fwRelayRetry s = .next s.relayFail) ∧
      (n < 8 → exec .fwRelayRetry s = .next
        (({ s with fw := { s.fw with sent := l ++ [(i, n + 1, s.time)] } } : State).sendPkt (s.relayPacket i)))) ∧
    (s.fwState = 2 → exec .fwRelayStall s = .next (s.fwFailed 8))

/-- 21 R443 to R448: SCHEDULE in VERIFIED enters the activation, DISCARD drops the image; the due action begins the service pause when no
snapshot and no dump runs, and is refused otherwise; the pause ends with the trial bank, or fails; health checks that pass confirm it (a
die that does not answer, a failed probe or no timebase withhold it), REJECT and 300 s without them fall back. In RECOVERY SCHEDULE is
refused; a recovery image that fails its check is not entered. The code for a tick that R57 refuses is log 46. -/
def Obligations.FirmwareIsActivatedAndTried : Prop :=
  ∀ (s : State) (m : Master),
    (s.lets m fwCtrl = true →
      (s.fwState = 3 → s.rd F.PWR_STATUS_state ≠ 3 →
        let e := s.enterAct (s.rd F.HUB_FW_ACT_TN_tn) 5 s.fwInactive 3
        (e.2.1 = 0 → exec (.fwSchedule m) s = .next (e.1.fwSet 4)) ∧ (e.2.1 ≠ 0 → exec (.fwSchedule m) s = .next (e.1.fwFail 0x0A))) ∧
      ((s.fwState ≠ 3 ∨ s.rd F.PWR_STATUS_state = 3) → exec (.fwSchedule m) s = .next s.fwRefuse) ∧
      (((1 ≤ s.fwState ∧ s.fwState ≤ 4) ∨ s.fwState = 7) →
        let b := (s.cancelActs (fun x => x.type == 5)).setBootRecord (10 + s.fwInactive) 0
        exec (.fwDiscard m) s = .next (({ b with fw := { b.fw with chunks := [], toSend := [], sent := [] } } : State).fwSet 0)) ∧
      (s.fwState = 6 → exec (.fwReject m) s = .next s.fallback) ∧
      (s.fwState ≠ 6 → exec (.fwReject m) s = .next s.fwRefuse)) ∧
    (∀ a s1, s.takeDue 5 = some (a, s1) → s1.fwState = 4 →
      (s1.snapState = 0 → (s1.dumpState = 0 ∨ 4 ≤ s1.dumpState) → exec .fwActivate s = .next
        ((({ s1 with fw := { s1.fw with active := true } } : State).fwSet 5).timeAll)) ∧
      ((s1.snapState ≠ 0 ∨ (1 ≤ s1.dumpState ∧ s1.dumpState ≤ 3)) → exec .fwActivate s = .next ((s1.fwSet 3).fwFail 0x0A))) ∧
    (s.fw.active = true →
      (s.fwState = 5 → s.bootFit (s.bank s.fwInactive) = true →
        let s1 := (s.setBootRecord 12 (s.fwInactive + 1)).booted s.fwInactive (s.bank s.fwInactive)
        exec .fwActivationDone s = .next ((({ s1 with fw := { s1.fw with trialAt := s1.time } } : State).fwSet 6).resumeService)) ∧
      (s.fwState = 5 → s.bootFit (s.bank s.fwInactive) = false → exec .fwActivationDone s = .next ((s.fwFailed 0x0B).resumeService)) ∧
      (s.fwState ≠ 5 → exec .fwActivationDone s = .next ((s.booted (s.bootRecord 13) (s.bank (s.bootRecord 13))).resumeService))) ∧
    (s.fwState = 6 → exec .fwTrialTimeout s = .next s.fallback) ∧
    (s.fwState = 6 → (s.rd F.TB_STATUS_state = 2 ∨ s.rd F.TB_STATUS_state = 4) →
      let v := s.rd F.SEC_FUSE_image_svn
      let s1 := (((((s.setBootRecord 13 s.fwInactive).setBootRecord 12 0).forEach [0, 1, 2] State.ownFormat).wr
        F.HUB_FW_STATUS_active_bank s.fwInactive).fwSet 0)
      exec (.fwConfirm true true) s = .next (if s.rd F.SEC_FUSE_svn < v then (s1.wr F.SEC_FUSE_svn v).sends (.fuse 9 v) else s1)) ∧
    (∀ dies probes, (s.fwState ≠ 6 ∨ dies = false ∨ probes = false ∨ (s.rd F.TB_STATUS_state ≠ 2 ∧ s.rd F.TB_STATUS_state ≠ 4)) →
      exec (.fwConfirm dies probes) s = .next s) ∧
    (∀ c, s.fwVerify s.fw.recovery none none = some c → s.recover = s) ∧
    (∀ o, s.offers o = true ↔ (s.rd F.PWR_STATUS_state = 3 → o ∈ [0x718, 0x30008, 0x800]))

/-! The host link, the shelf port and the I3C target (22). -/

/-- 22 R449, R451 to R458: BAR4 answers with the MSI-X table and the pending bits, and its control words mask and unmask; a configuration
request before step 2 gets Request Retry Status, after it the Resizable BAR control sizes BAR2, and the registers that the spec names read
as it says (the layout of a table entry and which registers are named is log 124); unmasking a vector sends its pending message; a lost
host link raises its event, fails what tiles have outstanding at the loft and resets nothing, a link that is back sends what waited; the
shelf engine takes the controller, deletes its queues and gives it back, which ends a copy with SHELF_IO, and shows its wear, or resets it
when the log page fails. -/
def Obligations.HostLinkAndShelfPort : Prop :=
  ∀ (s : State) (m : Master),
    (∀ (off : BitVec 41) errs, s.linkUp = true → s.dark = false →
      (∀ n ext, exec (.hostMemRead off n false errs .bar4 ext) s =
        .next (s.sends (.completion .ok ((List.range n).map (fun k => s.pcie.msixByte (off.toNat + k)))))) ∧
      (∀ n ext, exec (.hostMemRead off n true errs .bar4 ext) s = .next (s.poisoned.sends (.completion .unmapped []))) ∧
      (∀ data, exec (.hostMemWrite off data false errs .bar4) s = .next (s.msixWrites off.toNat data) ∧
        exec (.hostMemWrite off data true errs .bar4) s = .next s.poisoned)) ∧
    (∀ o b, ((0x8000 ≤ o ∨ 12 < o % 16) → s.msixPut o b = s) ∧
      (o < 0x8000 → o % 16 = 12 → (b.toNat % 2 = 0 → s.msixPut o b = s.unmaskVector (o / 16)) ∧
        (b.toNat % 2 = 1 → s.msixPut o b = { s with pcie := { s.pcie with unmasked := s.pcie.unmasked.filter (· != o / 16) } })) ∧
      (o < 0x8000 → o % 16 < 12 → s.msixPut o b = { s with pcie := { s.pcie with table := s.pcie.table.write o [b] } })) ∧
    (∀ (off : BitVec 41) errs sp, sp ≠ .bar2 → sp ≠ .bar4 →
      (s.configOpen = true → s.beforeFuses = true → ∀ n p ext data, exec (.hostMemRead off n p errs sp ext) s = .next (s.sends .retryStatus) ∧
        exec (.hostMemWrite off data p errs sp) s = .next (s.sends .retryStatus)) ∧
      ((s.configOpen = false ∨ s.beforeFuses = false) → s.linkUp = true → ∀ n ext data,
        exec (.hostMemRead off n false errs sp ext) s = .next (s.sends (.completion .ok (s.configRead off.toNat n sp))) ∧
        exec (.hostMemWrite off data false errs sp) s = .next (s.configWrite data sp) ∧
        exec (.hostMemWrite off data true errs sp) s = .next s.poisoned)) ∧
    (∀ off n data, s.configRead off n .resizableBar = leBytes n (Nat.log2 s.pcie.bar2Gib) ∧ s.configRead off n .serialNumber = (leBytes 8 s.sec.uid).take n ∧
      s.configRead off n .readinessTime = (leBytes 4 Config.readinessTime.toNat).take n ∧
      (leNat data ≤ 11 → s.configWrite data .resizableBar = { s with pcie := { s.pcie with bar2Gib := 2 ^ leNat data } })) ∧
    (∀ v : Fin 2048, s.linkUp = true → s.dark = false →
      let u := if s.pcie.unmasked.contains v.val then s.pcie.unmasked else s.pcie.unmasked ++ [v.val]
      let s1 : State := { s with pcie := { s.pcie with unmasked := u, waiting := s.pcie.waiting.filter (· != v.val) } }
      (s.pcie.waiting.contains v.val = false → exec (.msixUnmask v) s = .next s1) ∧
      (s.pcie.waiting.contains v.val = true → s.fw.active = false → exec (.msixUnmask v) s = .next (s1.sends (.msix v)))) ∧
    (s.linkUp = true → exec .hostLinkDown s = .next
      ((((s.wr F.HUB_PCIE_STATUS_link_up 0).wr F.HUB_PCIE_ERR_link_down 1).logs .PCIE_LINK_DOWN []).forEach (s.tiles.map (·.1)) State.loftLost)) ∧
    (s.linkUp = false → s.dark = false → s.pcie.perst = false → exec .hostLinkUp s = .next ((s.linkTrained.bump F.HUB_PCIE_STATUS_retrains).flushMsix)) ∧
    (s.lets m shelfCtrl = true → ∀ probe,
      (s.snap.job = none → exec (.shelfAttach m probe) s = .next (s.shelfTake probe)) ∧
      (s.rd F.SHELF_STATUS_state ≠ 2 → exec (.shelfRelease m) s = .next s) ∧
      (s.rd F.SHELF_STATUS_state = 2 →
        let c := s.nvmeDelete
        let b := ({ c with shelf := { c.shelf with owned := false, cmdAt := none } } : State).wr F.SHELF_STATUS_state 3
        (s.snap.job = none → exec (.shelfRelease m) s = .next b) ∧
        (s.snap.job ≠ none → exec (.shelfRelease m) s = .next
          ((({ b with snap := { b.snap with job := none } } : State).wr F.HUB_SNAP_SHELF_STATUS_state 2).shelfIo.shelfFree)))) ∧
    (∀ wear : BitVec 16, s.shelf.owned = true → s.rd F.SHELF_STATUS_state = 2 →
      exec (.shelfHealthPoll wear true) s = .next (s.nvmeHealth.wr F.SHELF_ERRS_wear wear.toNat) ∧
      exec (.shelfHealthPoll wear false) s = .next s.nvmeHealth.shelfFailed)

/-- 22 R460 to R462: while the auxiliary supply is there the target answers every common command code as R460 says, takes the index of a
private read, and answers the item that R461 lists, or all ones; WARM_START and COLD_START act through its write. Its address is 0x5D
until a dynamic one is assigned, and what is addressed to another passes it by. Identity and status words are free; that a longer write
than the maximum is not taken is log 28, and that a transaction takes the interrupts that wait log 49. -/
def Obligations.TheSidebandAnswers : Prop :=
  ∀ (s : State), s.pwr.aux = true →
    let a : State := { s with i3c := { s.i3c with wait := [] } }
    (∀ x : BitVec 7, s.i3c.addr = none →
      exec (.entdaa x) s = .next { a.sends (.i3c (beBytes 6 Config.i3cPid.toNat ++ [Config.i3cBcr, Config.i3cDcr])) with
        i3c := { a.i3c with addr := some x.toNat } } ∧
      exec (.setdasa x 0x5D) s = .next { a with i3c := { a.i3c with addr := some x.toNat } } ∧
      ∀ y, y ≠ 0x5D → exec (.setdasa x y) s = .next a) ∧
    (∀ x y : BitVec 7, s.i3c.addr ≠ none → exec (.entdaa x) s = .next a ∧ exec (.setdasa x y) s = .next a) ∧
    exec .rstdaa s = .next { a with i3c := { a.i3c with addr := none } } ∧
    exec .getpid s = .next (a.sends (.i3c (beBytes 6 Config.i3cPid.toNat))) ∧
    exec .getbcr s = .next (a.sends (.i3c [Config.i3cBcr])) ∧ exec .getdcr s = .next (a.sends (.i3c [Config.i3cDcr])) ∧
    exec .getstatus s = .next ({ a with free := s.free + 1 }.sends (.i3c (beBytes 2 (Config.i3cStatus s.free).toNat))) ∧
    exec .getmwl s = .next (a.sends (.i3c (beBytes 2 s.i3c.mwl))) ∧
    (∀ n : BitVec 16, exec (.setmwl n) s = .next { a with i3c := { a.i3c with mwl := n.toNat } }) ∧
    exec .enec s = .next { a with i3c := { a.i3c with enec := true } } ∧ exec .disec s = .next { a with i3c := { a.i3c with enec := false } } ∧
    (∀ ccc, exec (.i3cOtherCcc ccc) s = .next a) ∧
    (∀ target, target = none ∨ target = some (BitVec.ofNat 7 s.i3c.address) → s.i3c.address < 128 →
      (∀ (k : Byte) i, 1 ≤ s.i3c.mwl → exec (.i3cPrivateWrite [k] i target) s = .next { a with i3c := { a.i3c with index := k.toNat } }) ∧
      (∀ b i, s.i3c.mwl < b.length → exec (.i3cPrivateWrite b i target) s = .next a) ∧
      (∀ i, 9 ≤ s.i3c.mwl → s.dark = false → s.pwrSt ≠ 3 → s.powered = true →
        exec (.i3cPrivateWrite [0x40, 1, 0, 0, 0, 0, 0, 0, 0] i target) s = .next (a.startUp true i) ∧
        exec (.i3cPrivateWrite [0x40, 2, 0, 0, 0, 0, 0, 0, 0] i target) s = .next (a.startUp false i)) ∧
      (i3cItem s.i3c.index = none → exec (.i3cPrivateRead target) s = .next (a.sends (.i3c (allOnes 8)))) ∧
      (∀ o, i3cItem s.i3c.index = some o → (s.pwr.off = false ∨ s.i3c.index ≤ 1) → exec (.i3cPrivateRead target) s = .next
        (if s.i3c.index = 3 then (a.sends (.i3c (a.regRead .cpc o 8))).budgetRead else a.sends (.i3c (a.regRead .cpc o 8))))) ∧
    (∀ (y : BitVec 7) b i, y.toNat ≠ s.i3c.address → exec (.i3cPrivateWrite b i (some y)) s = .next a ∧
      exec (.i3cPrivateRead (some y)) s = .next a) ∧
    (s.i3c.addr = none → s.i3c.address = 0x5D) ∧ ∀ x, s.i3c.addr = some x → s.i3c.address = x

/-! The stowage block and the package (02, 01). -/

/-- 02 R39 to R44, R468: LOAD and STAGE begin a copy in the states that allow them, a copy that can be read and passes its check takes effect,
another shows its code and offset, and the tile when that one is absent; SCHEDULE enters the swap or says STOW_FULL; DISCARD drops the
staged image, with a swap pending too while that one is not committed, and is refused in every other state; the due swap puts the image in
force unless a LAUNCH holds an affected bay. Log 33, 84 and 106 name what the model chooses (the order of checks, an offset of 0, the
pieces a source is read in). -/
def Obligations.ImagesAreLoadedAndSwapped : Prop :=
  ∀ (s : State) (m : Master),
    (s.lets m stowCtrl = true →
      ((s.stowState = 0 ∨ s.stowState = 5) → exec (.stowLoad m) s = .next (s.stowCopy (16 * s.stowState + 2))) ∧
      (s.stowState ≠ 0 → s.stowState ≠ 5 → exec (.stowLoad m) s = .next (s.stowFail 0x0D 0)) ∧
      ((s.stowState = 2 ∨ s.stowState = 3) → exec (.stowStage m) s = .next (s.dropStaged.stowCopy 1)) ∧
      (s.stowState ≠ 2 → s.stowState ≠ 3 → exec (.stowStage m) s = .next (s.stowFail 0x0D 0)) ∧
      (s.stowState ≠ 3 → exec (.stowSchedule m) s = .next (s.stowFail 0x0D 0)) ∧
      (s.stowState = 3 → s.rd F.HUB_STOW_SWAP_TN_tn < s.tn + 2 → exec (.stowSchedule m) s = .next (s.stowFail 0x0E 0)) ∧
      (s.stowState = 3 → s.tn + 2 ≤ s.rd F.HUB_STOW_SWAP_TN_tn → s.on F.HUB_STOW_STATUS_warm_only = true →
        exec (.stowSchedule m) s = .next (s.stowFail 0x11 0)) ∧
      (∀ e n, s.stowState = 3 → s.tn + 2 ≤ s.rd F.HUB_STOW_SWAP_TN_tn → s.on F.HUB_STOW_STATUS_warm_only = false →
        s.enterAct (s.rd F.HUB_STOW_SWAP_TN_tn) 4 0 3 = (e, 0, n) → exec (.stowSchedule m) s = .next (e.wr F.HUB_STOW_STATUS_state 4)) ∧
      (∀ e r n, s.stowState = 3 → s.tn + 2 ≤ s.rd F.HUB_STOW_SWAP_TN_tn → s.on F.HUB_STOW_STATUS_warm_only = false → 2 ≤ r →
        s.enterAct (s.rd F.HUB_STOW_SWAP_TN_tn) 4 0 3 = (e, r, n) → exec (.stowSchedule m) s = .next (e.stowFail 0x10 0)) ∧
      (s.stowState = 3 ∨ (s.stowState = 4 ∧ (∀ x ∈ s.tb.pend, isStowSwap x = true → s.committed x = false) ∧ ∀ x ∈ s.tb.due, isStowSwap x = false) →
        exec (.stowDiscard m) s = .next (((s.cancelActs isStowSwap).dropStaged.wr F.HUB_STOW_STATUS_state 2).launchAll)) ∧
      (s.stowState = 4 → ((∃ x ∈ s.tb.pend, isStowSwap x = true ∧ s.committed x = true) ∨ ∃ x ∈ s.tb.due, isStowSwap x = true) →
        exec (.stowDiscard m) s = .next (s.stowFail 0x0D 0)) ∧
      (s.stowState ≠ 3 → s.stowState ≠ 4 → exec (.stowDiscard m) s = .next (s.stowFail 0x0D 0))) ∧
    (∀ op image fail errs, s.stow.copyOp = some op →
      let r := ({ s with stow := { s.stow with copyOp := none } } : State).stowBytes image fail errs
      (∀ o, r.2 = .error o → exec (.stowCopyComplete image fail errs) s = .next
        ((r.1.wr F.HUB_STOW_STATUS_state (stowBack op)).stowFail 0x12 o)) ∧
      (∀ b, r.2 = .ok b → exec (.stowCopyComplete image fail errs) s = .next (match r.1.stowCheck b (s.rd F.HUB_STOW_LEN_length) with
        | .error e =>
          let back := (r.1.wr F.HUB_STOW_STATUS_state (stowBack op)).stowFail e.1 e.2
          (match if e.1 = 12 then (imageOf b).absentRef b e.2 else none with
            | some t => back.logs .TILE_ABSENT [t]
            | none => back)
        | .ok i => r.1.stowDone op i))) ∧
    (∀ a s1 j, s.takeDue 4 (fun a => a.arg % 256 == 0) = some (a, s1) → s1.stowState = 4 → s1.stow.staged = some j →
      let hit := (s1.image.bays ++ j.bays).any (fun d => s1.image.affected j d.id && (s1.bay d.id).holder.isSome)
      (hit = false → exec .tableSwap s = .next (((s1.moveTiles s1.image j).putInForce j).powerSites j)) ∧
      (hit = true → exec .tableSwap s = .next
        (((s1.wr F.HUB_STOW_STATUS_state 3).stowFail 0x0F 0).logs .STOW_SWAP_REFUSED []).launchAll))

/-- 01 R16 to R21, R24, R25: a bridge flit with the expected number is accepted, a failing one fails it, a NAK is answered from the store; a
retrain that ends well resends at both ends; a mark of lanes that leaves both halves bad retrains the bundle, the third retrain brings it
down, and one that trains or is down is not retrained again; an engine that trains slowly says so, an isolated one does not train; its
requests pass the firewall only into its own aperture; with the chain disabled TDI passes through one bit to TDO. Log 17, 26, 99 and 100
name what the model chooses of flits (a NAK's place, the free lines of the test port, the credits at the start, the count of retrains for
each direction). -/
def Obligations.BridgesEnginesAndTestPort : Prop :=
  (∀ (s : State) (b : Fin 376) (flit : List Byte), s.bundleOut b = false →
    let x := s.bundle b
    let good := flit.length = 256 ∧ le flit 252 4 = (crc32 (flit.take 252)).toNat
    (good → le flit 2 1 % 16 ≠ 3 → le flit 0 1 = x.expect → exec (.bridgeFlit b flit) s = .next (s.bridgeAccept b flit)) ∧
    (good → le flit 2 1 % 16 = 3 → exec (.bridgeFlit b flit) s = .next
      (((s.setBundle b (x.credited flit)).sendAll
        ((x.sent.dropWhile (·.1 != le flit 1 1)).map (fun e => .bridgeFlit (opposite b) e.2.1))).bridgePump b)) ∧
    (¬ good → (x.failing = none ∨ le flit 0 1 = x.expect) → exec (.bridgeFlit b flit) s = .next (s.bridgeFail b flit))) ∧
  (∀ (s : State) (b : Fin 376), (s.bundle b).training = true →
    let x := s.bundle b
    exec (.bridgeRetrainEnd b true) s = .next
      ((((s.setBundle b { x with training := false }).bridgeNak b x.expect).bridgeResume b).bridgeResume (opposite b)) ∧
    exec (.bridgeRetrainEnd b false) s = .next (if 2 ≤ x.retrains then s.bridgeDown b else s.setBundle b { x with retrains := x.retrains + 1 })) ∧
  (∀ (s : State) (b : Nat),
    ((s.bundle b).training = true ∨ (s.bundle b).down = true → s.bridgeRetrain b = s) ∧
    ((s.bundle b).training = false → (s.bundle b).down = false →
      (2 ≤ (s.bundle b).retrains → s.bridgeRetrain b = s.bridgeDown b) ∧
      ((s.bundle b).retrains < 2 →
        ((s.bridgeRetrain b).bundle b).retrains = (s.bundle b).retrains + 1 ∧ ((s.bridgeRetrain b).bundle b).training = true ∧
        (s.bridgeRetrain b).log = s.log ++ [⟨.BRIDGE_RETRAIN, [b]⟩] ∧ (s.bridgeRetrain b).tiles = s.tiles ∧ (s.bridgeRetrain b).regs = s.regs ∧
        ∀ c, c ≠ b → (s.bridgeRetrain b).bundle c = s.bundle c))) ∧
  (∀ (s : State) (oe fast : Bool), (s.oe oe).isolated = true → exec (.ucieTrained oe fast) s = .next s) ∧
  (∀ (s : State) (oe : Bool), (s.oe oe).isolated = false →
    exec (.ucieTrained oe true) s = .next (s.setOe oe { s.oe oe with trained := true, slow := false }) ∧
    exec (.ucieTrained oe false) s = .next (((s.setOe oe { s.oe oe with trained := true, slow := true }).forEach (oePorts oe)
      (fun a p => a.setPort p ((a.port p).wr F.LNK_EVENT_ucie_slow 1))).raised .UCIE_SLOW [b2n oe])) ∧
  (∀ (s : State) (oe : Bool) (addr : Dword) (size : Nat) (data : List Byte) (tgt : Target), (s.oe oe).isolated = false → devOf addr.toNat = s.devId →
    let a := addr.toNat % 2 ^ 48
    apertureBase oe ≤ a → a + size ≤ apertureBase oe + 0x10000 →
    (s.check (.oe oe) a size 2 false = (s, .ok tgt) → exec (.oeRequest oe true addr size data) s = .next
      (s.setOe oe { s.oe oe with aperture := (s.oe oe).aperture.write (a - apertureBase oe) (data.take size) })) ∧
    (s.check (.oe oe) a size 1 false = (s, .ok tgt) → exec (.oeRequest oe false addr size data) s = .next
      (s.sends (.completion .ok ((s.oe oe).aperture.read (a - apertureBase oe) size))))) ∧
  (∀ (s : State) (oe w : Bool) (addr : Dword) (size : Nat) (data : List Byte), (s.oe oe).isolated = false →
    (devOf addr.toNat ≠ s.devId ∨ addr.toNat % 2 ^ 48 < apertureBase oe ∨ apertureBase oe + 0x10000 < addr.toNat % 2 ^ 48 + size) →
    exec (.oeRequest oe w addr size data) s = .next (s.firewall oe w addr.toNat size)) ∧
  (∀ (s : State) (tms tdi : Bool), s.chainEnable = false →
    exec (.tckEdge true tms tdi) s = .next { s with pkg := { s.pkg with tap :=
      { s.pkg.tap with st := .reset, ir := [], dr := [], bypass := false, last := tdi } } } ∧
    exec (.tckEdge false tms tdi) s = .next (s.tapReset.sends (.tdo s.pkg.tap.last))) ∧
  (∀ (s : State) (tms tdi : Bool), s.chainEnable = true →
    let s1 := s.tapAct tdi
    exec (.tckEdge true tms tdi) s = .next { s1 with pkg := { s1.pkg with tap := { s1.pkg.tap with st := tapNext s.pkg.tap.st tms, last := tdi } } })
end

