-- ==== Sys2Proof/Laws/Maps.lean ====
section
/-! SUPPORT. Laws of the sparse maps, registers, byte strings and memories: reads after writes, and the canonical form. -/

namespace Sys2Proof.Machine

variable {α : Type}

/-! Maps. -/

@[simp] theorem kget?_kput (m : KMap α) (k : Nat) (v : α) (j : Nat) :
    kget? (kput m k v) j = if j = k then some v else kget? m j := by
  induction m with
  | nil => simp [kput, kget?]
  | cons e m ih =>
    obtain ⟨i, w⟩ := e
    simp only [kput]
    split
    · next h => subst h; simp only [kget?]; split <;> simp_all
    · split
      · simp only [kget?]
      · simp only [kget?, ih]
        split
        · next h => subst h; rw [if_neg (by omega)]
        · rfl

@[simp] theorem kget_kput (m : KMap α) (k : Nat) (v : α) (j : Nat) (d : α) :
    kget (kput m k v) j d = if j = k then v else kget m j d := by
  simp only [kget, kget?_kput]; split <;> rfl

theorem KMap.wf_cons {j : Nat} {w : α} {m : KMap α} :
    KMap.wf ((j, w) :: m) = true ↔ (∀ e ∈ m.head?, j < e.1) ∧ KMap.wf m = true := by
  cases m with
  | nil => simp [KMap.wf]
  | cons e m => obtain ⟨k, x⟩ := e; simp [KMap.wf]

theorem KMap.wf_tail {e : Nat × α} {m : KMap α} (h : KMap.wf (e :: m) = true) : KMap.wf m = true :=
  (KMap.wf_cons (j := e.1) (w := e.2).1 h).2

theorem KMap.wf_lt {j : Nat} {w : α} {m : KMap α} (h : KMap.wf ((j, w) :: m) = true) : ∀ e ∈ m, j < e.1 := by
  induction m generalizing j w with
  | nil => simp
  | cons f m ih =>
    obtain ⟨k, x⟩ := f
    have hk : j < k := by have := (KMap.wf_cons.1 h).1; simpa using this
    intro e he
    rcases List.mem_cons.1 he with rfl | he
    · exact hk
    · exact hk.trans (ih (KMap.wf_tail h) e he)

theorem kput_keys {m : KMap α} {k : Nat} {v : α} {e : Nat × α} (h : e ∈ kput m k v) : e = (k, v) ∨ e ∈ m := by
  induction m with
  | nil => simpa [kput] using h
  | cons f m ih =>
    obtain ⟨j, w⟩ := f
    simp only [kput] at h
    split at h
    · rcases List.mem_cons.1 h with h | h
      · exact .inl h
      · exact .inr (List.mem_cons_of_mem _ h)
    · split at h
      · rcases List.mem_cons.1 h with h | h
        · exact .inl h
        · exact .inr h
      · rcases List.mem_cons.1 h with h | h
        · exact .inr (by simp [h])
        · rcases ih h with h | h
          · exact .inl h
          · exact .inr (List.mem_cons_of_mem _ h)

theorem KMap.wf_of_lt {j : Nat} {w : α} {m : KMap α} (h : KMap.wf m = true) (hj : ∀ e ∈ m, j < e.1) :
    KMap.wf ((j, w) :: m) = true := by
  refine KMap.wf_cons.2 ⟨fun e he => hj e ?_, h⟩
  cases m with
  | nil => simp at he
  | cons f m => simp at he; simp [he]

/-- A map stays in its canonical order when a value is put. -/
theorem kput_wf {m : KMap α} (h : KMap.wf m = true) (k : Nat) (v : α) : KMap.wf (kput m k v) = true := by
  induction m with
  | nil => simp [kput, KMap.wf]
  | cons f m ih =>
    obtain ⟨j, w⟩ := f
    simp only [kput]
    split
    · next hk => subst hk; exact KMap.wf_of_lt (KMap.wf_tail h) (KMap.wf_lt h)
    · split
      · next hlt =>
        refine KMap.wf_of_lt h fun e he => ?_
        rcases List.mem_cons.1 he with rfl | he
        · exact hlt
        · exact hlt.trans (KMap.wf_lt h e he)
      · next hne hlt =>
        refine KMap.wf_of_lt (ih (KMap.wf_tail h)) fun e he => ?_
        rcases kput_keys he with rfl | he
        · simp only; omega
        · exact KMap.wf_lt h e he

theorem kdel_sub {m : KMap α} {k : Nat} {e : Nat × α} (h : e ∈ kdel m k) : e ∈ m := by
  induction m with
  | nil => simp [kdel] at h
  | cons f m ih =>
    obtain ⟨j, w⟩ := f
    simp only [kdel] at h
    split at h
    · exact List.mem_cons_of_mem _ h
    · rcases List.mem_cons.1 h with h | h
      · simp [h]
      · exact List.mem_cons_of_mem _ (ih h)

/-- A map stays in its canonical order when a key goes. -/
theorem kdel_wf {m : KMap α} (h : KMap.wf m = true) (k : Nat) : KMap.wf (kdel m k) = true := by
  induction m with
  | nil => simp [kdel, KMap.wf]
  | cons f m ih =>
    obtain ⟨j, w⟩ := f
    simp only [kdel]
    split
    · exact KMap.wf_tail h
    · exact KMap.wf_of_lt (ih (KMap.wf_tail h)) fun e he => KMap.wf_lt h e (kdel_sub he)

theorem kget?_none_of_lt {m : KMap α} {k : Nat} (h : ∀ e ∈ m, k < e.1) : kget? m k = none := by
  induction m with
  | nil => rfl
  | cons f m ih =>
    obtain ⟨j, w⟩ := f
    have : k < j := h (j, w) (by simp)
    simp only [kget?]
    rw [if_neg (by omega)]
    exact ih fun e he => h e (List.mem_cons_of_mem _ he)

theorem kget?_kdel {m : KMap α} (h : KMap.wf m = true) (k j : Nat) :
    kget? (kdel m k) j = if j = k then none else kget? m j := by
  induction m with
  | nil => simp [kdel, kget?]
  | cons f m ih =>
    obtain ⟨i, w⟩ := f
    simp only [kdel]
    split
    · next hk =>
      subst hk
      split
      · next hj => subst hj; exact kget?_none_of_lt (KMap.wf_lt h)
      · next hj => simp [kget?, hj]
    · next hk =>
      simp only [kget?, ih (KMap.wf_tail h)]
      split
      · next hj => subst hj; rw [if_neg (by omega)]
      · rfl

/-! Registers. -/

theorem kget?_kdel_ne (m : KMap α) {k j : Nat} (h : j ≠ k) : kget? (kdel m k) j = kget? m j := by
  induction m with
  | nil => rfl
  | cons f m ih =>
    obtain ⟨i, w⟩ := f
    simp only [kdel]
    split
    · next hk => subst hk; simp [kget?, h]
    · simp only [kget?, ih]

/-- A register keeps its value when another is written. -/
theorem rget_rput_ne (r : Regs) {k j : Nat} (v : Dword) (h : j ≠ k) : rget (rput r k v) j = rget r j := by
  unfold rput rget kget
  split
  · rw [kget?_kdel_ne r h]
  · simp [h]

/-- A register reads as it was written, in a map in canonical order. -/
theorem rget_rput {r : Regs} (hr : KMap.wf r = true) (k : Nat) (v : Dword) : rget (rput r k v) k = v := by
  unfold rput rget kget
  split
  · next h => simp [kget?_kdel hr, h]
  · simp

theorem rput_wf {r : Regs} (hr : KMap.wf r = true) (k : Nat) (v : Dword) : KMap.wf (rput r k v) = true := by
  unfold rput; split
  · exact kdel_wf hr k
  · exact kput_wf hr k v

theorem setFld_wf {r : Regs} (hr : KMap.wf r = true) (f : Fld) (v : Nat) : KMap.wf (setFld r f v) = true := rput_wf hr _ _

/-- A register keeps its value when a field of another is set. -/
theorem rget_setFld_ne (r : Regs) (f : Fld) (v : Nat) {j : Nat} (h : j ≠ f.off) : rget (setFld r f v) j = rget r j :=
  rget_rput_ne r _ h

theorem rget_setFlds_ne (l : List (Fld × Nat)) (r : Regs) {j : Nat} (h : ∀ e ∈ l, j ≠ e.1.off) :
    rget (setFlds r l) j = rget r j := by
  induction l generalizing r with
  | nil => rfl
  | cons e l ih =>
    rw [setFlds, ih _ fun x hx => h x (List.mem_cons_of_mem _ hx)]
    exact rget_setFld_ne r _ _ (h e (by simp))

/-! Fields. -/

theorem bits_lt (w : Dword) (lo n : Nat) : bits w lo n < 2 ^ n := Nat.mod_lt _ (by positivity)

theorem bits_testBit (w : Dword) (lo n i : Nat) : (bits w lo n).testBit i = (decide (i < n) && w.getLsbD (lo + i)) := by
  simp [bits, Nat.testBit_mod_two_pow, Nat.testBit_shiftRight, BitVec.getLsbD]

theorem putBits_getLsbD (w : Dword) (lo n v i : Nat) :
    (putBits w lo n v).getLsbD i =
      (decide (i < 64) && if lo ≤ i ∧ i < lo + n then v.testBit (i - lo) else w.getLsbD i) := by
  simp only [putBits, BitVec.getLsbD_or, BitVec.getLsbD_and, BitVec.getLsbD_not, BitVec.getLsbD_shiftLeft, BitVec.getLsbD_ofNat,
    Nat.testBit_mod_two_pow, Nat.testBit_two_pow_sub_one]
  by_cases h64 : i < 64
  · by_cases hlo : i < lo
    · simp [h64, hlo, Nat.not_le.2 hlo]
    · by_cases hn : i < lo + n
      · have h1 : i - lo < n := by omega
        have h2 : i - lo < 64 := by omega
        simp [h64, hlo, hn, h1, h2, Nat.le_of_not_lt hlo]
      · have h1 : ¬ i - lo < n := by omega
        simp [h64, hlo, hn, h1]
  · simp [h64, BitVec.getLsbD_of_ge _ _ (Nat.le_of_not_lt h64)]

/-- A field reads as it was set, modulo its width. -/
theorem bits_putBits (w : Dword) {lo n : Nat} (v : Nat) (h : lo + n ≤ 64) : bits (putBits w lo n v) lo n = v % 2 ^ n := by
  apply Nat.eq_of_testBit_eq
  intro i
  rw [bits_testBit, Nat.testBit_mod_two_pow, putBits_getLsbD]
  by_cases hi : i < n
  · have : lo + i < 64 := by omega
    simp [hi, this]
  · simp [hi]

/-- A field keeps its value when a field beside it is set. -/
theorem bits_putBits_ne (w : Dword) {lo n lo' n' : Nat} (v : Nat) (h : lo' + n' ≤ lo ∨ lo + n ≤ lo') :
    bits (putBits w lo n v) lo' n' = bits w lo' n' := by
  apply Nat.eq_of_testBit_eq
  intro i
  rw [bits_testBit, bits_testBit, putBits_getLsbD]
  by_cases hi : i < n'
  · have : ¬ (lo ≤ lo' + i ∧ lo' + i < lo + n) := by omega
    by_cases h64 : lo' + i < 64
    · simp [hi, this, h64]
    · simp [hi, h64, BitVec.getLsbD_of_ge _ _ (Nat.le_of_not_lt h64)]
  · simp [hi]

theorem fld_setFld {r : Regs} (hr : KMap.wf r = true) (f : Fld) (v : Nat) (h : f.lo + f.width ≤ 64) :
    fld (setFld r f v) f = v % 2 ^ f.width := by
  rw [fld, setFld, rget_rput hr, bits_putBits _ _ h]

/-- Two fields are apart: of different registers, or beside one another. -/
def Fld.apart (f g : Fld) : Bool := f.off != g.off || decide (g.lo + g.width ≤ f.lo) || decide (f.lo + f.width ≤ g.lo)

theorem fld_setFld_apart {r : Regs} (hr : KMap.wf r = true) (f g : Fld) (v : Nat) (h : f.apart g = true) :
    fld (setFld r f v) g = fld r g := by
  by_cases ho : g.off = f.off
  · have : g.lo + g.width ≤ f.lo ∨ f.lo + f.width ≤ g.lo := by
      simp [Fld.apart, ho] at h; exact h
    rw [fld, setFld, ho, rget_rput hr, bits_putBits_ne _ _ this, fld, ho]
  · rw [fld, rget_setFld_ne r f v ho, fld]

theorem fld_setFld_ne (r : Regs) (f g : Fld) (v : Nat) (h : g.off ≠ f.off) : fld (setFld r f v) g = fld r g := by
  rw [fld, rget_setFld_ne r f v h, fld]

/-! Byte strings. -/

@[simp] theorem leBytes_length (n v : Nat) : (leBytes n v).length = n := by
  induction n generalizing v with
  | zero => rfl
  | succ n ih => simp [leBytes, ih]

/-- A number survives its bytes. -/
theorem leNat_leBytes (n v : Nat) : leNat (leBytes n v) = v % 256 ^ n := by
  induction n generalizing v with
  | zero => simp [leBytes, leNat, Nat.mod_one]
  | succ n ih =>
    have hp : 256 ^ (n + 1) = 256 * 256 ^ n := by rw [Nat.pow_succ, Nat.mul_comm]
    rw [leBytes, leNat, ih, BitVec.toNat_ofNat, hp, Nat.mod_mul]

theorem leNat_lt (l : List Byte) : leNat l < 256 ^ l.length := by
  induction l with
  | nil => simp [leNat]
  | cons b l ih =>
    have : b.toNat < 256 := b.isLt
    simp only [leNat, List.length_cons, Nat.pow_succ]
    omega

/-- Bytes survive their number. -/
theorem leBytes_leNat (l : List Byte) : leBytes l.length (leNat l) = l := by
  induction l with
  | nil => rfl
  | cons b l ih =>
    have hb : b.toNat < 256 := b.isLt
    have h1 : (b.toNat + 256 * leNat l) / 256 = leNat l := by omega
    simp only [List.length_cons, leBytes, leNat, h1, ih]
    congr 1
    apply BitVec.eq_of_toNat_eq
    simp [BitVec.toNat_ofNat, Nat.add_mod, Nat.mod_eq_of_lt hb]

theorem le_leBytes_append (n v : Nat) (l : List Byte) : le (leBytes n v ++ l) 0 n = v % 256 ^ n := by
  simp [le, sub, leNat_leBytes]

/-! Memories. -/

@[simp] theorem Mem.set_undef (m : Mem) (a : Nat) (b : Byte) : (m.set a b).undef = m.undef := by
  unfold Mem.set; split <;> rfl

theorem Mem.wf_keys {m : Mem} (h : m.wf = true) : KMap.wf m.cells = true := by
  simp only [Mem.wf, Bool.and_eq_true] at h; exact h.1

/-- A byte keeps its value when another is written. -/
theorem Mem.get_set_ne (m : Mem) {a c : Nat} (b : Byte) (h : c ≠ a) : (m.set a b).get c = m.get c := by
  unfold Mem.get Mem.set
  split
  · simp only [kget?_kdel_ne m.cells h, Mem.blank]
  · simp only [kget?_kput, h, if_false, Mem.blank]

/-- A byte reads as it was written, in a memory in canonical form. -/
theorem Mem.get_set {m : Mem} (hm : m.wf = true) (a : Nat) (b : Byte) : (m.set a b).get a = b := by
  unfold Mem.get Mem.set
  split
  · next h => simp [kget?_kdel (Mem.wf_keys hm), Mem.blank, h.1, h.2]
  · simp

/-- A write of one byte keeps the canonical form. -/
theorem Mem.set_wf {m : Mem} (hm : m.wf = true) (a : Nat) (b : Byte) : (m.set a b).wf = true := by
  have hk := Mem.wf_keys hm
  simp only [Mem.wf, Bool.and_eq_true, Bool.or_eq_true] at hm ⊢
  unfold Mem.set
  split
  · next h =>
    refine ⟨kdel_wf hk a, hm.2.imp_right fun hz => ?_⟩
    simp only [List.all_eq_true] at hz ⊢
    exact fun e he => hz e (kdel_sub he)
  · next h =>
    refine ⟨kput_wf hk a b, ?_⟩
    by_cases hu : m.undef = none
    · refine .inr ?_
      have hb : b ≠ 0 := fun h0 => h ⟨hu, h0⟩
      have hz := hm.2.resolve_left (by simp [hu])
      simp only [List.all_eq_true] at hz ⊢
      intro e he
      rcases kput_keys he with rfl | he
      · simpa using hb
      · exact hz e he
    · exact .inl (by simpa [Option.isSome_iff_ne_none] using hu)

/-- A write keeps the canonical form. -/
theorem Mem.write_wf {m : Mem} (hm : m.wf = true) (a : Nat) (l : List Byte) : (m.write a l).wf = true := by
  induction l generalizing m a with
  | nil => exact hm
  | cons b l ih => exact ih (Mem.set_wf hm a b) (a + 1)

/-- A write leaves every byte outside it. -/
theorem Mem.get_write_out (m : Mem) (a : Nat) (l : List Byte) (c : Nat) (h : c < a ∨ a + l.length ≤ c) :
    (m.write a l).get c = m.get c := by
  induction l generalizing m a with
  | nil => rfl
  | cons b l ih =>
    simp only [List.length_cons] at h
    rw [Mem.write, ih _ _ (by omega), Mem.get_set_ne _ _ (by omega)]

@[simp] theorem Mem.read_length (m : Mem) (a n : Nat) : (m.read a n).length = n := by
  induction n generalizing a with
  | zero => rfl
  | succ n ih => simp [Mem.read, ih]

theorem kget?_cells_wf_default (m : Mem) (a : Nat) (h : kget? m.cells a = none) : m.get a = m.blank a := by
  simp [Mem.get, h]

end Sys2Proof.Machine
end

