-- ==== Sys2Proof/Laws/KeepsBase.lean ====
section
/-! SUPPORT. The queue, the clock and the canonical form of the memories outside the tiles, which every command keeps: the shapes a
state is built in. In the files beside this one each function has one lemma. A function that reaches none of these keeps them exactly when its argument does; one that writes a memory keeps them
when its argument does. -/

namespace Sys2Proof.Machine

/-- The queue is `q`, the clock shows `n`, and the memories outside the tiles stand in canonical form. -/
def State.Keeps (q : List Instr) (n : Nat) (s : State) : Prop := s.pending = q ∧ s.time = n ∧ s.memsWf = true ∧ s.bounded = true

/-- Whatever next state an outcome gives keeps them. -/
def Res.Keeps (q : List Instr) (n : Nat) (r : Res) : Prop := ∀ t, r = .next t → t.Keeps q n

variable {q : List Instr} {n : Nat} {s : State}

@[simp] theorem next_keeps : Res.Keeps q n (.next s) ↔ s.Keeps q n := by simp [Res.Keeps]

@[simp] theorem ok_keeps : Res.Keeps q n (ok s) ↔ s.Keeps q n := next_keeps

theorem State.bounded_iff : s.bounded = true ↔ (s.tb.pend.map (·.slot)).Nodup ∧ (∀ a ∈ s.tb.pend, a.slot < 1024) ∧ s.pwr.power ≤ 16 ∧
    s.fw.sent.length ≤ 4 ∧ s.i3c.wait.Nodup ∧ s.pcie.table.wf = true := by
  simp [State.bounded, and_assoc]

@[simp] theorem upd_keeps {fr lg ou rg pkg st tb sp hb sk ti sg va fl re ba qu di po gr sn sa pw se du fw pc sh i3}
    (ha : fw.bankA = s.fw.bankA) (hb' : fw.bankB = s.fw.bankB) (hr : fw.recovery = s.fw.recovery) (hs : sh.staging = s.shelf.staging)
    (ho : pkg.oa.aperture = s.pkg.oa.aperture) (hp : pkg.ob.aperture = s.pkg.ob.aperture) (ht : tb.pend = s.tb.pend) (hw : pw.power = s.pwr.power)
    (hn : fw.sent = s.fw.sent) (hi : i3.wait = s.i3c.wait) (hx : pc.table = s.pcie.table) :
    State.Keeps q n (State.mk s.pending s.time fr lg ou rg pkg st tb sp s.hbm hb sk ti sg va ba qu di po gr sn sa pw se du fw pc sh i3 fl re) ↔ s.Keeps q n := by
  simp only [State.Keeps, State.memsWf, State.bounded, ha, hb', hr, hs, ho, hp, ht, hw, hn, hi, hx]

/-- The same where a change keeps the bounds but not the bounded things themselves. -/
theorem upd_keeps_of {fr lg ou rg pkg st tb sp hb sk ti sg va fl re ba qu di po gr sn sa pw se du fw pc sh i3} (h : s.Keeps q n)
    (hw : s.pwr.power ≤ 16 → pw.power ≤ 16) (hn : s.fw.sent.length ≤ 4 → fw.sent.length ≤ 4) (hi : s.i3c.wait.Nodup → i3.wait.Nodup)
    (hx : s.pcie.table.wf = true → pc.table.wf = true)
    (ha : fw.bankA = s.fw.bankA) (hb' : fw.bankB = s.fw.bankB) (hr : fw.recovery = s.fw.recovery) (hs : sh.staging = s.shelf.staging)
    (ho : pkg.oa.aperture = s.pkg.oa.aperture) (hp : pkg.ob.aperture = s.pkg.ob.aperture) (ht : tb.pend = s.tb.pend) :
    State.Keeps q n (State.mk s.pending s.time fr lg ou rg pkg st tb sp s.hbm hb sk ti sg va ba qu di po gr sn sa pw se du fw pc sh i3 fl re) := by
  obtain ⟨h1, h2, h3, h4⟩ := h
  rw [State.bounded_iff] at h4
  refine ⟨h1, h2, ?_, State.bounded_iff.2 ⟨?_, ?_, hw h4.2.2.1, hn h4.2.2.2.1, hi h4.2.2.2.2.1, hx h4.2.2.2.2.2⟩⟩
  · simpa only [State.memsWf, ha, hb', hr, hs, ho, hp] using h3
  · exact ht ▸ h4.1
  · exact ht ▸ h4.2.1

@[simp] theorem ite_keeps {c : Prop} [Decidable c] {a b : State} :
    (if c then a else b).Keeps q n ↔ if c then a.Keeps q n else b.Keeps q n := by
  split <;> rfl

@[simp] theorem ite_keeps_fst {α : Type} {c : Prop} [Decidable c] {a b : State × α} :
    (if c then a else b).1.Keeps q n ↔ if c then a.1.Keeps q n else b.1.Keeps q n := by
  split <;> rfl

@[simp] theorem ite_keeps_snd {c : Prop} [Decidable c] {a b : Nat × State} :
    (if c then a else b).2.Keeps q n ↔ if c then a.2.Keeps q n else b.2.Keeps q n := by
  split <;> rfl

@[simp] theorem res_ite_keeps {c : Prop} [Decidable c] {a b : Res} :
    Res.Keeps q n (if c then a else b) ↔ if c then Res.Keeps q n a else Res.Keeps q n b := by
  split <;> rfl

@[simp] theorem foldl_keeps {α : Type} {f : State → α → State} {l : List α} (hf : ∀ a x, State.Keeps q n (f a x) ↔ a.Keeps q n) :
    (l.foldl f s).Keeps q n ↔ s.Keeps q n := by
  induction l generalizing s with
  | nil => rfl
  | cons x l ih => exact ih.trans (hf s x)

theorem ite_imp_keeps {c : Prop} [Decidable c] {a b : State} (ha : a.Keeps q n) (hb : b.Keeps q n) : (if c then a else b).Keeps q n := by
  split
  · exact ha
  · exact hb

theorem foldl_keeps_of {α : Type} {f : State → α → State} {l : List α} (h : s.Keeps q n)
    (hf : ∀ a x, State.Keeps q n a → (f a x).Keeps q n) : (l.foldl f s).Keeps q n := by
  induction l generalizing s with
  | nil => exact h
  | cons x l ih => exact ih (hf _ _ h)

@[simp] theorem foldl_keeps_fst {α β : Type} {f : State × β → α → State × β} {l : List α} {p : State × β}
    (hf : ∀ a x, State.Keeps q n (f a x).1 ↔ a.1.Keeps q n) : (l.foldl f p).1.Keeps q n ↔ p.1.Keeps q n := by
  induction l generalizing p with
  | nil => rfl
  | cons x l ih => exact ih.trans (hf p x)

theorem foldl_keeps_fst_of {α β : Type} {f : State × β → α → State × β} {l : List α} {p : State × β} (h : p.1.Keeps q n)
    (hf : ∀ a x, State.Keeps q n a.1 → (f a x).1.Keeps q n) : (l.foldl f p).1.Keeps q n := by
  induction l generalizing p with
  | nil => exact h
  | cons x l ih => exact ih (hf p x h)

/-- A memory write keeps what holds, the written memory included. -/
theorem hbm_keeps (h : s.Keeps q n) {m : Mem} (hm : s.hbm.wf = true → m.wf = true) {t : State} (hp : t.pending = s.pending) (ht : t.time = s.time)
    (hf : t.fw = s.fw) (hs : t.shelf = s.shelf) (hk : t.pkg = s.pkg) (he : t.hbm = m) (hb : t.tb = s.tb) (hw : t.pwr = s.pwr)
    (hi : t.i3c = s.i3c) (hx : t.pcie = s.pcie) : t.Keeps q n := by
  obtain ⟨h1, h2, h3, h4⟩ := h
  refine ⟨hp.trans h1, ht.trans h2, ?_, by simpa only [State.bounded, hb, hw, hf, hi, hx] using h4⟩
  simp only [State.memsWf, hf, hs, hk, he, Bool.and_eq_true] at h3 ⊢
  exact ⟨⟨⟨⟨⟨⟨hm h3.1.1.1.1.1.1, h3.1.1.1.1.1.2⟩, h3.1.1.1.1.2⟩, h3.1.1.1.2⟩, h3.1.1.2⟩, h3.1.2⟩, h3.2⟩

end Sys2Proof.Machine
end

