-- ==== Sys2Proof/Laws/KeepsDevice.lean ====
section
/-! SUPPORT. What the functions of the named operations, the monitor, the tick actions, HBM, the checks of requests, the links, a launch keep (KeepsBase). -/

set_option linter.all false

namespace Sys2Proof.Machine

variable {q : List Instr} {n : Nat} {s : State}

@[simp] theorem State.setRegs_keeps {r : Regs} : (State.setRegs s r).Keeps q n ↔ s.Keeps q n := by
  simp [State.setRegs, ↓upd_keeps, ↓ite_keeps, ↓res_ite_keeps, ↓ite_keeps_fst]

@[simp] theorem State.wr_keeps {f : Fld} {v : Nat} : (State.wr s f v).Keeps q n ↔ s.Keeps q n := by
  simp [State.wr, ↓upd_keeps, ↓ite_keeps, ↓res_ite_keeps, ↓ite_keeps_fst]

@[simp] theorem State.wrs_keeps {l : List (Fld × Nat)} : (State.wrs s l).Keeps q n ↔ s.Keeps q n := by
  simp [State.wrs, ↓upd_keeps, ↓ite_keeps, ↓res_ite_keeps, ↓ite_keeps_fst]

@[simp] theorem State.bump_keeps {f : Fld} {n' : Nat} : (State.bump s f n').Keeps q n ↔ s.Keeps q n := by
  simp [State.bump, ↓upd_keeps, ↓ite_keeps, ↓res_ite_keeps, ↓ite_keeps_fst]

@[simp] theorem State.logs_keeps {n' : EvName} {args : List Nat} : (State.logs s n' args).Keeps q n ↔ s.Keeps q n := by
  simp [State.logs, ↓upd_keeps, ↓ite_keeps, ↓res_ite_keeps, ↓ite_keeps_fst]

@[simp] theorem State.sends_keeps {o : Out} : (State.sends s o).Keeps q n ↔ s.Keeps q n := by
  simp [State.sends, ↓upd_keeps, ↓ite_keeps, ↓res_ite_keeps, ↓ite_keeps_fst]

@[simp] theorem State.sendAll_keeps {l : List Out} : (State.sendAll s l).Keeps q n ↔ s.Keeps q n := by
  simp [State.sendAll, ↓upd_keeps, ↓ite_keeps, ↓res_ite_keeps, ↓ite_keeps_fst]

@[simp] theorem State.draw_keeps : (State.draw s).2.Keeps q n ↔ s.Keeps q n := by
  simp [State.draw, ↓upd_keeps, ↓ite_keeps, ↓res_ite_keeps, ↓ite_keeps_fst]

@[simp] theorem State.draws_keeps {n' : Nat} : (State.draws s n').Keeps q n ↔ s.Keeps q n := by
  simp [State.draws, ↓upd_keeps, ↓ite_keeps, ↓res_ite_keeps, ↓ite_keeps_fst]

@[simp] theorem State.setTile_keeps {t : Nat} {x : Tile} : (State.setTile s t x).Keeps q n ↔ s.Keeps q n := by
  simp [State.setTile, ↓upd_keeps, ↓ite_keeps, ↓res_ite_keeps, ↓ite_keeps_fst]

@[simp] theorem State.setStack_keeps {n' : Nat} {x : Stack} : (State.setStack s n' x).Keeps q n ↔ s.Keeps q n := by
  simp [State.setStack, ↓upd_keeps, ↓ite_keeps, ↓res_ite_keeps, ↓ite_keeps_fst]

@[simp] theorem State.setQueue_keeps {q' : Nat} {x : Queue} : (State.setQueue s q' x).Keeps q n ↔ s.Keeps q n := by
  simp [State.setQueue, ↓upd_keeps, ↓ite_keeps, ↓res_ite_keeps, ↓ite_keeps_fst]

@[simp] theorem State.setPort_keeps {p : Nat} {x : Port} : (State.setPort s p x).Keeps q n ↔ s.Keeps q n := by
  simp [State.setPort, ↓upd_keeps, ↓ite_keeps, ↓res_ite_keeps, ↓ite_keeps_fst]

@[simp] theorem State.setBay_keeps {b : Nat} {x : Bay} : (State.setBay s b x).Keeps q n ↔ s.Keeps q n := by
  simp [State.setBay, ↓upd_keeps, ↓ite_keeps, ↓res_ite_keeps, ↓ite_keeps_fst]

@[simp] theorem State.setVault_keeps {n' : Nat} {x : Vault} : (State.setVault s n' x).Keeps q n ↔ s.Keeps q n := by
  simp [State.setVault, ↓upd_keeps, ↓ite_keeps, ↓res_ite_keeps, ↓ite_keeps_fst]

@[simp] theorem State.setBundle_keeps {b : Nat} {x : Bundle} : (State.setBundle s b x).Keeps q n ↔ s.Keeps q n := by
  simp [State.setBundle, ↓upd_keeps, ↓ite_keeps, ↓res_ite_keeps, ↓ite_keeps_fst]

theorem State.oe_wf (h : s.Keeps q n) (x : Bool) : (s.oe x).aperture.wf = true := by
  obtain ⟨-, -, w, -⟩ := h
  simp only [State.memsWf, Bool.and_eq_true] at w
  cases x
  · exact w.1.2
  · exact w.2

theorem State.setOe_keeps (h : s.Keeps q n) (second : Bool) {x : OptEng} (hx : x.aperture.wf = true) : (s.setOe second x).Keeps q n := by
  obtain ⟨h1, h2, w, h4⟩ := h
  refine ⟨h1, h2, ?_, h4⟩
  simp only [State.memsWf, Bool.and_eq_true] at w ⊢
  cases second
  · exact ⟨⟨w.1.1, hx⟩, w.2⟩
  · exact ⟨⟨w.1.1, w.1.2⟩, hx⟩

@[simp] theorem State.firewallTick_keeps : (State.firewallTick s).Keeps q n ↔ s.Keeps q n := by
  simp [State.firewallTick, ↓upd_keeps, ↓ite_keeps, ↓res_ite_keeps, ↓ite_keeps_fst]

@[simp] theorem State.tapReset_keeps : (State.tapReset s).Keeps q n ↔ s.Keeps q n := by
  simp [State.tapReset, ↓upd_keeps, ↓ite_keeps, ↓res_ite_keeps, ↓ite_keeps_fst]

@[simp] theorem State.twr_keeps {t : Nat} {f : Fld} {v : Nat} : (State.twr s t f v).Keeps q n ↔ s.Keeps q n := by
  simp [State.twr, ↓upd_keeps, ↓ite_keeps, ↓res_ite_keeps, ↓ite_keeps_fst]

@[simp] theorem State.forEach_keeps {l : List Nat} (f : State → Nat → State) (hf : ∀ a x0, (f a x0).Keeps q n ↔ State.Keeps q n a) : (State.forEach s l f).Keeps q n ↔ s.Keeps q n := by
  simp [State.forEach, ↓upd_keeps, ↓ite_keeps, ↓res_ite_keeps, ↓ite_keeps_fst, hf]

theorem State.forEach_keeps_of (h : s.Keeps q n) {l : List Nat} (f : State → Nat → State) (hf : ∀ a x0, State.Keeps q n a → (f a x0).Keeps q n) : (State.forEach s l f).Keeps q n := by
  unfold State.forEach
  repeat' (first | assumption | with_reducible apply hf | with_reducible apply foldl_keeps_of | rw [ok_keeps] | rw [next_keeps] | with_reducible intro _ | (split <;> try (rename_i e; have e2 := congrArg Prod.fst e; dsimp only at e2; subst e2)) | dsimp only | simp [h])

@[simp] theorem State.poisoned_keeps : (State.poisoned s).Keeps q n ↔ s.Keeps q n := by
  simp [State.poisoned, ↓upd_keeps, ↓ite_keeps, ↓res_ite_keeps, ↓ite_keeps_fst]

@[simp] theorem State.badCompletion_keeps : (State.badCompletion s).1.Keeps q n ↔ s.Keeps q n := by
  simp [State.badCompletion, ↓upd_keeps, ↓ite_keeps, ↓res_ite_keeps, ↓ite_keeps_fst]

@[simp] theorem State.confirmed_keeps {good : Bool} : (State.confirmed s good).Keeps q n ↔ s.Keeps q n := by
  simp [State.confirmed, ↓upd_keeps, ↓ite_keeps, ↓res_ite_keeps, ↓ite_keeps_fst]

@[simp] theorem State.msix_keeps {v : Nat} : (State.msix s v).Keeps q n ↔ s.Keeps q n := by
  simp [State.msix, ↓upd_keeps, ↓ite_keeps, ↓res_ite_keeps, ↓ite_keeps_fst]

@[simp] theorem State.hubEvent_keeps : (State.hubEvent s).Keeps q n ↔ s.Keeps q n := by
  simp [State.hubEvent, ↓upd_keeps, ↓ite_keeps, ↓res_ite_keeps, ↓ite_keeps_fst]

@[simp] theorem State.raised_keeps {n' : EvName} {args : List Nat} : (State.raised s n' args).Keeps q n ↔ s.Keeps q n := by
  simp [State.raised, ↓upd_keeps, ↓ite_keeps, ↓res_ite_keeps, ↓ite_keeps_fst]

@[simp] theorem State.ibi_keeps {b : Nat} : (State.ibi s b).Keeps q n ↔ s.Keeps q n := by
  unfold State.ibi
  split
  · rfl
  · next hc =>
    simp only [Bool.or_eq_true, Bool.not_eq_true', not_or, Bool.not_eq_true] at hc
    have hb : b ∉ s.i3c.wait := by simpa using hc.2
    have e : (s.i3c.wait ++ [b]).Nodup ↔ s.i3c.wait.Nodup := by
      simp only [List.nodup_append, List.nodup_singleton, List.mem_singleton, true_and]
      exact ⟨fun h => h.1, fun h => ⟨h, fun a ha c hc x => hb (hc ▸ x ▸ ha)⟩⟩
    simp only [State.Keeps, State.memsWf, State.bounded_iff, State.sends, e]

@[simp] theorem State.pwrEvent_keeps {f : Fld} : (State.pwrEvent s f).Keeps q n ↔ s.Keeps q n := by
  simp [State.pwrEvent, ↓upd_keeps, ↓ite_keeps, ↓res_ite_keeps, ↓ite_keeps_fst]

@[simp] theorem State.putRec_keeps {n' : Nat} {b : List Byte} : (State.putRec s n' b).Keeps q n ↔ s.Keeps q n := by
  simp [State.putRec, ↓upd_keeps, ↓ite_keeps, ↓res_ite_keeps, ↓ite_keeps_fst]

@[simp] theorem State.mergeRec_keeps : (State.mergeRec s).Keeps q n ↔ s.Keeps q n := by
  simp [State.mergeRec, ↓upd_keeps, ↓ite_keeps, ↓res_ite_keeps, ↓ite_keeps_fst]

@[simp] theorem State.orderRec_keeps {b : List Byte} {i0 : Nat} {i1 : Nat} {i2 : Nat} : (State.orderRec s b i0 i1 i2).Keeps q n ↔ s.Keeps q n := by
  induction i0 generalizing s i1 i2 with
  | zero => rw [State.orderRec, State.putRec_keeps]
  | succ k ih =>
    rw [State.orderRec]
    cases s.recAfter b i1 i2 with
    | none => exact State.putRec_keeps
    | some p => exact ih.trans State.putRec_keeps

@[simp] theorem State.newestRec_keeps {n' : Nat} : (State.newestRec s n').Keeps q n ↔ s.Keeps q n := by
  simp [State.newestRec, ↓upd_keeps, ↓ite_keeps, ↓res_ite_keeps, ↓ite_keeps_fst]

@[simp] theorem State.placeRec_keeps {r : Rec} : (State.placeRec s r).Keeps q n ↔ s.Keeps q n := by
  simp only [State.placeRec]
  (repeat' split) <;> simp

@[simp] theorem State.countRec_keeps {sev : Nat} : (State.countRec s sev).Keeps q n ↔ s.Keeps q n := by
  simp [State.countRec, ↓upd_keeps, ↓ite_keeps, ↓res_ite_keeps, ↓ite_keeps_fst]

@[simp] theorem State.record_keeps {r : Rec} : (State.record s r).Keeps q n ↔ s.Keeps q n := by
  simp [State.record, ↓upd_keeps, ↓ite_keeps, ↓res_ite_keeps, ↓ite_keeps_fst]

@[simp] theorem State.setSite_keeps {site : Nat} {v : Nat} : (State.setSite s site v).Keeps q n ↔ s.Keeps q n := by
  simp [State.setSite, ↓upd_keeps, ↓ite_keeps, ↓res_ite_keeps, ↓ite_keeps_fst]

@[simp] theorem State.suspect_keeps {site : Nat} : (State.suspect s site).Keeps q n ↔ s.Keeps q n := by
  simp [State.suspect, ↓upd_keeps, ↓ite_keeps, ↓res_ite_keeps, ↓ite_keeps_fst]

@[simp] theorem State.suspectLater_keeps {site : Nat} : (State.suspectLater s site).Keeps q n ↔ s.Keeps q n := by
  simp only [State.suspectLater]
  (repeat' split) <;> simp

@[simp] theorem State.age_keeps {site : Nat} {kind : Nat} {what : Nat} : (State.age s site kind what).Keeps q n ↔ s.Keeps q n := by
  simp [State.age, ↓upd_keeps, ↓ite_keeps, ↓res_ite_keeps, ↓ite_keeps_fst]

@[simp] theorem State.actFree_keeps : (State.actFree s).Keeps q n ↔ s.Keeps q n := by
  simp [State.actFree, ↓upd_keeps, ↓ite_keeps, ↓res_ite_keeps, ↓ite_keeps_fst]

theorem State.setPend_keeps (h : s.Keeps q n) {p : List Act} (hp : (p.map (·.slot)).Nodup ∧ ∀ a ∈ p, a.slot < 1024) :
    (State.setPend s p).Keeps q n := by
  obtain ⟨h1, h2, w, h4⟩ := h
  rw [State.bounded_iff] at h4
  unfold State.setPend State.actFree
  simp only [State.wrs_keeps]
  exact ⟨h1, h2, w, State.bounded_iff.2 ⟨hp.1, hp.2, h4.2.2⟩⟩

/-- The pending actions in hand: their slots. -/
theorem State.pend_slots (h : s.Keeps q n) : (s.tb.pend.map (·.slot)).Nodup ∧ ∀ a ∈ s.tb.pend, a.slot < 1024 := by
  have k := State.bounded_iff.1 h.2.2.2
  exact ⟨k.1, k.2.1⟩

theorem State.setPend_filter_keeps (h : s.Keeps q n) {f : Act → Bool} : (State.setPend s (s.tb.pend.filter f)).Keeps q n := by
  have k := State.pend_slots h
  exact State.setPend_keeps h ⟨k.1.sublist (List.filter_sublist.map _), fun a ha => k.2 a (List.mem_of_mem_filter ha)⟩

theorem freeSlots_free {p : List Act} {k : Nat} (h : k ∈ freeSlots p) : k < 1024 ∧ k ∉ p.map (·.slot) := by
  unfold freeSlots at h
  simp only [List.mem_filter, List.mem_range, Bool.not_eq_true', List.any_eq_false, beq_iff_eq] at h
  refine ⟨h.1, fun hm => ?_⟩
  obtain ⟨a, ha, e⟩ := List.mem_map.1 hm
  exact h.2 a ha e

@[simp] theorem State.enterAct_keeps {tn type arg bank : Nat} : (State.enterAct s tn type arg bank).1.Keeps q n ↔ s.Keeps q n := by
  unfold State.enterAct
  split
  · rfl
  split
  · rfl
  · next k l hf =>
    dsimp only
    have hm : (k :: l).getD (Config.freeChoice s.free % (l.length + 1)) k ∈ freeSlots s.tb.pend := by
      rw [hf, List.getD_eq_getElem _ _ (by simpa using Nat.mod_lt _ (Nat.succ_pos _))]
      exact List.getElem_mem _
    obtain ⟨hlt, hn⟩ := freeSlots_free hm
    generalize (k :: l).getD (Config.freeChoice s.free % (l.length + 1)) k = m at hlt hn
    unfold State.setPend State.actFree State.draw
    simp only [State.wrs_keeps]
    have e : ((s.tb.pend ++ [(⟨m, tn, type, arg, bank⟩ : Act)]).map (·.slot)).Nodup ↔ (s.tb.pend.map (·.slot)).Nodup := by
      simp only [List.map_append, List.map_cons, List.map_nil, List.nodup_append, List.nodup_singleton, List.mem_singleton, true_and]
      exact ⟨fun h => h.1, fun h => ⟨h, fun a ha b hb x => hn (hb ▸ x ▸ ha)⟩⟩
    have e2 : (∀ a ∈ s.tb.pend ++ [(⟨m, tn, type, arg, bank⟩ : Act)], a.slot < 1024) ↔ ∀ a ∈ s.tb.pend, a.slot < 1024 := by
      simp only [List.mem_append, List.mem_singleton]
      exact ⟨fun h a ha => h a (.inl ha), fun h a ha => ha.elim (h a) (fun x => x ▸ hlt)⟩
    simp only [State.Keeps, State.memsWf, State.bounded_iff, e, e2]

@[simp] theorem State.addAct_keeps {tn : Nat} {type : Nat} {arg : Nat} {bank : Nat} : (State.addAct s tn type arg bank).1.Keeps q n ↔ s.Keeps q n := by
  simp [State.addAct, ↓upd_keeps, ↓ite_keeps, ↓res_ite_keeps, ↓ite_keeps_fst]

@[simp] theorem State.actResult_keeps {m : Nat} {code : Nat} {slot : Option Nat} : (State.actResult s m code slot).Keeps q n ↔ s.Keeps q n := by
  simp only [State.actResult]
  (repeat' split) <;> simp

theorem State.cancelActs_keeps (h : s.Keeps q n) {f : Act → Bool} : (State.cancelActs s f).Keeps q n := State.setPend_filter_keeps h

@[simp] theorem State.count_keeps {k : Nat} {n' : Nat} : (State.count s k n').Keeps q n ↔ s.Keeps q n := by
  simp [State.count, ↓upd_keeps, ↓ite_keeps, ↓res_ite_keeps, ↓ite_keeps_fst]

@[simp] theorem State.hbmRecord_keeps {sev : Nat} {kind : Nat} {st : Nat} {pc : Nat} {bank : Nat} {row : Nat} {burst : Nat} {lines : List Nat} {addr : Nat} : (State.hbmRecord s sev kind st pc bank row burst lines addr).Keeps q n ↔ s.Keeps q n := by
  simp [State.hbmRecord, ↓upd_keeps, ↓ite_keeps, ↓res_ite_keeps, ↓ite_keeps_fst]

@[simp] theorem State.ageTable_keeps {st : Nat} {a : Nat} {b : Nat} : (State.ageTable s st a b).Keeps q n ↔ s.Keeps q n := by
  simp [State.ageTable, ↓upd_keeps, ↓ite_keeps, ↓res_ite_keeps, ↓ite_keeps_fst]

@[simp] theorem State.rowRetired_keeps {st : Nat} {e : Retire} : (State.rowRetired s st e).Keeps q n ↔ s.Keeps q n := by
  simp [State.rowRetired, ↓upd_keeps, ↓ite_keeps, ↓res_ite_keeps, ↓ite_keeps_fst]

@[simp] theorem State.newTable_keeps {st : Nat} {old : List Retire} {new : List Retire} : (State.newTable s st old new).Keeps q n ↔ s.Keeps q n := by
  simp [State.newTable, ↓upd_keeps, ↓ite_keeps, ↓res_ite_keeps, ↓ite_keeps_fst]

@[simp] theorem State.hbmBuild_keeps {st : Nat} : (State.hbmBuild s st).Keeps q n ↔ s.Keeps q n := by
  simp [State.hbmBuild, ↓upd_keeps, ↓ite_keeps, ↓res_ite_keeps, ↓ite_keeps_fst]

@[simp] theorem State.hbmCandidate_keeps {st : Nat} {pc : Nat} {bank : Nat} {row : Nat} : (State.hbmCandidate s st pc bank row).Keeps q n ↔ s.Keeps q n := by
  simp [State.hbmCandidate, ↓upd_keeps, ↓ite_keeps, ↓res_ite_keeps, ↓ite_keeps_fst]

@[simp] theorem State.hbmErase_keeps {st : Nat} {pc : Nat} {line : Nat} : (State.hbmErase s st pc line).Keeps q n ↔ s.Keeps q n := by
  simp [State.hbmErase, ↓upd_keeps, ↓ite_keeps, ↓res_ite_keeps, ↓ite_keeps_fst]

@[simp] theorem State.hbmCharge_keeps {st : Nat} {pc : Nat} {lines : List Nat} : (State.hbmCharge s st pc lines).Keeps q n ↔ s.Keeps q n := by
  simp [State.hbmCharge, ↓upd_keeps, ↓ite_keeps, ↓res_ite_keeps, ↓ite_keeps_fst]

@[simp] theorem State.hbmHistory_keeps {st : Nat} {pc : Nat} {bank : Nat} {row : Nat} {burst : Nat} {offErased : Bool} {scrub : Bool} : (State.hbmHistory s st pc bank row burst offErased scrub).Keeps q n ↔ s.Keeps q n := by
  simp [State.hbmHistory, ↓upd_keeps, ↓ite_keeps, ↓res_ite_keeps, ↓ite_keeps_fst]

@[simp] theorem State.burstRead_keeps {pc : Nat} {o : Nat} {addr : Nat} {errs : List (Nat × Byte)} {scrub : Bool} : (State.burstRead s pc o addr errs scrub).1.Keeps q n ↔ s.Keeps q n := by
  simp only [State.burstRead]
  (repeat' split) <;> simp

@[simp] theorem State.burstPut_keeps (h : s.Keeps q n) {pc : Nat} {n' : Nat} {k : Nat} {data : List Byte} : (State.burstPut s pc n' k data).Keeps q n := by
  have c : (s.count (37 + 2 * (pc / 32)) n').Keeps q n := by simp [h]
  exact hbm_keeps c (m := s.hbm.write k data) (fun w => Mem.write_wf (show s.hbm.wf = true from w) _ _) rfl rfl rfl rfl rfl rfl rfl rfl rfl rfl

@[simp] theorem State.burstStore_keeps (h : s.Keeps q n) {pc : Nat} {o : Nat} {n' : Nat} {data : List Byte} : (State.burstStore s pc o n' data).Keeps q n := by
  unfold State.burstStore
  dsimp only
  split
  · exact State.burstPut_keeps h
  · exact State.burstPut_keeps (State.burstPut_keeps h)

@[simp] theorem State.busErrs_keeps {pc : Nat} {o : Nat} {addr : Nat} {errs : List BurstErr} {j : Nat} : (State.busErrs s pc o addr errs j).Keeps q n ↔ s.Keeps q n := by
  simp [State.busErrs, ↓upd_keeps, ↓ite_keeps, ↓res_ite_keeps, ↓ite_keeps_fst]

@[simp] theorem State.hbmRead_keeps {r : Region} {a : Nat} {n' : Nat} {addr : Nat} {errs : List BurstErr} : (State.hbmRead s r a n' addr errs).1.Keeps q n ↔ s.Keeps q n := by
  simp only [State.hbmRead]
  exact foldl_keeps_fst fun a x => by simp

@[simp] theorem State.hbmWrite_keeps (h : s.Keeps q n) {r : Region} {a : Nat} {addr : Nat} {data : List Byte} {errs : List BurstErr} : (State.hbmWrite s r a addr data errs).1.Keeps q n := by
  simp only [State.hbmWrite]
  refine foldl_keeps_fst_of h fun a x ha => ?_
  split
  · simp [ha]
  · split <;> (rename_i g; have e := congrArg Prod.fst g; dsimp only at e; subst e; simp [ha])

@[simp] theorem State.hbmAutoSwap_keeps {st : Nat} : (State.hbmAutoSwap s st).Keeps q n ↔ s.Keeps q n := by
  simp only [State.hbmAutoSwap]
  have e : (s.enterAct (s.tn + 2) 4 (1 + 256 * st) 3).1.Keeps q n ↔ s.Keeps q n := by simp
  split
  · split <;> (rename_i g; rw [g] at e; simpa using e)
  · rfl

@[simp] theorem State.logAccess_keeps {unmapped : Bool} {master : Nat} {target : Nat} {kind : Nat} {addr : Nat} : (State.logAccess s unmapped master target kind addr).Keeps q n ↔ s.Keeps q n := by
  simp [State.logAccess, ↓upd_keeps, ↓ite_keeps, ↓res_ite_keeps, ↓ite_keeps_fst]

@[simp] theorem State.logAbsent_keeps {a : Nat} : (State.logAbsent s a).Keeps q n ↔ s.Keeps q n := by
  simp only [State.logAbsent]
  (repeat' split) <;> simp

@[simp] theorem State.check_keeps {m : Master} {a : Nat} {n' : Nat} {kind : Nat} {byD : Bool} : (State.check s m a n' kind byD).1.Keeps q n ↔ s.Keeps q n := by
  simp [State.check, ↓upd_keeps, ↓ite_keeps, ↓res_ite_keeps, ↓ite_keeps_fst]

@[simp] theorem State.guard_keeps {m : Master} {off : Nat} {n' : Nat} : (State.guard s m off n').1.Keeps q n ↔ s.Keeps q n := by
  have e : (s.check m (0xFFFFFC000000 + off) n' 2 false).1.Keeps q n ↔ s.Keeps q n := by simp
  simp only [State.guard]
  split <;> (rename_i g; rw [g] at e; exact e)

@[simp] theorem State.guarded_keeps {m : Master} {off : Nat} (f : State → State) {n' : Nat} (hf : ∀ a , (f a ).Keeps q n ↔ State.Keeps q n a) : (State.guarded s m off f n').Keeps q n ↔ s.Keeps q n := by
  simp [State.guarded, ↓upd_keeps, ↓ite_keeps, ↓res_ite_keeps, ↓ite_keeps_fst, hf]

theorem State.guarded_keeps_of (h : s.Keeps q n) {m : Master} {off : Nat} (f : State → State) {n' : Nat} (hf : ∀ a , State.Keeps q n a → (f a ).Keeps q n) : (State.guarded s m off f n').Keeps q n := by
  unfold State.guarded
  repeat' (first | assumption | with_reducible apply hf | with_reducible apply foldl_keeps_of | rw [ok_keeps] | rw [next_keeps] | with_reducible intro _ | (split <;> try (rename_i e; have e2 := congrArg Prod.fst e; dsimp only at e2; subst e2)) | dsimp only | simp [h])

@[simp] theorem State.setRegWord_keeps {m : Master} {v : Dword} {i0 : Place} : (State.setRegWord s m v i0).Keeps q n ↔ s.Keeps q n := by
  simp only [State.setRegWord]
  (repeat' split) <;> simp

@[simp] theorem State.bridgeSend_keeps {b : Nat} {ftype : Nat} {vc : Nat} {credit : Nat} {payload : List Byte} {m : Option MeshFlit} : (State.bridgeSend s b ftype vc credit payload m).Keeps q n ↔ s.Keeps q n := by
  simp [State.bridgeSend, ↓upd_keeps, ↓ite_keeps, ↓res_ite_keeps, ↓ite_keeps_fst]

theorem State.bridgeNext_keeps {b : Nat} : ∀ u, State.bridgeNext s b = some u → (u.Keeps q n ↔ s.Keeps q n) := by
  intro u e
  unfold State.bridgeNext at e
  extract_lets x at e
  split at e
  · contradiction
  split at e
  · cases e; simp
  · cases e; simp
  · split at e
    · contradiction
    · obtain ⟨m, -, rfl⟩ := Option.map_eq_some_iff.1 e
      simp

@[simp] theorem State.bridgeSendN_keeps {b : Nat} {i0 : Nat} : (State.bridgeSendN s b i0).Keeps q n ↔ s.Keeps q n := by
  induction i0 generalizing s with
  | zero => rfl
  | succ k ih =>
    rw [State.bridgeSendN]
    split
    · rfl
    · next t e => exact ih.trans (State.bridgeNext_keeps _ e)

@[simp] theorem State.bridgePump_keeps {b : Nat} : (State.bridgePump s b).Keeps q n ↔ s.Keeps q n := by
  simp [State.bridgePump, ↓upd_keeps, ↓ite_keeps, ↓res_ite_keeps, ↓ite_keeps_fst]

@[simp] theorem State.meshGo_keeps {here : Node} {m : MeshFlit} : (State.meshGo s here m).Keeps q n ↔ s.Keeps q n := by
  simp only [State.meshGo]
  (repeat' split) <;> simp

@[simp] theorem State.carry_keeps {src : Node} {dst : Node} {vc : Nat} {packet : List Byte} {n' : Nat} : (State.carry s src dst vc packet n').Keeps q n ↔ s.Keeps q n := by
  simp [State.carry, ↓upd_keeps, ↓ite_keeps, ↓res_ite_keeps, ↓ite_keeps_fst]

@[simp] theorem State.control_keeps {src : Node} {dst : Node} {kind : Nat} {arg : Nat} : (State.control s src dst kind arg).Keeps q n ↔ s.Keeps q n := by
  simp [State.control, ↓upd_keeps, ↓ite_keeps, ↓res_ite_keeps, ↓ite_keeps_fst]

@[simp] theorem State.broadcast_keeps {cols : List Nat} {kind : Nat} {arg : Nat} : (State.broadcast s cols kind arg).Keeps q n ↔ s.Keeps q n := by
  simp [State.broadcast, ↓upd_keeps, ↓ite_keeps, ↓res_ite_keeps, ↓ite_keeps_fst]

theorem State.takeDue_keeps {type : Nat} {f : Act → Bool} : ∀ u, (State.takeDue s type f) = some u → (u.2.Keeps q n ↔ s.Keeps q n) := by
  intro u e
  simp only [State.takeDue] at e
  (repeat' split at e) <;> (try contradiction) <;> simp only [Option.some.injEq] at e <;> subst e <;> simp

@[simp] theorem State.hubCarry_keeps {write : Bool} {a : Nat} {data : List Byte} : (State.hubCarry s write a data).Keeps q n ↔ s.Keeps q n := by
  simp [State.hubCarry, ↓upd_keeps, ↓ite_keeps, ↓res_ite_keeps, ↓ite_keeps_fst]

@[simp] theorem State.sendCtl_keeps {p : Nat} {ftype : Nat} {ack : Nat} {vc : Nat} {credits : Nat} : (State.sendCtl s p ftype ack vc credits).Keeps q n ↔ s.Keeps q n := by
  simp [State.sendCtl, ↓upd_keeps, ↓ite_keeps, ↓res_ite_keeps, ↓ite_keeps_fst]

@[simp] theorem State.freed_keeps {q' : Nat} {b : List Byte} : (State.freed s q' b).Keeps q n ↔ s.Keeps q n := by
  simp only [State.freed]
  (repeat' split) <;> simp

@[simp] theorem State.egressDrain_keeps {p : Nat} : (State.egressDrain s p).Keeps q n ↔ s.Keeps q n := by
  simp [State.egressDrain, ↓upd_keeps, ↓ite_keeps, ↓res_ite_keeps, ↓ite_keeps_fst]

@[simp] theorem State.egressPut_keeps {p : Nat} {b : List Byte} : (State.egressPut s p b).Keeps q n ↔ s.Keeps q n := by
  simp [State.egressPut, ↓upd_keeps, ↓ite_keeps, ↓res_ite_keeps, ↓ite_keeps_fst]

@[simp] theorem State.holdPkt_keeps {b : List Byte} : (State.holdPkt s b).Keeps q n ↔ s.Keeps q n := by
  simp [State.holdPkt, ↓upd_keeps, ↓ite_keeps, ↓res_ite_keeps, ↓ite_keeps_fst]

@[simp] theorem State.countDrop_keeps {p : Nat} {reason : Nat} : (State.countDrop s p reason).Keeps q n ↔ s.Keeps q n := by
  simp [State.countDrop, ↓upd_keeps, ↓ite_keeps, ↓res_ite_keeps, ↓ite_keeps_fst]

@[simp] theorem State.unreach_keeps {b : List Byte} {reason : Nat} : (State.unreach s b reason).Keeps q n ↔ s.Keeps q n := by
  simp only [State.unreach]
  (repeat' split) <;> simp

@[simp] theorem State.dropPkt_keeps {p : Nat} {reason : Nat} {b : List Byte} : (State.dropPkt s p reason b).Keeps q n ↔ s.Keeps q n := by
  simp [State.dropPkt, ↓upd_keeps, ↓ite_keeps, ↓res_ite_keeps, ↓ite_keeps_fst]

@[simp] theorem State.sendPkt_keeps {b : List Byte} : (State.sendPkt s b).Keeps q n ↔ s.Keeps q n := by
  simp only [State.sendPkt]
  (repeat' split) <;> simp

@[simp] theorem State.carryReq_keeps {r : Req} {n' : Nat} {vc : Nat} {packet : List Byte} {payload : Nat} : (State.carryReq s r n' vc packet payload).Keeps q n ↔ s.Keeps q n := by
  simp [State.carryReq, ↓upd_keeps, ↓ite_keeps, ↓res_ite_keeps, ↓ite_keeps_fst]

@[simp] theorem State.carryOut_keeps {r : Req} {n' : Nat} {vc : Nat} {packet : List Byte} {payload : Nat} : (State.carryOut s r n' vc packet payload).Keeps q n ↔ s.Keeps q n := by
  simp [State.carryOut, ↓upd_keeps, ↓ite_keeps, ↓res_ite_keeps, ↓ite_keeps_fst]

@[simp] theorem State.carryIn_keeps {r : Req} {n' : Nat} {vc : Nat} {packet : List Byte} {payload : Nat} : (State.carryIn s r n' vc packet payload).Keeps q n ↔ s.Keeps q n := by
  simp [State.carryIn, ↓upd_keeps, ↓ite_keeps, ↓res_ite_keeps, ↓ite_keeps_fst]

@[simp] theorem State.carryResp_keeps {r : Req} {n' : Nat} {vc : Nat} {packet : List Byte} {payload : Nat} : (State.carryResp s r n' vc packet payload).Keeps q n ↔ s.Keeps q n := by
  simp [State.carryResp, ↓upd_keeps, ↓ite_keeps, ↓res_ite_keeps, ↓ite_keeps_fst]

@[simp] theorem State.sendWrite_keeps {r : Req} {lc : Nat} {data : List Byte} : (State.sendWrite s r lc data).Keeps q n ↔ s.Keeps q n := by
  simp [State.sendWrite, ↓upd_keeps, ↓ite_keeps, ↓res_ite_keeps, ↓ite_keeps_fst]

@[simp] theorem State.sendRead_keeps {r : Req} {n' : Nat} : (State.sendRead s r n').Keeps q n ↔ s.Keeps q n := by
  simp [State.sendRead, ↓upd_keeps, ↓ite_keeps, ↓res_ite_keeps, ↓ite_keeps_fst]

@[simp] theorem State.sendSignal_keeps {r : Req} {ctr : Nat} {n' : Nat} : (State.sendSignal s r ctr n').Keeps q n ↔ s.Keeps q n := by
  simp [State.sendSignal, ↓upd_keeps, ↓ite_keeps, ↓res_ite_keeps, ↓ite_keeps_fst]

@[simp] theorem State.sendResp_keeps {r : Req} {st : Status} {data : List Byte} {cacheable : Bool} : (State.sendResp s r st data cacheable).Keeps q n ↔ s.Keeps q n := by
  simp [State.sendResp, ↓upd_keeps, ↓ite_keeps, ↓res_ite_keeps, ↓ite_keeps_fst]

@[simp] theorem State.sendAck_keeps {r : Req} {st : Status} {lc : Nat} {n' : Nat} : (State.sendAck s r st lc n').Keeps q n ↔ s.Keeps q n := by
  simp [State.sendAck, ↓upd_keeps, ↓ite_keeps, ↓res_ite_keeps, ↓ite_keeps_fst]

@[simp] theorem State.sendSigStatus_keeps {r : Req} {st : Status} : (State.sendSigStatus s r st).Keeps q n ↔ s.Keeps q n := by
  simp [State.sendSigStatus, ↓upd_keeps, ↓ite_keeps, ↓res_ite_keeps, ↓ite_keeps_fst]

@[simp] theorem State.event_keeps {t : Nat} {e : Nat} {code : Nat} {arg : Nat} : (State.event s t e code arg).Keeps q n ↔ s.Keeps q n := by
  simp [State.event, ↓upd_keeps, ↓ite_keeps, ↓res_ite_keeps, ↓ite_keeps_fst]

@[simp] theorem State.endCycle_keeps {t : Nat} : (State.endCycle s t).Keeps q n ↔ s.Keeps q n := by
  simp only [State.endCycle]
  (repeat' split) <;> simp

@[simp] theorem State.sync_keeps {t : Nat} {r : Nat} {f : Tile → Tile} : (State.sync s t r f).Keeps q n ↔ s.Keeps q n := by
  simp [State.sync, ↓upd_keeps, ↓ite_keeps, ↓res_ite_keeps, ↓ite_keeps_fst]

@[simp] theorem State.signalLocal_keeps {t : Nat} {step : Nat} {c : Nat} {n' : Nat} : (State.signalLocal s t step c n').Keeps q n ↔ s.Keeps q n := by
  simp [State.signalLocal, ↓upd_keeps, ↓ite_keeps, ↓res_ite_keeps, ↓ite_keeps_fst]

@[simp] theorem State.signalRemote_keeps {src : Node} {t : Nat} {c : Nat} {n' : Nat} : (State.signalRemote s src t c n').Keeps q n ↔ s.Keeps q n := by
  simp [State.signalRemote, ↓upd_keeps, ↓ite_keeps, ↓res_ite_keeps, ↓ite_keeps_fst]

@[simp] theorem State.land_keeps {t : Nat} {lc : Nat} {n' : Nat} : (State.land s t lc n').Keeps q n ↔ s.Keeps q n := by
  simp [State.land, ↓upd_keeps, ↓ite_keeps, ↓res_ite_keeps, ↓ite_keeps_fst]

@[simp] theorem State.countSpad_keeps {t : Nat} {rw : Nat} {n' : Nat} : (State.countSpad s t rw n').Keeps q n ↔ s.Keeps q n := by
  simp [State.countSpad, ↓upd_keeps, ↓ite_keeps, ↓res_ite_keeps, ↓ite_keeps_fst]

@[simp] theorem State.spadWrite_keeps {t : Nat} {off : Nat} {data : List Byte} : (State.spadWrite s t off data).Keeps q n ↔ s.Keeps q n := by
  simp [State.spadWrite, ↓upd_keeps, ↓ite_keeps, ↓res_ite_keeps, ↓ite_keeps_fst]

@[simp] theorem State.spadCorrected_keeps {t : Nat} {o : Nat} : (State.spadCorrected s t o).Keeps q n ↔ s.Keeps q n := by
  simp [State.spadCorrected, ↓upd_keeps, ↓ite_keeps, ↓res_ite_keeps, ↓ite_keeps_fst]

@[simp] theorem State.eccNoted_keeps {t : Nat} {e : Ecc} {a : Nat} {n' : Nat} : (State.eccNoted s t e a n').Keeps q n ↔ s.Keeps q n := by
  simp only [State.eccNoted]
  (repeat' split) <;> simp

@[simp] theorem State.drainLand_keeps {t : Nat} {now : List (Nat × List Byte)} {rest : List (Nat × List Byte)} : (State.drainLand s t now rest).Keeps q n ↔ s.Keeps q n := by
  simp [State.drainLand, ↓upd_keeps, ↓ite_keeps, ↓res_ite_keeps, ↓ite_keeps_fst]

@[simp] theorem State.drainAll_keeps {t : Nat} : (State.drainAll s t).Keeps q n ↔ s.Keeps q n := by
  simp [State.drainAll, ↓upd_keeps, ↓ite_keeps, ↓res_ite_keeps, ↓ite_keeps_fst]

@[simp] theorem State.drainSome_keeps {t : Nat} : (State.drainSome s t).Keeps q n ↔ s.Keeps q n := by
  simp [State.drainSome, ↓upd_keeps, ↓ite_keeps, ↓res_ite_keeps, ↓ite_keeps_fst]

@[simp] theorem State.spadRead_keeps {t : Nat} {o : Nat} {n' : Nat} {errs : List BurstErr} : (State.spadRead s t o n' errs).1.Keeps q n ↔ s.Keeps q n := by
  simp only [State.spadRead]
  (repeat' split) <;> simp

@[simp] theorem State.countMesh_keeps {t : Nat} {n' : Nat} : (State.countMesh s t n').Keeps q n ↔ s.Keeps q n := by
  simp [State.countMesh, ↓upd_keeps, ↓ite_keeps, ↓res_ite_keeps, ↓ite_keeps_fst]

@[simp] theorem State.sendLoad_keeps {t : Nat} {l : Load} : (State.sendLoad s t l).Keeps q n ↔ s.Keeps q n := by
  simp [State.sendLoad, ↓upd_keeps, ↓ite_keeps, ↓res_ite_keeps, ↓ite_keeps_fst]

@[simp] theorem State.issueWrite_keeps {t : Nat} {e : Engine} {pc : Nat} {addr : Nat} {lc : Nat} {data : List Byte} {wait : List Nat} : (State.issueWrite s t e pc addr lc data wait).1.Keeps q n ↔ s.Keeps q n := by
  simp [State.issueWrite, ↓upd_keeps, ↓ite_keeps, ↓res_ite_keeps, ↓ite_keeps_fst]

@[simp] theorem State.unhold_keeps {t : Nat} {g : Nat} : (State.unhold s t g).Keeps q n ↔ s.Keeps q n := by
  simp [State.unhold, ↓upd_keeps, ↓ite_keeps, ↓res_ite_keeps, ↓ite_keeps_fst]

@[simp] theorem State.abortTile_keeps {t : Nat} {cause : Nat} {origin : Nat} : (State.abortTile s t cause origin).Keeps q n ↔ s.Keeps q n := by
  simp [State.abortTile, ↓upd_keeps, ↓ite_keeps, ↓res_ite_keeps, ↓ite_keeps_fst]

@[simp] theorem State.tileFault_keeps {t : Nat} {e : Engine} {cause : Nat} {pc : Nat} {trap : Nat} {spadEcc : Option Nat} : (State.tileFault s t e cause pc trap spadEcc).Keeps q n ↔ s.Keeps q n := by
  simp only [State.tileFault]
  (repeat' split) <;> simp

@[simp] theorem State.abortBay_keeps {b : Nat} {cause : Nat} {origin : Nat} : (State.abortBay s b cause origin).Keeps q n ↔ s.Keeps q n := by
  simp [State.abortBay, ↓upd_keeps, ↓ite_keeps, ↓res_ite_keeps, ↓ite_keeps_fst]

@[simp] theorem State.pollFence_keeps {t : Nat} : (State.pollFence s t).Keeps q n ↔ s.Keeps q n := by
  simp only [State.pollFence]
  (repeat' split) <;> simp

@[simp] theorem State.startHead_keeps {t : Nat} {e : Nat} {c : Cmd} : (State.startHead s t e c).Keeps q n ↔ s.Keeps q n := by
  simp [State.startHead, ↓upd_keeps, ↓ite_keeps, ↓res_ite_keeps, ↓ite_keeps_fst]

@[simp] theorem State.completeCmd_keeps {t : Nat} {e : Nat} {c : Cmd} : (State.completeCmd s t e c).Keeps q n ↔ s.Keeps q n := by
  simp [State.completeCmd, ↓upd_keeps, ↓ite_keeps, ↓res_ite_keeps, ↓ite_keeps_fst]

@[simp] theorem State.portRecord_keeps {sev : Nat} {cls : Nat} {kind : Nat} {p : Nat} : (State.portRecord s sev cls kind p).Keeps q n ↔ s.Keeps q n := by
  simp [State.portRecord, ↓upd_keeps, ↓ite_keeps, ↓res_ite_keeps, ↓ite_keeps_fst]

@[simp] theorem State.dropStored_keeps {p : Nat} {b : List Byte} : (State.dropStored s p b).Keeps q n ↔ s.Keeps q n := by
  simp [State.dropStored, ↓upd_keeps, ↓ite_keeps, ↓res_ite_keeps, ↓ite_keeps_fst]

@[simp] theorem State.portDrop_keeps {p : Nat} : (State.portDrop s p).Keeps q n ↔ s.Keeps q n := by
  simp [State.portDrop, ↓upd_keeps, ↓ite_keeps, ↓res_ite_keeps, ↓ite_keeps_fst]

@[simp] theorem State.portDown_keeps {p : Nat} : (State.portDown s p).Keeps q n ↔ s.Keeps q n := by
  simp [State.portDown, ↓upd_keeps, ↓ite_keeps, ↓res_ite_keeps, ↓ite_keeps_fst]

@[simp] theorem State.portRetrain_keeps {p : Nat} : (State.portRetrain s p).Keeps q n ↔ s.Keeps q n := by
  simp [State.portRetrain, ↓upd_keeps, ↓ite_keeps, ↓res_ite_keeps, ↓ite_keeps_fst]

@[simp] theorem State.portTrain_keeps {p : Nat} : (State.portTrain s p).Keeps q n ↔ s.Keeps q n := by
  simp [State.portTrain, ↓upd_keeps, ↓ite_keeps, ↓res_ite_keeps, ↓ite_keeps_fst]

@[simp] theorem State.requestRetrain_keeps {p : Nat} : (State.requestRetrain s p).Keeps q n ↔ s.Keeps q n := by
  simp [State.requestRetrain, ↓upd_keeps, ↓ite_keeps, ↓res_ite_keeps, ↓ite_keeps_fst]

@[simp] theorem State.markLane_keeps {p : Nat} {l : Nat} : (State.markLane s p l).Keeps q n ↔ s.Keeps q n := by
  simp [State.markLane, ↓upd_keeps, ↓ite_keeps, ↓res_ite_keeps, ↓ite_keeps_fst]

@[simp] theorem State.applyWidth_keeps {p : Nat} : (State.applyWidth s p).Keeps q n ↔ s.Keeps q n := by
  simp [State.applyWidth, ↓upd_keeps, ↓ite_keeps, ↓res_ite_keeps, ↓ite_keeps_fst]

@[simp] theorem State.takePkt_keeps {p : Nat} {b : List Byte} : (State.takePkt s p b).Keeps q n ↔ s.Keeps q n := by
  simp [State.takePkt, ↓upd_keeps, ↓ite_keeps, ↓res_ite_keeps, ↓ite_keeps_fst]

@[simp] theorem State.logTransit_keeps {p : Nat} {b : List Byte} : (State.logTransit s p b).Keeps q n ↔ s.Keeps q n := by
  simp [State.logTransit, ↓upd_keeps, ↓ite_keeps, ↓res_ite_keeps, ↓ite_keeps_fst]

@[simp] theorem State.badPkt_keeps {p : Nat} : (State.badPkt s p).Keeps q n ↔ s.Keeps q n := by
  simp [State.badPkt, ↓upd_keeps, ↓ite_keeps, ↓res_ite_keeps, ↓ite_keeps_fst]

@[simp] theorem State.arrive_keeps {p : Nat} {b : List Byte} : (State.arrive s p b).Keeps q n ↔ s.Keeps q n := by
  simp [State.arrive, ↓upd_keeps, ↓ite_keeps, ↓res_ite_keeps, ↓ite_keeps_fst]

@[simp] theorem State.resend_keeps {p : Nat} {seq : Nat} : (State.resend s p seq).Keeps q n ↔ s.Keeps q n := by
  simp [State.resend, ↓upd_keeps, ↓ite_keeps, ↓res_ite_keeps, ↓ite_keeps_fst]

@[simp] theorem State.flitFail_keeps {p : Nat} : (State.flitFail s p).Keeps q n ↔ s.Keeps q n := by
  simp [State.flitFail, ↓upd_keeps, ↓ite_keeps, ↓res_ite_keeps, ↓ite_keeps_fst]

@[simp] theorem State.arriveOne_keeps {p : Nat} {ack : Nat} {b : List Byte} : (State.arriveOne s p ack b).Keeps q n ↔ s.Keeps q n := by
  simp only [State.arriveOne]
  (repeat' split) <;> simp

@[simp] theorem State.arriveAll_keeps {p : Nat} {l : List (List Byte)} : (State.arriveAll s p l).Keeps q n ↔ s.Keeps q n := by
  simp [State.arriveAll, ↓upd_keeps, ↓ite_keeps, ↓res_ite_keeps, ↓ite_keeps_fst]

@[simp] theorem State.dataFlit_keeps {p : Nat} {fl : List Byte} : (State.dataFlit s p fl).Keeps q n ↔ s.Keeps q n := by
  simp [State.dataFlit, ↓upd_keeps, ↓ite_keeps, ↓res_ite_keeps, ↓ite_keeps_fst]

@[simp] theorem State.helloFlit_keeps {p : Nat} {fl : List Byte} : (State.helloFlit s p fl).Keeps q n ↔ s.Keeps q n := by
  simp [State.helloFlit, ↓upd_keeps, ↓ite_keeps, ↓res_ite_keeps, ↓ite_keeps_fst]

@[simp] theorem State.fecRecord_keeps {p : Nat} {fixed : Bool} : (State.fecRecord s p fixed).Keeps q n ↔ s.Keeps q n := by
  simp [State.fecRecord, ↓upd_keeps, ↓ite_keeps, ↓res_ite_keeps, ↓ite_keeps_fst]

@[simp] theorem execLinkFlit_keeps (h : s.Keeps q n) {p : Fin 32} {flit : List Byte} {fecBad : Bool} {fecFixed : Nat} : Res.Keeps q n (execLinkFlit p flit fecBad s fecFixed) := by
  simp [execLinkFlit, ↓upd_keeps, ↓ite_keeps, ↓res_ite_keeps, ↓ite_keeps_fst, h]

@[simp] theorem execEgressStallDrop_keeps (h : s.Keeps q n) {p : Fin 32} {vc : BitVec 3} : Res.Keeps q n (execEgressStallDrop p vc s) := by
  simp only [execEgressStallDrop]
  (repeat' split) <;> simp [h]

@[simp] theorem execLinkTrained_keeps (h : s.Keeps q n) {p : Fin 32} : Res.Keeps q n (execLinkTrained p s) := by
  simp [execLinkTrained, ↓upd_keeps, ↓ite_keeps, ↓res_ite_keeps, ↓ite_keeps_fst, h]

@[simp] theorem execLinkTrainTimeout_keeps (h : s.Keeps q n) {p : Fin 32} : Res.Keeps q n (execLinkTrainTimeout p s) := by
  simp [execLinkTrainTimeout, ↓upd_keeps, ↓ite_keeps, ↓res_ite_keeps, ↓ite_keeps_fst, h]

@[simp] theorem execLinkRetrainTimeout_keeps (h : s.Keeps q n) {p : Fin 32} : Res.Keeps q n (execLinkRetrainTimeout p s) := by
  simp [execLinkRetrainTimeout, ↓upd_keeps, ↓ite_keeps, ↓res_ite_keeps, ↓ite_keeps_fst, h]

@[simp] theorem execLaneLockLoss_keeps (h : s.Keeps q n) {p : Fin 32} {lane : Fin 9} : Res.Keeps q n (execLaneLockLoss p lane s) := by
  simp [execLaneLockLoss, ↓upd_keeps, ↓ite_keeps, ↓res_ite_keeps, ↓ite_keeps_fst, h]

@[simp] theorem execLaneBerCheck_keeps (h : s.Keeps q n) {p : Fin 32} {lane : Fin 9} {above : Bool} : Res.Keeps q n (execLaneBerCheck p lane above s) := by
  simp [execLaneBerCheck, ↓upd_keeps, ↓ite_keeps, ↓res_ite_keeps, ↓ite_keeps_fst, h]

@[simp] theorem execOPortLockLoss_keeps (h : s.Keeps q n) {p : Fin 32} : Res.Keeps q n (execOPortLockLoss p s) := by
  simp [execOPortLockLoss, ↓upd_keeps, ↓ite_keeps, ↓res_ite_keeps, ↓ite_keeps_fst, h]

@[simp] theorem execHello_keeps (h : s.Keeps q n) {p : Fin 32} {src : BitVec 16} {digest : Dword} : Res.Keeps q n (execHello p src digest s) := by
  simp [execHello, ↓upd_keeps, ↓ite_keeps, ↓res_ite_keeps, ↓ite_keeps_fst, h]

@[simp] theorem execMembership_keeps (h : s.Keeps q n) {p : Fin 32} {src : BitVec 16} {period : Dword} {digest : Dword} {fenced : Bool} {hops : Byte} : Res.Keeps q n (execMembership p src period digest fenced hops s) := by
  simp [execMembership, ↓upd_keeps, ↓ite_keeps, ↓res_ite_keeps, ↓ite_keeps_fst, h]

@[simp] theorem execLnkRetrain_keeps (h : s.Keeps q n) {m : Master} {p : Fin 32} : Res.Keeps q n (execLnkRetrain m p s) := by
  simp [execLnkRetrain, ↓upd_keeps, ↓ite_keeps, ↓res_ite_keeps, ↓ite_keeps_fst, h]

@[simp] theorem execLnkDisable_keeps (h : s.Keeps q n) {m : Master} {p : Fin 32} : Res.Keeps q n (execLnkDisable m p s) := by
  simp [execLnkDisable, ↓upd_keeps, ↓ite_keeps, ↓res_ite_keeps, ↓ite_keeps_fst, h]

@[simp] theorem execLnkEnable_keeps (h : s.Keeps q n) {m : Master} {p : Fin 32} : Res.Keeps q n (execLnkEnable m p s) := by
  simp [execLnkEnable, ↓upd_keeps, ↓ite_keeps, ↓res_ite_keeps, ↓ite_keeps_fst, h]

@[simp] theorem State.hostRead_keeps {bus : Nat} {n' : Nat} {ext : Option (List Byte)} : (State.hostRead s bus n' ext).1.Keeps q n ↔ s.Keeps q n := by
  simp only [State.hostRead]
  (repeat' split) <;> simp

@[simp] theorem State.loftFail_keeps {code : Nat} : (State.loftFail s code).Keeps q n ↔ s.Keeps q n := by
  simp [State.loftFail, ↓upd_keeps, ↓ite_keeps, ↓res_ite_keeps, ↓ite_keeps_fst]

@[simp] theorem State.loftRead_keeps {bus : Nat} {n' : Nat} {ext : Option (List Byte)} : (State.loftRead s bus n' ext).1.Keeps q n ↔ s.Keeps q n := by
  simp only [State.loftRead]
  (repeat' split) <;> simp

@[simp] theorem State.hostWrite_keeps {bus : Nat} {data : List Byte} {confirm : Bool} : (State.hostWrite s bus data confirm).1.Keeps q n ↔ s.Keeps q n := by
  simp [State.hostWrite, ↓upd_keeps, ↓ite_keeps, ↓res_ite_keeps, ↓ite_keeps_fst]

@[simp] theorem State.hubWrite_keeps (h : s.Keeps q n) {space : Nat} {addr : Nat} {data : List Byte} {confirm : Bool} : (State.hubWrite s space addr data confirm).1.Keeps q n := by
  unfold State.hubWrite
  repeat' (first | assumption | with_reducible apply State.hbmWrite_keeps | with_reducible apply foldl_keeps_of | rw [ok_keeps] | rw [next_keeps] | with_reducible intro _ | (split <;> try (rename_i e; have e2 := congrArg Prod.fst e; dsimp only at e2; subst e2)) | dsimp only | simp [h])

end Sys2Proof.Machine
end

