-- ==== Sys2Proof/Laws/KeepsQueues.lean ====
section
/-! SUPPORT. What the functions of the front end, the package, the reductions, the grants keep (KeepsBase). -/

set_option linter.all false

namespace Sys2Proof.Machine

variable {q : List Instr} {n : Nat} {s : State}

@[simp] theorem State.qState_keeps {q' : Nat} {st : Nat} : (State.qState s q' st).Keeps q n ↔ s.Keeps q n := by
  simp [State.qState, ↓upd_keeps, ↓ite_keeps, ↓res_ite_keeps, ↓ite_keeps_fst]

@[simp] theorem State.startPkt_keeps {q' : Nat} {k : Nat} {p : Pkt} : (State.startPkt s q' k p).Keeps q n ↔ s.Keeps q n := by
  simp [State.startPkt, ↓upd_keeps, ↓ite_keeps, ↓res_ite_keeps, ↓ite_keeps_fst]

@[simp] theorem State.timing_keeps {q' : Nat} : (State.timing s q').Keeps q n ↔ s.Keeps q n := by
  simp only [State.timing]
  (repeat' split) <;> simp

@[simp] theorem State.showWait_keeps {q' : Nat} : (State.showWait s q').Keeps q n ↔ s.Keeps q n := by
  simp [State.showWait, ↓upd_keeps, ↓ite_keeps, ↓res_ite_keeps, ↓ite_keeps_fst]

@[simp] theorem State.redDropped_keeps {k : Nat} {round : Nat} : (State.redDropped s k round).Keeps q n ↔ s.Keeps q n := by
  simp [State.redDropped, ↓upd_keeps, ↓ite_keeps, ↓res_ite_keeps, ↓ite_keeps_fst]

@[simp] theorem State.stationEmpty_keeps {k : Nat} : (State.stationEmpty s k).Keeps q n ↔ s.Keeps q n := by
  simp [State.stationEmpty, ↓upd_keeps, ↓ite_keeps, ↓res_ite_keeps, ↓ite_keeps_fst]

@[simp] theorem State.stationsOff_keeps {b : Nat} : (State.stationsOff s b).Keeps q n ↔ s.Keeps q n := by
  simp [State.stationsOff, ↓upd_keeps, ↓ite_keeps, ↓res_ite_keeps, ↓ite_keeps_fst]

@[simp] theorem State.dumpAbort_keeps {b : Nat} : (State.dumpAbort s b).Keeps q n ↔ s.Keeps q n := by
  simp [State.dumpAbort, ↓upd_keeps, ↓ite_keeps, ↓res_ite_keeps, ↓ite_keeps_fst]

@[simp] theorem State.hubAbort_keeps {b : Nat} {cause : Nat} {origin : Nat} : (State.hubAbort s b cause origin).Keeps q n ↔ s.Keeps q n := by
  simp [State.hubAbort, ↓upd_keeps, ↓ite_keeps, ↓res_ite_keeps, ↓ite_keeps_fst]

@[simp] theorem State.fenceTo_keeps (h : s.Keeps q n) {q' : Nat} {code : Nat} {space : Nat} {addr : Nat} {value : Nat} : (State.fenceTo s q' code space addr value).1.Keeps q n := by
  simp [State.fenceTo, ↓upd_keeps, ↓ite_keeps, ↓res_ite_keeps, ↓ite_keeps_fst, h]

@[simp] theorem State.completionFence_keeps (h : s.Keeps q n) {q' : Nat} {code : Nat} {value : Nat} : (State.completionFence s q' code value).1.Keeps q n := by
  simp [State.completionFence, ↓upd_keeps, ↓ite_keeps, ↓res_ite_keeps, ↓ite_keeps_fst, h]

@[simp] theorem State.qMsix_keeps {q' : Nat} : (State.qMsix s q').Keeps q n ↔ s.Keeps q n := by
  simp [State.qMsix, ↓upd_keeps, ↓ite_keeps, ↓res_ite_keeps, ↓ite_keeps_fst]

@[simp] theorem State.guiltyEnd_keeps {q' : Nat} : (State.guiltyEnd s q').Keeps q n ↔ s.Keeps q n := by
  simp [State.guiltyEnd, ↓upd_keeps, ↓ite_keeps, ↓res_ite_keeps, ↓ite_keeps_fst]

@[simp] theorem State.guiltyStep_keeps (h : s.Keeps q n) {q' : Nat} : (State.guiltyStep s q').Keeps q n := by
  unfold State.guiltyStep
  repeat' (first | assumption | with_reducible apply State.completionFence_keeps | with_reducible apply foldl_keeps_of | rw [ok_keeps] | rw [next_keeps] | with_reducible intro _ | (split <;> try (rename_i e; have e2 := congrArg Prod.fst e; dsimp only at e2; subst e2)) | dsimp only | simp [h])

@[simp] theorem State.cancelWork_keeps {q' : Nat} : (State.cancelWork s q').Keeps q n ↔ s.Keeps q n := by
  simp [State.cancelWork, ↓upd_keeps, ↓ite_keeps, ↓res_ite_keeps, ↓ite_keeps_fst]

@[simp] theorem State.laterCause_keeps {q' : Nat} {cause : Nat} {origin : Nat} : (State.laterCause s q' cause origin).Keeps q n ↔ s.Keeps q n := by
  simp [State.laterCause, ↓upd_keeps, ↓ite_keeps, ↓res_ite_keeps, ↓ite_keeps_fst]

@[simp] theorem State.bayCause_keeps {b : Nat} {cause : Nat} {origin : Nat} : (State.bayCause s b cause origin).Keeps q n ↔ s.Keeps q n := by
  simp only [State.bayCause]
  (repeat' split) <;> simp

@[simp] theorem State.markGuilty_keeps (h : s.Keeps q n) {q' : Nat} {cause : Nat} {origin : Nat} : (State.markGuilty s q' cause origin).Keeps q n := by
  simp [State.markGuilty, ↓upd_keeps, ↓ite_keeps, ↓res_ite_keeps, ↓ite_keeps_fst, h]

@[simp] theorem State.writeFault_keeps (h : s.Keeps q n) {q' : Nat} : (State.writeFault s q').Keeps q n := by
  simp [State.writeFault, ↓upd_keeps, ↓ite_keeps, ↓res_ite_keeps, ↓ite_keeps_fst, h]

@[simp] theorem State.retireOne_keeps (h : s.Keeps q n) {q' : Nat} {p : Pkt} : (State.retireOne s q' p).Keeps q n := by
  unfold State.retireOne
  repeat' (first | assumption | with_reducible apply State.completionFence_keeps | with_reducible apply State.fence_keeps | with_reducible apply State.writeFault_keeps | with_reducible apply foldl_keeps_of | rw [ok_keeps] | rw [next_keeps] | with_reducible intro _ | (split <;> try (rename_i e; have e2 := congrArg Prod.fst e; dsimp only at e2; subst e2)) | dsimp only | simp [h])

@[simp] theorem State.retireAll_keeps (h : s.Keeps q n) {q' : Nat} {i0 : Nat} : (State.retireAll s q' i0).Keeps q n := by
  induction i0 generalizing s with
  | zero => exact h
  | succ k ih =>
    rw [State.retireAll]
    split
    · exact h
    · split
      · exact ih (State.retireOne_keeps h)
      · exact h

@[simp] theorem State.blockWalk_keeps (h : s.Keeps q n) {q' : Nat} : (State.blockWalk s q').Keeps q n := by
  simp only [State.blockWalk]
  (repeat' split) <;> simp [h]

@[simp] theorem State.reblock_keeps (h : s.Keeps q n) {q' : Nat} : (State.reblock s q').Keeps q n := by
  simp [State.reblock, ↓upd_keeps, ↓ite_keeps, ↓res_ite_keeps, ↓ite_keeps_fst, h]

@[simp] theorem State.settle_keeps (h : s.Keeps q n) {q' : Nat} : (State.settle s q').Keeps q n := by
  simp [State.settle, ↓upd_keeps, ↓ite_keeps, ↓res_ite_keeps, ↓ite_keeps_fst, h]

@[simp] theorem State.completePkt_keeps (h : s.Keeps q n) {q' : Nat} {k : Nat} : (State.completePkt s q' k).Keeps q n := by
  simp [State.completePkt, ↓upd_keeps, ↓ite_keeps, ↓res_ite_keeps, ↓ite_keeps_fst, h]

@[simp] theorem State.stationsOn_keeps {b : Nat} : (State.stationsOn s b).Keeps q n ↔ s.Keeps q n := by
  simp [State.stationsOn, ↓upd_keeps, ↓ite_keeps, ↓res_ite_keeps, ↓ite_keeps_fst]

@[simp] theorem State.issue_keeps (h : s.Keeps q n) {q' : Nat} {k : Nat} {b : Nat} {p : Pkt} : (State.issue s q' k b p).Keeps q n := by
  unfold State.issue
  repeat' (first | assumption | with_reducible apply State.fenceTo_keeps | with_reducible apply State.forEach_keeps_of | with_reducible apply State.writeFault_keeps | with_reducible apply foldl_keeps_of | rw [ok_keeps] | rw [next_keeps] | with_reducible intro _ | (split <;> try (rename_i e; have e2 := congrArg Prod.fst e; dsimp only at e2; subst e2)) | dsimp only | simp [h])

@[simp] theorem State.launchFirst_keeps (h : s.Keeps q n) {b : Nat} : (State.launchFirst s b).1.Keeps q n := by
  unfold State.launchFirst
  repeat' (first | assumption | with_reducible apply State.forEach_keeps_of | with_reducible apply State.issue_keeps | with_reducible apply State.markGuilty_keeps | with_reducible apply foldl_keeps_of | rw [ok_keeps] | rw [next_keeps] | with_reducible intro _ | (split <;> try (rename_i e; have e2 := congrArg Prod.fst e; dsimp only at e2; subst e2)) | dsimp only | simp [h])

@[simp] theorem State.settleWaiting_keeps (h : s.Keeps q n) {bs : List Nat} {l : List Nat} : (State.settleWaiting s bs l).Keeps q n := by
  unfold State.settleWaiting
  repeat' (first | assumption | with_reducible apply State.forEach_keeps_of | with_reducible apply State.settle_keeps | with_reducible apply foldl_keeps_of | rw [ok_keeps] | rw [next_keeps] | with_reducible intro _ | (split <;> try (rename_i e; have e2 := congrArg Prod.fst e; dsimp only at e2; subst e2)) | dsimp only | simp [h])

@[simp] theorem State.launchAt_keeps (h : s.Keeps q n) {bs : List Nat} : (State.launchAt s bs).Keeps q n := by
  have k : ∀ (l : List Nat) (p : State × List Nat), p.1.Keeps q n →
      (l.foldl (fun (a : State × List Nat) b => ((a.1.launchFirst b).1, a.2 ++ (a.1.launchFirst b).2)) p).1.Keeps q n := by
    intro l p hp
    exact foldl_keeps_fst_of hp fun a b ha => State.launchFirst_keeps ha
  unfold State.launchAt
  exact State.settleWaiting_keeps (k _ _ h)

@[simp] theorem State.launchNext_keeps (h : s.Keeps q n) {b : Nat} : (State.launchNext s b).Keeps q n := by
  unfold State.launchNext
  repeat' (first | assumption | with_reducible apply State.launchAt_keeps | with_reducible apply foldl_keeps_of | rw [ok_keeps] | rw [next_keeps] | with_reducible intro _ | (split <;> try (rename_i e; have e2 := congrArg Prod.fst e; dsimp only at e2; subst e2)) | dsimp only | simp [h])

@[simp] theorem State.launchAll_keeps (h : s.Keeps q n) : (State.launchAll s).Keeps q n := by
  unfold State.launchAll
  repeat' (first | assumption | with_reducible apply State.launchAt_keeps | with_reducible apply foldl_keeps_of | rw [ok_keeps] | rw [next_keeps] | with_reducible intro _ | (split <;> try (rename_i e; have e2 := congrArg Prod.fst e; dsimp only at e2; subst e2)) | dsimp only | simp [h])

@[simp] theorem State.destroyEnd_keeps {q' : Nat} : (State.destroyEnd s q').Keeps q n ↔ s.Keeps q n := by
  simp [State.destroyEnd, ↓upd_keeps, ↓ite_keeps, ↓res_ite_keeps, ↓ite_keeps_fst]

@[simp] theorem State.destroyFenced_keeps {q' : Nat} : (State.destroyFenced s q').Keeps q n ↔ s.Keeps q n := by
  simp [State.destroyFenced, ↓upd_keeps, ↓ite_keeps, ↓res_ite_keeps, ↓ite_keeps_fst]

@[simp] theorem State.tallyBay_keeps {q' : Nat} {b : Nat} : (State.tallyBay s q' b).Keeps q n ↔ s.Keeps q n := by
  simp [State.tallyBay, ↓upd_keeps, ↓ite_keeps, ↓res_ite_keeps, ↓ite_keeps_fst]

@[simp] theorem State.destroyStep_keeps (h : s.Keeps q n) {q' : Nat} : (State.destroyStep s q').Keeps q n := by
  unfold State.destroyStep
  repeat' (first | assumption | with_reducible apply State.completionFence_keeps | with_reducible apply State.forEach_keeps_of | with_reducible apply foldl_keeps_of | rw [ok_keeps] | rw [next_keeps] | with_reducible intro _ | (split <;> try (rename_i e; have e2 := congrArg Prod.fst e; dsimp only at e2; subst e2)) | dsimp only | simp [h])

@[simp] theorem State.destroyForce_keeps {q' : Nat} : (State.destroyForce s q').Keeps q n ↔ s.Keeps q n := by
  simp [State.destroyForce, ↓upd_keeps, ↓ite_keeps, ↓res_ite_keeps, ↓ite_keeps_fst]

@[simp] theorem State.afterRelease_keeps (h : s.Keeps q n) {q' : Nat} : (State.afterRelease s q').Keeps q n := by
  simp [State.afterRelease, ↓upd_keeps, ↓ite_keeps, ↓res_ite_keeps, ↓ite_keeps_fst, h]

@[simp] theorem State.releaseBay_keeps (h : s.Keeps q n) {b : Nat} : (State.releaseBay s b).Keeps q n := by
  unfold State.releaseBay
  repeat' (first | assumption | with_reducible apply State.afterRelease_keeps | with_reducible apply State.forEach_keeps_of | with_reducible apply State.launchNext_keeps | with_reducible apply foldl_keeps_of | rw [ok_keeps] | rw [next_keeps] | with_reducible intro _ | (split <;> try (rename_i e; have e2 := congrArg Prod.fst e; dsimp only at e2; subst e2)) | dsimp only | simp [h])

@[simp] theorem State.safetyStop_keeps (h : s.Keeps q n) {b : Nat} {origin : Nat} : (State.safetyStop s b origin).Keeps q n := by
  simp only [State.safetyStop]
  (repeat' split) <;> simp [h]

@[simp] theorem State.spadBad_keeps (h : s.Keeps q n) {t : Nat} {o : Nat} {m : Master} : (State.spadBad s t o m).Keeps q n := by
  simp only [State.spadBad]
  (repeat' split) <;> simp [h]

@[simp] theorem State.spadServe_keeps (h : s.Keeps q n) {m : Master} {t : Nat} {o : Nat} {n' : Nat} {errs : List BurstErr} : (State.spadServe s m t o n' errs).1.Keeps q n := by
  unfold State.spadServe
  repeat' (first | assumption | with_reducible apply State.spadBad_keeps | with_reducible apply foldl_keeps_of | rw [ok_keeps] | rw [next_keeps] | with_reducible intro _ | (split <;> try (rename_i e; have e2 := congrArg Prod.fst e; dsimp only at e2; subst e2)) | dsimp only | simp [h])

@[simp] theorem State.hubRead_keeps (h : s.Keeps q n) {space : Nat} {addr : Nat} {n' : Nat} {ext : Option (List Byte)} {errs : List BurstErr} : (State.hubRead s space addr n' ext errs).1.Keeps q n := by
  unfold State.hubRead
  repeat' (first | assumption | with_reducible apply State.spadServe_keeps | with_reducible apply foldl_keeps_of | rw [ok_keeps] | rw [next_keeps] | with_reducible intro _ | (split <;> try (rename_i e; have e2 := congrArg Prod.fst e; dsimp only at e2; subst e2)) | dsimp only | simp [h])

@[simp] theorem State.stopDies_keeps (h : s.Keeps q n) {dies : List Nat} : (State.stopDies s dies).Keeps q n := by
  unfold State.stopDies
  repeat' (first | assumption | with_reducible apply State.forEach_keeps_of | with_reducible apply State.safetyStop_keeps | with_reducible apply foldl_keeps_of | rw [ok_keeps] | rw [next_keeps] | with_reducible intro _ | (split <;> try (rename_i e; have e2 := congrArg Prod.fst e; dsimp only at e2; subst e2)) | dsimp only | simp [h])

@[simp] theorem State.start_keeps (h : s.Keeps q n) {q' : Nat} {f : Nat → Bool} (g : State → Nat → Pkt → State) (hg : ∀ a x0 x1, State.Keeps q n a → (g a x0 x1).Keeps q n) : (State.start s q' f g).Keeps q n := by
  simp only [State.start]
  (repeat' split) <;> simp_all

@[simp] theorem State.waitPkt_keeps {q' : Nat} {k : Nat} {p : Pkt} : (State.waitPkt s q' k p).Keeps q n ↔ s.Keeps q n := by
  simp [State.waitPkt, ↓upd_keeps, ↓ite_keeps, ↓res_ite_keeps, ↓ite_keeps_fst]

@[simp] theorem State.feCause_keeps (h : s.Keeps q n) {q' : Nat} {cause : Nat} : (State.feCause s q' cause).Keeps q n := by
  simp [State.feCause, ↓upd_keeps, ↓ite_keeps, ↓res_ite_keeps, ↓ite_keeps_fst, h]

@[simp] theorem State.partitionCheck_keeps (h : s.Keeps q n) {q' : Nat} : (State.partitionCheck s q').Keeps q n := by
  simp [State.partitionCheck, ↓upd_keeps, ↓ite_keeps, ↓res_ite_keeps, ↓ite_keeps_fst, h]

@[simp] theorem State.doorbell_keeps (h : s.Keeps q n) {q' : Nat} {t : Nat} : (State.doorbell s q' t).Keeps q n := by
  simp [State.doorbell, ↓upd_keeps, ↓ite_keeps, ↓res_ite_keeps, ↓ite_keeps_fst, h]

@[simp] theorem execDoorbell_keeps (h : s.Keeps q n) {m : Master} {q' : Fin 32768} {tail : Word} : Res.Keeps q n (execDoorbell m q' tail s) := by
  unfold execDoorbell
  repeat' (first | assumption | with_reducible apply State.doorbell_keeps | with_reducible apply State.guarded_keeps_of | with_reducible apply foldl_keeps_of | rw [ok_keeps] | rw [next_keeps] | with_reducible intro _ | (split <;> try (rename_i e; have e2 := congrArg Prod.fst e; dsimp only at e2; subst e2)) | dsimp only | simp [h])

@[simp] theorem State.fetchRing_keeps (h : s.Keeps q n) {q' : Nat} {ext : Option (List Byte)} {errs : List BurstErr} {i0 : Nat} {i1 : Nat} {i2 : Nat} : (State.fetchRing s q' ext errs i0 i1 i2).1.Keeps q n := by
  induction i0 generalizing s i1 i2 with
  | zero => exact h
  | succ k ih =>
    rw [State.fetchRing]
    dsimp only
    split
    · exact State.hubRead_keeps h
    · exact ih (State.hubRead_keeps h)

@[simp] theorem State.takeJump_keeps {q' : Nat} {n' : Nat} {space : Nat} {addr : Nat} {left : Nat} {b : List Byte} : (State.takeJump s q' n' space addr left b).Keeps q n ↔ s.Keeps q n := by
  simp [State.takeJump, ↓upd_keeps, ↓ite_keeps, ↓res_ite_keeps, ↓ite_keeps_fst]

@[simp] theorem State.takeRing_keeps {q' : Nat} {e : Nat} {l : List Pkt} : (State.takeRing s q' e l).Keeps q n ↔ s.Keeps q n := by
  simp [State.takeRing, ↓upd_keeps, ↓ite_keeps, ↓res_ite_keeps, ↓ite_keeps_fst]

@[simp] theorem State.fetchJump_keeps (h : s.Keeps q n) {q' : Nat} {space : Nat} {addr : Nat} {left : Nat} {hostData : Option (List Byte)} {errs : List BurstErr} : (State.fetchJump s q' space addr left hostData errs).Keeps q n := by
  unfold State.fetchJump
  have c : (s.hubRead space addr (64 * min 16 left) hostData errs).1.Keeps q n := State.hubRead_keeps h
  dsimp only
  generalize s.hubRead space addr (64 * min 16 left) hostData errs = r at c ⊢
  rcases r with ⟨s1, _ | l⟩
  · exact State.feCause_keeps c
  · exact State.settle_keeps (State.takeJump_keeps.2 c)

@[simp] theorem State.fetchNext_keeps (h : s.Keeps q n) {q' : Nat} {n' : Nat} {i : Nat} {hostData : Option (List Byte)} {errs : List BurstErr} : (State.fetchNext s q' n' i hostData errs).Keeps q n := by
  unfold State.fetchNext
  have c : (s.fetchRing q' hostData errs n' i 0).1.Keeps q n := State.fetchRing_keeps h
  generalize s.fetchRing q' hostData errs n' i 0 = r at c ⊢
  rcases r with ⟨s1, _ | l⟩
  · exact State.feCause_keeps c
  · exact State.settle_keeps (State.takeRing_keeps.2 c)

@[simp] theorem execRingFetch_keeps (h : s.Keeps q n) {q' : Fin 32768} {hostData : Option (List Byte)} {errs : List BurstErr} : Res.Keeps q n (execRingFetch q' hostData errs s) := by
  unfold execRingFetch
  split
  · simpa using h
  rcases (s.queue q').jump with _ | ⟨space, addr, left⟩
  · exact ok_keeps.2 (State.fetchNext_keeps h)
  · exact ok_keeps.2 (State.fetchJump_keeps h)

@[simp] theorem execNop_keeps (h : s.Keeps q n) {q' : Fin 32768} : Res.Keeps q n (execNop q' s) := by
  unfold execNop
  repeat' (first | assumption | with_reducible apply State.completePkt_keeps | with_reducible apply State.start_keeps | with_reducible apply foldl_keeps_of | rw [ok_keeps] | rw [next_keeps] | with_reducible intro _ | (split <;> try (rename_i e; have e2 := congrArg Prod.fst e; dsimp only at e2; subst e2)) | dsimp only | simp [h])

@[simp] theorem execLaunch_keeps (h : s.Keeps q n) {q' : Fin 32768} : Res.Keeps q n (execLaunch q' s) := by
  unfold execLaunch
  repeat' (first | assumption | with_reducible apply State.feCause_keeps | with_reducible apply State.issue_keeps | with_reducible apply State.start_keeps | with_reducible apply foldl_keeps_of | rw [ok_keeps] | rw [next_keeps] | with_reducible intro _ | (split <;> try (rename_i e; have e2 := congrArg Prod.fst e; dsimp only at e2; subst e2)) | dsimp only | simp [h])

@[simp] theorem execCopy_keeps (h : s.Keeps q n) {q' : Fin 32768} : Res.Keeps q n (execCopy q' s) := by
  simp only [execCopy]
  (repeat' split) <;> simp_all

@[simp] theorem State.copyRead_keeps (h : s.Keeps q n) {space : Nat} {a0 : Nat} {ext : Option (List Byte)} {errs : List BurstErr} {i0 : List (Nat × Nat)} : (State.copyRead s space a0 ext errs i0).1.Keeps q n := by
  induction i0 generalizing s with
  | nil => exact h
  | cons x l ih =>
    obtain ⟨a, m⟩ := x
    have c := fun e f => State.hubRead_keeps (space := space) (addr := a) (n' := m) (ext := e) (errs := f) h
    rw [State.copyRead]
    split <;> (rename_i g; have e := congrArg Prod.fst g; dsimp only at e; subst e)
    · exact c _ _
    · exact ih (c _ _)

@[simp] theorem State.copyWrite_keeps (h : s.Keeps q n) {space : Nat} {a0 : Nat} {data : List Byte} {i0 : List (Nat × Nat)} : (State.copyWrite s space a0 data i0).1.Keeps q n := by
  induction i0 generalizing s with
  | nil => exact h
  | cons x l ih =>
    obtain ⟨a, m⟩ := x
    rw [State.copyWrite]
    split
    · exact h
    split <;> (rename_i g; have e := congrArg Prod.fst g; dsimp only at e; subst e)
    · exact State.hubWrite_keeps h
    · exact ih (State.hubWrite_keeps h)

@[simp] theorem State.copyData_keeps {c : Disp} {data : List Byte} : (State.copyData s c data).1.Keeps q n ↔ s.Keeps q n := by
  simp [State.copyData, ↓upd_keeps, ↓ite_keeps, ↓res_ite_keeps, ↓ite_keeps_fst]

@[simp] theorem execCopyUnitDone_keeps (h : s.Keeps q n) {d : Fin 4} {hostData : Option (List Byte)} {errs : List BurstErr} {confirmed : Bool} : Res.Keeps q n (execCopyUnitDone d hostData errs s confirmed) := by
  unfold execCopyUnitDone
  repeat' (first | assumption | with_reducible apply State.completePkt_keeps | with_reducible apply State.copyRead_keeps | with_reducible apply State.copyWrite_keeps | with_reducible apply State.feCause_keeps | with_reducible apply foldl_keeps_of | rw [ok_keeps] | rw [next_keeps] | with_reducible intro _ | (split <;> try (rename_i e; have e2 := congrArg Prod.fst e; dsimp only at e2; subst e2)) | dsimp only | simp [h])

@[simp] theorem State.ownWrite_keeps (h : s.Keeps q n) {q' : Nat} {k : Nat} {space : Nat} {addr : Nat} {data : List Byte} : (State.ownWrite s q' k space addr data).Keeps q n := by
  unfold State.ownWrite
  repeat' (first | assumption | with_reducible apply State.completePkt_keeps | with_reducible apply State.hubWrite_keeps | with_reducible apply State.writeFault_keeps | with_reducible apply foldl_keeps_of | rw [ok_keeps] | rw [next_keeps] | with_reducible intro _ | (split <;> try (rename_i e; have e2 := congrArg Prod.fst e; dsimp only at e2; subst e2)) | dsimp only | simp [h])

@[simp] theorem execFenceSignal_keeps (h : s.Keeps q n) {q' : Fin 32768} : Res.Keeps q n (execFenceSignal q' s) := by
  unfold execFenceSignal
  repeat' (first | assumption | with_reducible apply State.ownWrite_keeps | with_reducible apply State.start_keeps | with_reducible apply foldl_keeps_of | rw [ok_keeps] | rw [next_keeps] | with_reducible intro _ | (split <;> try (rename_i e; have e2 := congrArg Prod.fst e; dsimp only at e2; subst e2)) | dsimp only | simp [h])

@[simp] theorem State.fenceRead_keeps (h : s.Keeps q n) {q' : Nat} {k : Nat} {p : Pkt} {hostValue : Option Dword} {errs : List BurstErr} : (State.fenceRead s q' k p hostValue errs).Keeps q n := by
  unfold State.fenceRead
  repeat' (first | assumption | with_reducible apply State.completePkt_keeps | with_reducible apply State.feCause_keeps | with_reducible apply State.hubRead_keeps | with_reducible apply foldl_keeps_of | rw [ok_keeps] | rw [next_keeps] | with_reducible intro _ | (split <;> try (rename_i e; have e2 := congrArg Prod.fst e; dsimp only at e2; subst e2)) | dsimp only | simp [h])

@[simp] theorem execFenceWait_keeps (h : s.Keeps q n) {q' : Fin 32768} {hostValue : Option Dword} {errs : List BurstErr} : Res.Keeps q n (execFenceWait q' hostValue errs s) := by
  unfold execFenceWait
  repeat' (first | assumption | with_reducible apply State.fenceRead_keeps | with_reducible apply State.start_keeps | with_reducible apply foldl_keeps_of | rw [ok_keeps] | rw [next_keeps] | with_reducible intro _ | (split <;> try (rename_i e; have e2 := congrArg Prod.fst e; dsimp only at e2; subst e2)) | dsimp only | simp [h])

@[simp] theorem execFencePoll_keeps (h : s.Keeps q n) {q' : Fin 32768} {hostValue : Option Dword} {errs : List BurstErr} {n' : Nat} : Res.Keeps q n (execFencePoll q' hostValue errs s n') := by
  simp only [execFencePoll]
  (repeat' split) <;> simp [h]

@[simp] theorem execTickWait_keeps (h : s.Keeps q n) {q' : Fin 32768} : Res.Keeps q n (execTickWait q' s) := by
  unfold execTickWait
  repeat' (first | assumption | with_reducible apply State.completePkt_keeps | with_reducible apply State.start_keeps | with_reducible apply foldl_keeps_of | rw [ok_keeps] | rw [next_keeps] | with_reducible intro _ | (split <;> try (rename_i e; have e2 := congrArg Prod.fst e; dsimp only at e2; subst e2)) | dsimp only | simp [h])

@[simp] theorem execTickWaitExpiry_keeps (h : s.Keeps q n) {q' : Fin 32768} : Res.Keeps q n (execTickWaitExpiry q' s) := by
  simp only [execTickWaitExpiry]
  (repeat' split) <;> simp [h]

@[simp] theorem execSnapshotCutPacket_keeps (h : s.Keeps q n) {q' : Fin 32768} : Res.Keeps q n (execSnapshotCutPacket q' s) := by
  unfold execSnapshotCutPacket
  repeat' (first | assumption | with_reducible apply State.feCause_keeps | with_reducible apply State.start_keeps | with_reducible apply foldl_keeps_of | rw [ok_keeps] | rw [next_keeps] | with_reducible intro _ | (split <;> try (rename_i e; have e2 := congrArg Prod.fst e; dsimp only at e2; subst e2)) | dsimp only | simp [h])

@[simp] theorem State.cutEnds_keeps (h : s.Keeps q n) {slot : Nat} {fired : Bool} : (State.cutEnds s slot fired).Keeps q n := by
  simp only [State.cutEnds]
  (repeat' split) <;> simp [h]

@[simp] theorem execTimestamp_keeps (h : s.Keeps q n) {q' : Fin 32768} : Res.Keeps q n (execTimestamp q' s) := by
  unfold execTimestamp
  repeat' (first | assumption | with_reducible apply State.ownWrite_keeps | with_reducible apply State.start_keeps | with_reducible apply foldl_keeps_of | rw [ok_keeps] | rw [next_keeps] | with_reducible intro _ | (split <;> try (rename_i e; have e2 := congrArg Prod.fst e; dsimp only at e2; subst e2)) | dsimp only | simp [h])

@[simp] theorem execJump_keeps (h : s.Keeps q n) {q' : Fin 32768} : Res.Keeps q n (execJump q' s) := by
  simp [execJump, ↓upd_keeps, ↓ite_keeps, ↓res_ite_keeps, ↓ite_keeps_fst, h]

@[simp] theorem execFenceWriteConfirm_keeps (h : s.Keeps q n) {q' : Fin 32768} {good : Bool} : Res.Keeps q n (execFenceWriteConfirm q' good s) := by
  simp only [execFenceWriteConfirm]
  (repeat' split) <;> simp [h]

@[simp] theorem execQueueTimeout_keeps (h : s.Keeps q n) {q' : Fin 32768} : Res.Keeps q n (execQueueTimeout q' s) := by
  simp [execQueueTimeout, ↓upd_keeps, ↓ite_keeps, ↓res_ite_keeps, ↓ite_keeps_fst, h]

@[simp] theorem execTileFinish_keeps (h : s.Keeps q n) {t : Fin 1200} : Res.Keeps q n (execTileFinish t s) := by
  simp only [execTileFinish]
  (repeat' split) <;> simp [h]

@[simp] theorem execBayAbort_keeps (h : s.Keeps q n) {t : Fin 1200} : Res.Keeps q n (execBayAbort t s) := by
  simp only [execBayAbort]
  (repeat' split) <;> simp [h]

@[simp] theorem execTileQuiescent_keeps (h : s.Keeps q n) {t : Fin 1200} : Res.Keeps q n (execTileQuiescent t s) := by
  simp only [execTileQuiescent]
  (repeat' split) <;> simp [h]

@[simp] theorem execBayRelease_keeps (h : s.Keeps q n) {b : Fin 64} : Res.Keeps q n (execBayRelease b s) := by
  simp [execBayRelease, ↓upd_keeps, ↓ite_keeps, ↓res_ite_keeps, ↓ite_keeps_fst, h]

@[simp] theorem execBayReset_keeps (h : s.Keeps q n) {b : Fin 64} {queue : Option (Fin 32768)} : Res.Keeps q n (execBayReset b s queue) := by
  simp only [execBayReset]
  (repeat' split) <;> simp [h]

@[simp] theorem execBayResetEnd_keeps (h : s.Keeps q n) {b : Fin 64} : Res.Keeps q n (execBayResetEnd b s) := by
  simp only [execBayResetEnd]
  (repeat' split) <;> simp [h]

@[simp] theorem State.create_keeps (h : s.Keeps q n) {q' : Nat} : (State.create s q').Keeps q n := by
  simp [State.create, ↓upd_keeps, ↓ite_keeps, ↓res_ite_keeps, ↓ite_keeps_fst, h]

@[simp] theorem State.destroy_keeps (h : s.Keeps q n) {q' : Nat} : (State.destroy s q').Keeps q n := by
  simp [State.destroy, ↓upd_keeps, ↓ite_keeps, ↓res_ite_keeps, ↓ite_keeps_fst, h]

@[simp] theorem State.resume_keeps (h : s.Keeps q n) {q' : Nat} : (State.resume s q').Keeps q n := by
  simp [State.resume, ↓upd_keeps, ↓ite_keeps, ↓res_ite_keeps, ↓ite_keeps_fst, h]

@[simp] theorem execCreate_keeps (h : s.Keeps q n) {m : Master} {q' : Fin 32768} : Res.Keeps q n (execCreate m q' s) := by
  unfold execCreate
  repeat' (first | assumption | with_reducible apply State.create_keeps | with_reducible apply State.guarded_keeps_of | with_reducible apply foldl_keeps_of | rw [ok_keeps] | rw [next_keeps] | with_reducible intro _ | (split <;> try (rename_i e; have e2 := congrArg Prod.fst e; dsimp only at e2; subst e2)) | dsimp only | simp [h])

@[simp] theorem execDestroy_keeps (h : s.Keeps q n) {m : Master} {q' : Fin 32768} : Res.Keeps q n (execDestroy m q' s) := by
  unfold execDestroy
  repeat' (first | assumption | with_reducible apply State.destroy_keeps | with_reducible apply State.guarded_keeps_of | with_reducible apply foldl_keeps_of | rw [ok_keeps] | rw [next_keeps] | with_reducible intro _ | (split <;> try (rename_i e; have e2 := congrArg Prod.fst e; dsimp only at e2; subst e2)) | dsimp only | simp [h])

@[simp] theorem execResume_keeps (h : s.Keeps q n) {m : Master} {q' : Fin 32768} : Res.Keeps q n (execResume m q' s) := by
  unfold execResume
  repeat' (first | assumption | with_reducible apply State.guarded_keeps_of | with_reducible apply State.resume_keeps | with_reducible apply foldl_keeps_of | rw [ok_keeps] | rw [next_keeps] | with_reducible intro _ | (split <;> try (rename_i e; have e2 := congrArg Prod.fst e; dsimp only at e2; subst e2)) | dsimp only | simp [h])

@[simp] theorem execFeClearCounts_keeps (h : s.Keeps q n) {m : Master} : Res.Keeps q n (execFeClearCounts m s) := by
  simp [execFeClearCounts, ↓upd_keeps, ↓ite_keeps, ↓res_ite_keeps, ↓ite_keeps_fst, h]

@[simp] theorem State.bridgeNak_keeps {b : Nat} {n' : Nat} : (State.bridgeNak s b n').Keeps q n ↔ s.Keeps q n := by
  simp [State.bridgeNak, ↓upd_keeps, ↓ite_keeps, ↓res_ite_keeps, ↓ite_keeps_fst]

@[simp] theorem State.bridgeRecord_keeps {sev : Nat} {cls : Nat} {kind : Nat} {b : Nat} : (State.bridgeRecord s sev cls kind b).Keeps q n ↔ s.Keeps q n := by
  simp [State.bridgeRecord, ↓upd_keeps, ↓ite_keeps, ↓res_ite_keeps, ↓ite_keeps_fst]

@[simp] theorem State.bridgeTurn_keeps {b : Nat} : (State.bridgeTurn s b).Keeps q n ↔ s.Keeps q n := by
  simp [State.bridgeTurn, ↓upd_keeps, ↓ite_keeps, ↓res_ite_keeps, ↓ite_keeps_fst]

@[simp] theorem State.bridgeDown_keeps (h : s.Keeps q n) {b : Nat} : (State.bridgeDown s b).Keeps q n := by
  simp [State.bridgeDown, ↓upd_keeps, ↓ite_keeps, ↓res_ite_keeps, ↓ite_keeps_fst, h]

@[simp] theorem State.bridgeRetrain_keeps (h : s.Keeps q n) {b : Nat} : (State.bridgeRetrain s b).Keeps q n := by
  simp [State.bridgeRetrain, ↓upd_keeps, ↓ite_keeps, ↓res_ite_keeps, ↓ite_keeps_fst, h]

@[simp] theorem State.markBridgeLane_keeps (h : s.Keeps q n) {b : Nat} {n' : Nat} : (State.markBridgeLane s b n').Keeps q n := by
  simp [State.markBridgeLane, ↓upd_keeps, ↓ite_keeps, ↓res_ite_keeps, ↓ite_keeps_fst, h]

@[simp] theorem State.chargeLanes_keeps (h : s.Keeps q n) {b : Nat} {good : List Byte} : (State.chargeLanes s b good).Keeps q n := by
  unfold State.chargeLanes
  repeat' (first | assumption | with_reducible apply State.forEach_keeps_of | with_reducible apply State.markBridgeLane_keeps | with_reducible apply foldl_keeps_of | rw [ok_keeps] | rw [next_keeps] | with_reducible intro _ | (split <;> try (rename_i e; have e2 := congrArg Prod.fst e; dsimp only at e2; subst e2)) | dsimp only | simp [h])

@[simp] theorem State.bridgeFail_keeps (h : s.Keeps q n) {b : Nat} {flit : List Byte} : (State.bridgeFail s b flit).Keeps q n := by
  simp [State.bridgeFail, ↓upd_keeps, ↓ite_keeps, ↓res_ite_keeps, ↓ite_keeps_fst, h]

@[simp] theorem State.bridgeSubstitute_keeps {b : Nat} {lane : Nat} : (State.bridgeSubstitute s b lane).Keeps q n ↔ s.Keeps q n := by
  simp [State.bridgeSubstitute, ↓upd_keeps, ↓ite_keeps, ↓res_ite_keeps, ↓ite_keeps_fst]

@[simp] theorem State.bridgeAccept_keeps (h : s.Keeps q n) {b : Nat} {flit : List Byte} : (State.bridgeAccept s b flit).Keeps q n := by
  simp only [State.bridgeAccept]
  (repeat' split) <;> simp [h]

@[simp] theorem execBridgeFlit_keeps (h : s.Keeps q n) {b : Fin 376} {flit : List Byte} : Res.Keeps q n (execBridgeFlit b flit s) := by
  simp [execBridgeFlit, ↓upd_keeps, ↓ite_keeps, ↓res_ite_keeps, ↓ite_keeps_fst, h]

@[simp] theorem State.bridgeResume_keeps {b : Nat} : (State.bridgeResume s b).Keeps q n ↔ s.Keeps q n := by
  simp [State.bridgeResume, ↓upd_keeps, ↓ite_keeps, ↓res_ite_keeps, ↓ite_keeps_fst]

@[simp] theorem execBridgeRetrainEnd_keeps (h : s.Keeps q n) {b : Fin 376} {good : Bool} : Res.Keeps q n (execBridgeRetrainEnd b good s) := by
  simp [execBridgeRetrainEnd, ↓upd_keeps, ↓ite_keeps, ↓res_ite_keeps, ↓ite_keeps_fst, h]

@[simp] theorem execUcieTrained_keeps (h : s.Keeps q n) {oe : Bool} {fast : Bool} : Res.Keeps q n (execUcieTrained oe fast s) := by
  have c := State.setOe_keeps h oe (x := { s.oe oe with trained := true, slow := !fast }) (State.oe_wf h oe)
  unfold execUcieTrained
  dsimp only
  split
  · simpa using h
  · split <;> simp [c]

@[simp] theorem State.isolate_keeps (h : s.Keeps q n) {oe : Bool} : (State.isolate s oe).Keeps q n := by
  have c := State.setOe_keeps h oe (x := { s.oe oe with isolated := true, trained := false }) (State.oe_wf h oe)
  unfold State.isolate
  simp [c]

@[simp] theorem State.firewall_keeps (h : s.Keeps q n) {oe : Bool} {write : Bool} {addr : Nat} {n' : Nat} : (State.firewall s oe write addr n').Keeps q n := by
  have c := State.setOe_keeps h oe (x := { s.oe oe with denials := (s.oe oe).denials + 1 }) (State.oe_wf h oe)
  unfold State.firewall
  dsimp only
  split
  · exact State.isolate_keeps (by split <;> simp [c])
  · split <;> simp [c]

@[simp] theorem execOeRequest_keeps (h : s.Keeps q n) {oe : Bool} {write : Bool} {addr : Dword} {size : Nat} {data : List Byte} : Res.Keeps q n (execOeRequest oe write addr size data s) := by
  unfold execOeRequest
  dsimp only
  split
  · simpa using h
  split
  · simp [h]
  have c : (s.check (.oe oe) (addr.toNat % 2 ^ 48) size (if write then 2 else 1) false).1.Keeps q n := by simp [h]
  split <;> (rename_i g; rw [g] at c; dsimp only at c)
  · split
    · rw [ok_keeps]
      exact State.setOe_keeps c _ (Mem.write_wf (State.oe_wf c _) _ _)
    · simp [c]
  all_goals rw [ok_keeps]; split <;> simp [c]

@[simp] theorem State.tapAct_keeps {tdi : Bool} : (State.tapAct s tdi).Keeps q n ↔ s.Keeps q n := by
  simp only [State.tapAct]
  (repeat' split) <;> simp

@[simp] theorem execTckEdge_keeps (h : s.Keeps q n) {rising : Bool} {tms : Bool} {tdi : Bool} : Res.Keeps q n (execTckEdge rising tms tdi s) := by
  simp only [execTckEdge]
  (repeat' split) <;> simp [h]

@[simp] theorem State.flies_keeps {o : Out} : (State.flies s o).Keeps q n ↔ s.Keeps q n := by
  simp [State.flies, ↓upd_keeps, ↓ite_keeps, ↓res_ite_keeps, ↓ite_keeps_fst]

@[simp] theorem State.passRow_keeps (h : s.Keeps q n) {t : Nat} {c : ChainDef} {k : Nat} {row : Nat} {dest : Dword} {v : List (BitVec 40)} : (State.passRow s t c k row dest v).Keeps q n := by
  simp only [State.passRow]
  (repeat' split) <;> simp [h]

@[simp] theorem State.adderFault_keeps (h : s.Keeps q n) {b : Nat} {cls : Nat} {origin : Nat} {r : Rec} : (State.adderFault s b cls origin r).Keeps q n := by
  simp [State.adderFault, ↓upd_keeps, ↓ite_keeps, ↓res_ite_keeps, ↓ite_keeps_fst, h]

@[simp] theorem State.chainRun_keeps (h : s.Keeps q n) {t : Nat} {i0 : Nat} : (State.chainRun s t i0).Keeps q n := by
  induction i0 generalizing s with
  | zero => exact h
  | succ j ih =>
    rw [State.chainRun]
    dsimp only
    split
    · exact h
    split
    · exact h
    · simp [h]
    split
    · simp [h]
    · exact State.adderFault_keeps (by simp [h])
    · exact ih (by simp [h])

@[simp] theorem State.chainGo_keeps (h : s.Keeps q n) {t : Nat} : (State.chainGo s t).Keeps q n := by
  simp [State.chainGo, ↓upd_keeps, ↓ite_keeps, ↓res_ite_keeps, ↓ite_keeps_fst, h]

@[simp] theorem State.chainRow_keeps (h : s.Keeps q n) {t : Nat} {chain : Nat} {row : Nat} {v : List (BitVec 40)} {mismatch : Bool} : (State.chainRow s t chain row v mismatch).Keeps q n := by
  simp only [State.chainRow]
  (repeat' split) <;> simp [h]

@[simp] theorem State.stationFlags_keeps {k : Nat} {fl : Nat} : (State.stationFlags s k fl).Keeps q n ↔ s.Keeps q n := by
  simp [State.stationFlags, ↓upd_keeps, ↓ite_keeps, ↓res_ite_keeps, ↓ite_keeps_fst]

@[simp] theorem State.stationRaise_keeps (h : s.Keeps q n) {k : Nat} {cause : Nat} : (State.stationRaise s k cause).Keeps q n := by
  simp only [State.stationRaise]
  (repeat' split) <;> simp [h]

@[simp] theorem State.subscribe_keeps {k : Nat} {t : Nat} {i : Nat} {row : List Byte} : (State.subscribe s k t i row).1.Keeps q n ↔ s.Keeps q n := by
  simp [State.subscribe, ↓upd_keeps, ↓ite_keeps, ↓res_ite_keeps, ↓ite_keeps_fst]

@[simp] theorem State.stationRow_keeps {k : Nat} {packet : List Byte} {n' : Nat} : (State.stationRow s k packet n').Keeps q n ↔ s.Keeps q n := by
  simp [State.stationRow, ↓upd_keeps, ↓ite_keeps, ↓res_ite_keeps, ↓ite_keeps_fst]

@[simp] theorem State.stationSendRow_keeps {k : Nat} {round : Nat} {fmt : Nat} {tiles : List Nat} {devs : List Nat} {i : Nat} {row : List Byte} : (State.stationSendRow s k round fmt tiles devs i row).1.Keeps q n ↔ s.Keeps q n := by
  simp [State.stationSendRow, ↓upd_keeps, ↓ite_keeps, ↓res_ite_keeps, ↓ite_keeps_fst]

@[simp] theorem State.stationSend_keeps (h : s.Keeps q n) {k : Nat} {round : Nat} {fmt : Nat} {rows : List (List Byte)} : (State.stationSend s k round fmt rows).Keeps q n := by
  unfold State.stationSend
  repeat' (first | assumption | with_reducible apply State.stationRaise_keeps | with_reducible apply foldl_keeps_of | rw [ok_keeps] | rw [next_keeps] | with_reducible intro _ | (split <;> try (rename_i e; have e2 := congrArg Prod.fst e; dsimp only at e2; subst e2)) | dsimp only | simp [h])

@[simp] theorem State.stationNext_keeps {k : Nat} : (State.stationNext s k).Keeps q n ↔ s.Keeps q n := by
  simp [State.stationNext, ↓upd_keeps, ↓ite_keeps, ↓res_ite_keeps, ↓ite_keeps_fst]

@[simp] theorem State.stationFault_keeps (h : s.Keeps q n) {k : Nat} {cls : Nat} : (State.stationFault s k cls).Keeps q n := by
  simp [State.stationFault, ↓upd_keeps, ↓ite_keeps, ↓res_ite_keeps, ↓ite_keeps_fst, h]

@[simp] theorem State.placeRow_keeps {k : Nat} {b : Nat} {oldest : Bool} {v : Vault} {fw : List Nat} : (State.placeRow s k b oldest v fw).Keeps q n ↔ s.Keeps q n := by
  simp [State.placeRow, ↓upd_keeps, ↓ite_keeps, ↓res_ite_keeps, ↓ite_keeps_fst]

@[simp] theorem State.rowTaken_keeps (h : s.Keeps q n) {k : Nat} {fl : Nat} {out : Bool} {ecc : Ecc} : (State.rowTaken s k fl out ecc).Keeps q n := by
  simp [State.rowTaken, ↓upd_keeps, ↓ite_keeps, ↓res_ite_keeps, ↓ite_keeps_fst, h]

@[simp] theorem State.stationTake_keeps (h : s.Keeps q n) {k : Nat} {src : Nat} {round : Nat} {row : Nat} {r : RowVals} {ecc : Ecc} {mismatch : Bool} : (State.stationTake s k src round row r ecc mismatch).Keeps q n := by
  simp only [State.stationTake]
  (repeat' split) <;> simp [h]

@[simp] theorem State.stationAdmit_keeps (h : s.Keeps q n) {k : Nat} : (State.stationAdmit s k).Keeps q n := by
  unfold State.stationAdmit
  repeat' (first | assumption | with_reducible apply State.stationTake_keeps | with_reducible apply foldl_keeps_of | rw [ok_keeps] | rw [next_keeps] | with_reducible intro _ | (split <;> try (rename_i e; have e2 := congrArg Prod.fst e; dsimp only at e2; subst e2)) | dsimp only | simp [h])

@[simp] theorem State.stationGo_keeps (h : s.Keeps q n) {k : Nat} {i0 : Nat} : (State.stationGo s k i0).Keeps q n := by
  induction i0 generalizing s with
  | zero => exact h
  | succ j ih =>
    rw [State.stationGo]
    dsimp only
    split
    · exact h
    split
    · exact ih (by simp [h])
    · simp [h]

@[simp] theorem State.stationRun_keeps (h : s.Keeps q n) {k : Nat} : (State.stationRun s k).Keeps q n := by
  simp [State.stationRun, ↓upd_keeps, ↓ite_keeps, ↓res_ite_keeps, ↓ite_keeps_fst, h]

@[simp] theorem State.vaultRow_keeps (h : s.Keeps q n) {k : Nat} {src : Nat} {round : Nat} {row : Nat} {r : RowVals} {ecc : Ecc} {mismatch : Bool} : (State.vaultRow s k src round row r ecc mismatch).Keeps q n := by
  simp [State.vaultRow, ↓upd_keeps, ↓ite_keeps, ↓res_ite_keeps, ↓ite_keeps_fst, h]

@[simp] theorem State.vaultReturn_keeps (h : s.Keeps q n) {k : Nat} {src : Nat} {round : Nat} {row : Nat} {fmt : Nat} {data : List Byte} : (State.vaultReturn s k src round row fmt data).Keeps q n := by
  unfold State.vaultReturn
  repeat' (first | assumption | with_reducible apply State.stationAdmit_keeps | with_reducible apply State.stationRun_keeps | with_reducible apply State.stationSend_keeps | with_reducible apply foldl_keeps_of | rw [ok_keeps] | rw [next_keeps] | with_reducible intro _ | (split <;> try (rename_i e; have e2 := congrArg Prod.fst e; dsimp only at e2; subst e2)) | dsimp only | simp [h])

@[simp] theorem State.arrived_keeps {o : Out} : (State.arrived s o).Keeps q n ↔ s.Keeps q n := by
  simp [State.arrived, ↓upd_keeps, ↓ite_keeps, ↓res_ite_keeps, ↓ite_keeps_fst]

@[simp] theorem execChainRow_keeps (h : s.Keeps q n) {t : Fin 1200} {chain : BitVec 10} {row : Fin 64} {vals : List (BitVec 40)} {mismatch : Bool} : Res.Keeps q n (execChainRow t chain row vals mismatch s) := by
  simp [execChainRow, ↓upd_keeps, ↓ite_keeps, ↓res_ite_keeps, ↓ite_keeps_fst, h]

@[simp] theorem execVaultRow_keeps (h : s.Keeps q n) {st : Fin 64} {src : BitVec 16} {round : BitVec 16} {row : Fin 64} {vals : RowVals} {ecc : Ecc} {mismatch : Bool} : Res.Keeps q n (execVaultRow st src round row vals ecc mismatch s) := by
  simp [execVaultRow, ↓upd_keeps, ↓ite_keeps, ↓res_ite_keeps, ↓ite_keeps_fst, h]

@[simp] theorem execReduce_keeps (h : s.Keeps q n) {src : BitVec 16} {kind : Byte} {fmt : Byte} {id : BitVec 16} {round : BitVec 16} {row : Byte} {data : List Byte} {ecc : Ecc} {mismatch : Bool} : Res.Keeps q n (execReduce src kind fmt id round row data s ecc mismatch) := by
  simp only [execReduce]
  (repeat' split) <;> simp [h]

@[simp] theorem State.settleGrants_keeps {d : Nat} {n' : Nat} : (State.settleGrants s d n').Keeps q n ↔ s.Keeps q n := by
  simp [State.settleGrants, ↓upd_keeps, ↓ite_keeps, ↓res_ite_keeps, ↓ite_keeps_fst]

@[simp] theorem State.takeGrant_keeps {d : Nat} : (State.takeGrant s d).Keeps q n ↔ s.Keeps q n := by
  simp [State.takeGrant, ↓upd_keeps, ↓ite_keeps, ↓res_ite_keeps, ↓ite_keeps_fst]

@[simp] theorem State.setWaiters_keeps {d : Nat} {l : List (Nat × Nat)} : (State.setWaiters s d l).Keeps q n ↔ s.Keeps q n := by
  simp [State.setWaiters, ↓upd_keeps, ↓ite_keeps, ↓res_ite_keeps, ↓ite_keeps_fst]

@[simp] theorem State.activate_keeps {d : Nat} {kind : Nat} {x : Nat} : (State.activate s d kind x).1.Keeps q n ↔ s.Keeps q n := by
  simp [State.activate, ↓upd_keeps, ↓ite_keeps, ↓res_ite_keeps, ↓ite_keeps_fst]

@[simp] theorem State.withdraw_keeps (h : s.Keeps q n) {d : Nat} : (State.withdraw s d).Keeps q n := by
  unfold State.withdraw
  repeat' (first | assumption | with_reducible apply State.forEach_keeps_of | with_reducible apply State.launchNext_keeps | with_reducible apply foldl_keeps_of | rw [ok_keeps] | rw [next_keeps] | with_reducible intro _ | (split <;> try (rename_i e; have e2 := congrArg Prod.fst e; dsimp only at e2; subst e2)) | dsimp only | simp [h])

@[simp] theorem State.activated_keeps {kind : Nat} {x : Nat} : (State.activated s kind x).Keeps q n ↔ s.Keeps q n := by
  simp only [State.activated]
  (repeat' split) <;> simp

@[simp] theorem execPowerGrant_keeps (h : s.Keeps q n) {d : Fin 8} : Res.Keeps q n (execPowerGrant d s) := by
  simp only [execPowerGrant]
  (repeat' split) <;> simp [h]

end Sys2Proof.Machine
end

