-- ==== Sys2Proof/Laws/KeepsTiles.lean ====
section
/-! SUPPORT. What the functions of the engines of a tile keep (KeepsBase). -/

set_option linter.all false

namespace Sys2Proof.Machine

variable {q : List Instr} {n : Nat} {s : State}

@[simp] theorem State.mFault_keeps {t : Nat} {code : Nat} {pc : Nat} {ecc : Option Nat} : (State.mFault s t code pc ecc).Keeps q n ↔ s.Keeps q n := by
  simp [State.mFault, ↓upd_keeps, ↓ite_keeps, ↓res_ite_keeps, ↓ite_keeps_fst]

theorem State.withEcc_keeps_of (h : s.Keeps q n) {t : Nat} {e : Ecc} (bad : Nat → State → State) (good : State → State)
    (hb : ∀ w a, State.Keeps q n a → (bad w a).Keeps q n) (hg : ∀ a, State.Keeps q n a → (good a).Keeps q n) :
    (State.withEcc s t e bad good).Keeps q n := by
  unfold State.withEcc
  split
  · exact hg _ h
  · exact hg _ (by simp [h])
  · exact hb _ _ h

@[simp] theorem State.mmaEnd_keeps {t : Nat} : (State.mmaEnd s t).Keeps q n ↔ s.Keeps q n := by
  simp only [State.mmaEnd]
  (repeat' split) <;> simp

@[simp] theorem State.drainSpad_keeps {t : Nat} {c : Cmd} {rows : List (List Byte)} {n' : Nat} : (State.drainSpad s t c rows n').Keeps q n ↔ s.Keeps q n := by
  simp [State.drainSpad, ↓upd_keeps, ↓ite_keeps, ↓res_ite_keeps, ↓ite_keeps_fst]

@[simp] theorem State.drainGlobal_keeps {t : Nat} {c : Cmd} {rows : List (List Byte)} : (State.drainGlobal s t c rows).Keeps q n ↔ s.Keeps q n := by
  simp [State.drainGlobal, ↓upd_keeps, ↓ite_keeps, ↓res_ite_keeps, ↓ite_keeps_fst]

@[simp] theorem State.drainReduce_keeps (h : s.Keeps q n) {t : Nat} {c : Cmd} {cells : List Nat} : (State.drainReduce s t c cells).Keeps q n := by
  simp [State.drainReduce, ↓upd_keeps, ↓ite_keeps, ↓res_ite_keeps, ↓ite_keeps_fst, h]

@[simp] theorem State.drainRun_keeps (h : s.Keeps q n) {t : Nat} {c : Cmd} : (State.drainRun s t c).Keeps q n := by
  simp [State.drainRun, ↓upd_keeps, ↓ite_keeps, ↓res_ite_keeps, ↓ite_keeps_fst, h]

@[simp] theorem State.mBegin_keeps {t : Nat} {c : Cmd} : (State.mBegin s t c).Keeps q n ↔ s.Keeps q n := by
  simp [State.mBegin, ↓upd_keeps, ↓ite_keeps, ↓res_ite_keeps, ↓ite_keeps_fst]

@[simp] theorem State.mRow_keeps {t : Nat} {op : Nat} (f : State → Cmd → State) (hf : ∀ a x0, (f a x0).Keeps q n ↔ State.Keeps q n a) : (State.mRow s t op f).Keeps q n ↔ s.Keeps q n := by
  simp only [State.mRow]
  (repeat' split) <;> simp_all

theorem State.mRow_keeps_of (h : s.Keeps q n) {t : Nat} {op : Nat} (f : State → Cmd → State) (hf : ∀ a x0, State.Keeps q n a → (f a x0).Keeps q n) : (State.mRow s t op f).Keeps q n := by
  unfold State.mRow
  repeat' (first | assumption | with_reducible apply hf | with_reducible apply foldl_keeps_of | rw [ok_keeps] | rw [next_keeps] | with_reducible intro _ | (split <;> try (rename_i e; have e2 := congrArg Prod.fst e; dsimp only at e2; subst e2)) | dsimp only | simp [h])

@[simp] theorem execMNop_keeps (h : s.Keeps q n) {t : Fin 1200} : Res.Keeps q n (execMNop t s) := by
  simp [execMNop, ↓upd_keeps, ↓ite_keeps, ↓res_ite_keeps, ↓ite_keeps_fst, h]

@[simp] theorem execMCfg_keeps (h : s.Keeps q n) {t : Fin 1200} : Res.Keeps q n (execMCfg t s) := by
  simp [execMCfg, ↓upd_keeps, ↓ite_keeps, ↓res_ite_keeps, ↓ite_keeps_fst, h]

@[simp] theorem execMSeed_keeps (h : s.Keeps q n) {t : Fin 1200} {ecc : Ecc} : Res.Keeps q n (execMSeed t ecc s) := by
  unfold execMSeed
  repeat' (first | assumption | with_reducible apply State.mRow_keeps_of | with_reducible apply State.withEcc_keeps_of | with_reducible apply foldl_keeps_of | rw [ok_keeps] | rw [next_keeps] | with_reducible intro _ | (split <;> try (rename_i e; have e2 := congrArg Prod.fst e; dsimp only at e2; subst e2)) | dsimp only | simp [h])

@[simp] theorem execMMma_keeps (h : s.Keeps q n) {t : Fin 1200} {ecc : Ecc} : Res.Keeps q n (execMMma t ecc s) := by
  unfold execMMma
  repeat' (first | assumption | with_reducible apply State.mRow_keeps_of | with_reducible apply State.withEcc_keeps_of | with_reducible apply foldl_keeps_of | rw [ok_keeps] | rw [next_keeps] | with_reducible intro _ | (split <;> try (rename_i e; have e2 := congrArg Prod.fst e; dsimp only at e2; subst e2)) | dsimp only | simp [h])

@[simp] theorem execMDrain_keeps (h : s.Keeps q n) {t : Fin 1200} {ecc : Ecc} {upset : List (Nat × BitVec 40)} : Res.Keeps q n (execMDrain t ecc upset s) := by
  unfold execMDrain
  split
  · simpa using h
  · rw [ok_keeps]
    refine State.mRow_keeps_of h _ fun a c ha => ?_
    dsimp only
    exact State.withEcc_keeps_of (by simp [ha]) _ _ (fun w d hd => by simp [hd]) (fun d hd => State.drainRun_keeps hd)

@[simp] theorem execArrayClockGate_keeps (h : s.Keeps q n) {t : Fin 1200} : Res.Keeps q n (execArrayClockGate t s) := by
  simp [execArrayClockGate, ↓upd_keeps, ↓ite_keeps, ↓res_ite_keeps, ↓ite_keeps_fst, h]

@[simp] theorem State.vFault_keeps {t : Nat} {code : Nat} {iter : Nat} {word : Nat} {pc : Nat} {ecc : Option Nat} : (State.vFault s t code iter word pc ecc).Keeps q n ↔ s.Keeps q n := by
  simp [State.vFault, ↓upd_keeps, ↓ite_keeps, ↓res_ite_keeps, ↓ite_keeps_fst]

@[simp] theorem State.vBegin_keeps {t : Nat} {c : Cmd} : (State.vBegin s t c).Keeps q n ↔ s.Keeps q n := by
  simp [State.vBegin, ↓upd_keeps, ↓ite_keeps, ↓res_ite_keeps, ↓ite_keeps_fst]

@[simp] theorem State.vRow_keeps {t : Nat} {op : Nat} (f : State → Cmd → State) (hf : ∀ a x0, (f a x0).Keeps q n ↔ State.Keeps q n a) : (State.vRow s t op f).Keeps q n ↔ s.Keeps q n := by
  simp only [State.vRow]
  (repeat' split) <;> simp_all

theorem State.vRow_keeps_of (h : s.Keeps q n) {t : Nat} {op : Nat} (f : State → Cmd → State) (hf : ∀ a x0, State.Keeps q n a → (f a x0).Keeps q n) : (State.vRow s t op f).Keeps q n := by
  unfold State.vRow
  repeat' (first | assumption | with_reducible apply hf | with_reducible apply foldl_keeps_of | rw [ok_keeps] | rw [next_keeps] | with_reducible intro _ | (split <;> try (rename_i e; have e2 := congrArg Prod.fst e; dsimp only at e2; subst e2)) | dsimp only | simp [h])

@[simp] theorem execVNop_keeps (h : s.Keeps q n) {t : Fin 1200} : Res.Keeps q n (execVNop t s) := by
  simp [execVNop, ↓upd_keeps, ↓ite_keeps, ↓res_ite_keeps, ↓ite_keeps_fst, h]

theorem VRun.mem_keeps {r : VRun} (h : r.st.Keeps q n) {t it k w : Nat} : (r.mem t it k w).st.Keeps q n := by
  unfold VRun.mem
  dsimp only
  repeat' split
  all_goals simp [h]

theorem VRun.word_keeps {r : VRun} (h : r.st.Keeps q n) {t it k w : Nat} {d : Draws} : (r.word t it k w d).st.Keeps q n := by
  unfold VRun.word
  repeat' split
  all_goals first | exact h | exact VRun.mem_keeps h | simp [h]

theorem VRun.iters_keeps {r : VRun} (h : r.st.Keeps q n) {t : Nat} {ws : List Nat} {d : Draws} {per m it : Nat} :
    (r.iters t ws d per m it).st.Keeps q n := by
  induction m generalizing r it with
  | zero => exact h
  | succ m ih =>
    refine ih ?_
    generalize (List.range ws.length).zip ws = l
    induction l generalizing r with
    | nil => exact h
    | cons p l il => exact il (VRun.word_keeps h)

@[simp] theorem execVRun_keeps (h : s.Keeps q n) {t : Fin 1200} {ecc : Ecc} : Res.Keeps q n (execVRun t ecc s) := by
  unfold execVRun
  rw [ok_keeps]
  refine State.vRow_keeps_of h _ fun a c ha => ?_
  dsimp only
  generalize hr : VRun.iters { st := a, ecc := ecc } t c.words _ _ (c.f2 16) 0 = r
  have k : r.st.Keeps q n := by rw [← hr]; exact VRun.iters_keeps ha
  split <;> simp [k]

@[simp] theorem execVMv_keeps (h : s.Keeps q n) {t : Fin 1200} {ecc : Ecc} : Res.Keeps q n (execVMv t ecc s) := by
  unfold execVMv
  repeat' (first | assumption | with_reducible apply State.vRow_keeps_of | with_reducible apply State.withEcc_keeps_of | with_reducible apply foldl_keeps_of | rw [ok_keeps] | rw [next_keeps] | with_reducible intro _ | (split <;> try (rename_i e; have e2 := congrArg Prod.fst e; dsimp only at e2; subst e2)) | dsimp only | simp [h])

@[simp] theorem execVProbe_keeps (h : s.Keeps q n) {m : Master} {t : Fin 1200} {size : Nat} {ctr : Dword} : Res.Keeps q n (execVProbe m t size ctr s) := by
  simp [execVProbe, ↓upd_keeps, ↓ite_keeps, ↓res_ite_keeps, ↓ite_keeps_fst, h]

@[simp] theorem State.setByHand_keeps {t : Nat} {c : Nat} {v : Nat} {master : Nat} : (State.setByHand s t c v master).Keeps q n ↔ s.Keeps q n := by
  simp [State.setByHand, ↓upd_keeps, ↓ite_keeps, ↓res_ite_keeps, ↓ite_keeps_fst]

@[simp] theorem State.refuseSet_keeps {t : Nat} {m : Nat} {c : Nat} {v : Nat} : (State.refuseSet s t m c v).Keeps q n ↔ s.Keeps q n := by
  simp [State.refuseSet, ↓upd_keeps, ↓ite_keeps, ↓res_ite_keeps, ↓ite_keeps_fst]

@[simp] theorem State.syncSet_keeps {m : Option Master} {t : Nat} {c : Nat} {v : Nat} : (State.syncSet s m t c v).Keeps q n ↔ s.Keeps q n := by
  simp [State.syncSet, ↓upd_keeps, ↓ite_keeps, ↓res_ite_keeps, ↓ite_keeps_fst]

@[simp] theorem State.syncSignal_keeps {m : Option Master} {src : Node} {t : Nat} {c : Nat} {n' : Nat} : (State.syncSignal s m src t c n').Keeps q n ↔ s.Keeps q n := by
  simp only [State.syncSignal]
  (repeat' split) <;> simp

@[simp] theorem State.dumpHold_keeps {t : Nat} {v : Nat} : (State.dumpHold s t v).Keeps q n ↔ s.Keeps q n := by
  simp [State.dumpHold, ↓upd_keeps, ↓ite_keeps, ↓res_ite_keeps, ↓ite_keeps_fst]

@[simp] theorem State.tileWrite_keeps {m : Option Master} {t : Nat} {o : Nat} {size : Nat} {v : Nat} {src : Node} : (State.tileWrite s m t o size v src).Keeps q n ↔ s.Keeps q n := by
  simp only [State.tileWrite]
  (repeat' split) <;> simp

@[simp] theorem execTileSyncSignal_keeps (h : s.Keeps q n) {m : Master} {t : Fin 1200} {size : Nat} {ctr : Byte} {n' : Word} : Res.Keeps q n (execTileSyncSignal m t size ctr n' s) := by
  simp [execTileSyncSignal, ↓upd_keeps, ↓ite_keeps, ↓res_ite_keeps, ↓ite_keeps_fst, h]

@[simp] theorem execTileSyncSet_keeps (h : s.Keeps q n) {m : Master} {t : Fin 1200} {size : Nat} {ctr : Byte} {v : Word} : Res.Keeps q n (execTileSyncSet m t size ctr v s) := by
  simp [execTileSyncSet, ↓upd_keeps, ↓ite_keeps, ↓res_ite_keeps, ↓ite_keeps_fst, h]

@[simp] theorem execDbgSyncSet_keeps (h : s.Keeps q n) {m : Master} {size : Nat} {tile : BitVec 11} {ctr : Byte} {v : Word} : Res.Keeps q n (execDbgSyncSet m size tile ctr v s) := by
  simp [execDbgSyncSet, ↓upd_keeps, ↓ite_keeps, ↓res_ite_keeps, ↓ite_keeps_fst, h]

@[simp] theorem execDigCfgWrite_keeps (h : s.Keeps q n) {m : Master} {t : Fin 1200} {n' : Fin 16} {size : Nat} {high : Bool} {v : Dword} : Res.Keeps q n (execDigCfgWrite m t n' size high v s) := by
  simp [execDigCfgWrite, ↓upd_keeps, ↓ite_keeps, ↓res_ite_keeps, ↓ite_keeps_fst, h]

@[simp] theorem State.cacheParity_keeps {t : Nat} {a : Nat} : (State.cacheParity s t a).Keeps q n ↔ s.Keeps q n := by
  simp [State.cacheParity, ↓upd_keeps, ↓ite_keeps, ↓res_ite_keeps, ↓ite_keeps_fst]

@[simp] theorem State.sFault_keeps {t : Nat} {cause : Nat} {pc : Nat} {trap : Nat} {ecc : Option Nat} : (State.sFault s t cause pc trap ecc).Keeps q n ↔ s.Keeps q n := by
  simp [State.sFault, ↓upd_keeps, ↓ite_keeps, ↓res_ite_keeps, ↓ite_keeps_fst]

@[simp] theorem State.sStall_keeps {t : Nat} {kind : Nat} : (State.sStall s t kind).Keeps q n ↔ s.Keeps q n := by
  simp [State.sStall, ↓upd_keeps, ↓ite_keeps, ↓res_ite_keeps, ↓ite_keeps_fst]

@[simp] theorem State.fetchLine_keeps {t : Nat} : (State.fetchLine s t).Keeps q n ↔ s.Keeps q n := by
  simp [State.fetchLine, ↓upd_keeps, ↓ite_keeps, ↓res_ite_keeps, ↓ite_keeps_fst]

@[simp] theorem State.sAt_keeps {i : SIssue} {op : Nat} : (State.sAt s i op).Keeps q n ↔ s.Keeps q n := by
  simp [State.sAt, ↓upd_keeps, ↓ite_keeps, ↓res_ite_keeps, ↓ite_keeps_fst]

@[simp] theorem State.sRow_keeps {i : SIssue} {op : Nat} (f : State → Nat → State) (hf : ∀ a x0, (f a x0).Keeps q n ↔ State.Keeps q n a) : (State.sRow s i op f).Keeps q n ↔ s.Keeps q n := by
  have c : (s.sAt i op).Keeps q n ↔ s.Keeps q n := State.sAt_keeps
  unfold State.sRow
  dsimp only
  generalize s.sAt i op = r at c ⊢
  rw [← c]
  (repeat' split) <;> simp [hf]

theorem State.sRow_keeps_of (h : s.Keeps q n) {i : SIssue} {op : Nat} (f : State → Nat → State) (hf : ∀ a x0, State.Keeps q n a → (f a x0).Keeps q n) : (State.sRow s i op f).Keeps q n := by
  have c : (s.sAt i op).Keeps q n := State.sAt_keeps.2 h
  unfold State.sRow
  dsimp only
  generalize s.sAt i op = r at c ⊢
  repeat' (split <;> try first | assumption | (simp [c]; done) | (exact hf _ _ (by simp [c])))

@[simp] theorem State.sTile_keeps {i : SIssue} {op : Nat} {f : Tile → Nat → Tile} : (State.sTile s i op f).Keeps q n ↔ s.Keeps q n := by
  simp [State.sTile, ↓upd_keeps, ↓ite_keeps, ↓res_ite_keeps, ↓ite_keeps_fst]

@[simp] theorem execAlu_keeps (h : s.Keeps q n) {i : SIssue} : Res.Keeps q n (execAlu i s) := by
  simp [execAlu, ↓upd_keeps, ↓ite_keeps, ↓res_ite_keeps, ↓ite_keeps_fst, h]

@[simp] theorem execAddi_keeps (h : s.Keeps q n) {i : SIssue} : Res.Keeps q n (execAddi i s) := by
  simp [execAddi, ↓upd_keeps, ↓ite_keeps, ↓res_ite_keeps, ↓ite_keeps_fst, h]

@[simp] theorem execAndi_keeps (h : s.Keeps q n) {i : SIssue} : Res.Keeps q n (execAndi i s) := by
  simp [execAndi, ↓upd_keeps, ↓ite_keeps, ↓res_ite_keeps, ↓ite_keeps_fst, h]

@[simp] theorem execOri_keeps (h : s.Keeps q n) {i : SIssue} : Res.Keeps q n (execOri i s) := by
  simp [execOri, ↓upd_keeps, ↓ite_keeps, ↓res_ite_keeps, ↓ite_keeps_fst, h]

@[simp] theorem execXori_keeps (h : s.Keeps q n) {i : SIssue} : Res.Keeps q n (execXori i s) := by
  simp [execXori, ↓upd_keeps, ↓ite_keeps, ↓res_ite_keeps, ↓ite_keeps_fst, h]

@[simp] theorem execShi_keeps (h : s.Keeps q n) {i : SIssue} : Res.Keeps q n (execShi i s) := by
  simp [execShi, ↓upd_keeps, ↓ite_keeps, ↓res_ite_keeps, ↓ite_keeps_fst, h]

@[simp] theorem execLui_keeps (h : s.Keeps q n) {i : SIssue} : Res.Keeps q n (execLui i s) := by
  simp [execLui, ↓upd_keeps, ↓ite_keeps, ↓res_ite_keeps, ↓ite_keeps_fst, h]

@[simp] theorem State.sSpad_keeps {t : Nat} {a : Nat} {pc : Nat} (f : State → State) (hf : ∀ a , (f a ).Keeps q n ↔ State.Keeps q n a) : (State.sSpad s t a pc f).Keeps q n ↔ s.Keeps q n := by
  simp [State.sSpad, ↓upd_keeps, ↓ite_keeps, ↓res_ite_keeps, ↓ite_keeps_fst, hf]

theorem State.sSpad_keeps_of (h : s.Keeps q n) {t : Nat} {a : Nat} {pc : Nat} (f : State → State) (hf : ∀ a , State.Keeps q n a → (f a ).Keeps q n) : (State.sSpad s t a pc f).Keeps q n := by
  unfold State.sSpad
  repeat' (first | assumption | with_reducible apply hf | with_reducible apply foldl_keeps_of | rw [ok_keeps] | rw [next_keeps] | with_reducible intro _ | (split <;> try (rename_i e; have e2 := congrArg Prod.fst e; dsimp only at e2; subst e2)) | dsimp only | simp [h])

@[simp] theorem execLdW_keeps (h : s.Keeps q n) {i : SIssue} : Res.Keeps q n (execLdW i s) := by
  unfold execLdW
  repeat' (first | assumption | with_reducible apply State.sRow_keeps_of | with_reducible apply State.sSpad_keeps_of | with_reducible apply State.withEcc_keeps_of | with_reducible apply foldl_keeps_of | rw [ok_keeps] | rw [next_keeps] | with_reducible intro _ | (split <;> try (rename_i e; have e2 := congrArg Prod.fst e; dsimp only at e2; subst e2)) | dsimp only | simp [h])

@[simp] theorem execStW_keeps (h : s.Keeps q n) {i : SIssue} : Res.Keeps q n (execStW i s) := by
  simp [execStW, ↓upd_keeps, ↓ite_keeps, ↓res_ite_keeps, ↓ite_keeps_fst, h]

@[simp] theorem State.issueLoad_keeps {t : Nat} {kind : Nat} {pc : Nat} {rd : Nat} {a : Nat} : (State.issueLoad s t kind pc rd a).Keeps q n ↔ s.Keeps q n := by
  simp [State.issueLoad, ↓upd_keeps, ↓ite_keeps, ↓res_ite_keeps, ↓ite_keeps_fst]

@[simp] theorem execLdG_keeps (h : s.Keeps q n) {i : SIssue} : Res.Keeps q n (execLdG i s) := by
  unfold execLdG
  repeat' (first | assumption | with_reducible apply State.sRow_keeps_of | with_reducible apply foldl_keeps_of | rw [ok_keeps] | rw [next_keeps] | with_reducible intro _ | (split <;> try (rename_i e; have e2 := congrArg Prod.fst e; dsimp only at e2; subst e2)) | dsimp only | simp [h])

@[simp] theorem execLdGc_keeps (h : s.Keeps q n) {i : SIssue} : Res.Keeps q n (execLdGc i s) := by
  unfold execLdGc
  rw [ok_keeps]
  refine State.sRow_keeps_of h _ fun a pc ha => ?_
  dsimp only
  split
  · simp [ha]
  split
  · split <;> simp [h, ha]
  · split
    · simp [ha]
    · split <;> simp [h, ha]

@[simp] theorem execStG_keeps (h : s.Keeps q n) {i : SIssue} : Res.Keeps q n (execStG i s) := by
  unfold execStG
  repeat' (first | assumption | with_reducible apply State.sRow_keeps_of | with_reducible apply foldl_keeps_of | rw [ok_keeps] | rw [next_keeps] | with_reducible intro _ | (split <;> try (rename_i e; have e2 := congrArg Prod.fst e; dsimp only at e2; subst e2)) | dsimp only | simp [h])

@[simp] theorem State.sReg_keeps {i : SIssue} {op : Nat} {size : Nat} (f : State → Tile → Nat → State) (hf : ∀ a x0 x1, (f a x0 x1).Keeps q n ↔ State.Keeps q n a) : (State.sReg s i op size f).Keeps q n ↔ s.Keeps q n := by
  unfold State.sReg
  exact State.sRow_keeps _ fun a pc => by dsimp only; split <;> simp [hf]

theorem State.sReg_keeps_of (h : s.Keeps q n) {i : SIssue} {op : Nat} {size : Nat} (f : State → Tile → Nat → State) (hf : ∀ a x0 x1, State.Keeps q n a → (f a x0 x1).Keeps q n) : (State.sReg s i op size f).Keeps q n := by
  unfold State.sReg
  exact State.sRow_keeps_of h _ fun a pc ha => by dsimp only; split <;> [exact hf _ _ _ ha; simp [ha]]

@[simp] theorem execRegR_keeps (h : s.Keeps q n) {i : SIssue} : Res.Keeps q n (execRegR i s) := by
  simp [execRegR, ↓upd_keeps, ↓ite_keeps, ↓res_ite_keeps, ↓ite_keeps_fst, h]

@[simp] theorem execRegW_keeps (h : s.Keeps q n) {i : SIssue} : Res.Keeps q n (execRegW i s) := by
  simp [execRegW, ↓upd_keeps, ↓ite_keeps, ↓res_ite_keeps, ↓ite_keeps_fst, h]

@[simp] theorem execRegR64_keeps (h : s.Keeps q n) {i : SIssue} : Res.Keeps q n (execRegR64 i s) := by
  simp [execRegR64, ↓upd_keeps, ↓ite_keeps, ↓res_ite_keeps, ↓ite_keeps_fst, h]

@[simp] theorem execRegW64_keeps (h : s.Keeps q n) {i : SIssue} : Res.Keeps q n (execRegW64 i s) := by
  simp [execRegW64, ↓upd_keeps, ↓ite_keeps, ↓res_ite_keeps, ↓ite_keeps_fst, h]

@[simp] theorem State.sBranch_keeps {i : SIssue} {op : Nat} {cmp : Nat → Nat → Bool} : (State.sBranch s i op cmp).Keeps q n ↔ s.Keeps q n := by
  simp [State.sBranch, ↓upd_keeps, ↓ite_keeps, ↓res_ite_keeps, ↓ite_keeps_fst]

@[simp] theorem execBeq_keeps (h : s.Keeps q n) {i : SIssue} : Res.Keeps q n (execBeq i s) := by
  simp [execBeq, ↓upd_keeps, ↓ite_keeps, ↓res_ite_keeps, ↓ite_keeps_fst, h]

@[simp] theorem execBne_keeps (h : s.Keeps q n) {i : SIssue} : Res.Keeps q n (execBne i s) := by
  simp [execBne, ↓upd_keeps, ↓ite_keeps, ↓res_ite_keeps, ↓ite_keeps_fst, h]

@[simp] theorem execBlt_keeps (h : s.Keeps q n) {i : SIssue} : Res.Keeps q n (execBlt i s) := by
  simp [execBlt, ↓upd_keeps, ↓ite_keeps, ↓res_ite_keeps, ↓ite_keeps_fst, h]

@[simp] theorem execBge_keeps (h : s.Keeps q n) {i : SIssue} : Res.Keeps q n (execBge i s) := by
  simp [execBge, ↓upd_keeps, ↓ite_keeps, ↓res_ite_keeps, ↓ite_keeps_fst, h]

@[simp] theorem execBltu_keeps (h : s.Keeps q n) {i : SIssue} : Res.Keeps q n (execBltu i s) := by
  simp [execBltu, ↓upd_keeps, ↓ite_keeps, ↓res_ite_keeps, ↓ite_keeps_fst, h]

@[simp] theorem execBgeu_keeps (h : s.Keeps q n) {i : SIssue} : Res.Keeps q n (execBgeu i s) := by
  simp [execBgeu, ↓upd_keeps, ↓ite_keeps, ↓res_ite_keeps, ↓ite_keeps_fst, h]

@[simp] theorem execJal_keeps (h : s.Keeps q n) {i : SIssue} : Res.Keeps q n (execJal i s) := by
  simp [execJal, ↓upd_keeps, ↓ite_keeps, ↓res_ite_keeps, ↓ite_keeps_fst, h]

@[simp] theorem execJalr_keeps (h : s.Keeps q n) {i : SIssue} : Res.Keeps q n (execJalr i s) := by
  simp [execJalr, ↓upd_keeps, ↓ite_keeps, ↓res_ite_keeps, ↓ite_keeps_fst, h]

@[simp] theorem execCw_keeps (h : s.Keeps q n) {i : SIssue} : Res.Keeps q n (execCw i s) := by
  simp [execCw, ↓upd_keeps, ↓ite_keeps, ↓res_ite_keeps, ↓ite_keeps_fst, h]

@[simp] theorem execEnq_keeps (h : s.Keeps q n) {i : SIssue} : Res.Keeps q n (execEnq i s) := by
  simp [execEnq, ↓upd_keeps, ↓ite_keeps, ↓res_ite_keeps, ↓ite_keeps_fst, h]

@[simp] theorem execEnqs_keeps (h : s.Keeps q n) {i : SIssue} : Res.Keeps q n (execEnqs i s) := by
  unfold execEnqs
  repeat' (first | assumption | with_reducible apply State.sRow_keeps_of | with_reducible apply State.withEcc_keeps_of | with_reducible apply foldl_keeps_of | rw [ok_keeps] | rw [next_keeps] | with_reducible intro _ | (split <;> try (rename_i e; have e2 := congrArg Prod.fst e; dsimp only at e2; subst e2)) | dsimp only | simp [h])

@[simp] theorem execSignal_keeps (h : s.Keeps q n) {i : SIssue} : Res.Keeps q n (execSignal i s) := by
  simp [execSignal, ↓upd_keeps, ↓ite_keeps, ↓res_ite_keeps, ↓ite_keeps_fst, h]

@[simp] theorem execSignalR_keeps (h : s.Keeps q n) {i : SIssue} : Res.Keeps q n (execSignalR i s) := by
  unfold execSignalR
  repeat' (first | assumption | with_reducible apply State.sRow_keeps_of | with_reducible apply foldl_keeps_of | rw [ok_keeps] | rw [next_keeps] | with_reducible intro _ | (split <;> try (rename_i e; have e2 := congrArg Prod.fst e; dsimp only at e2; subst e2)) | dsimp only | simp [h])

@[simp] theorem execWait_keeps (h : s.Keeps q n) {i : SIssue} : Res.Keeps q n (execWait i s) := by
  simp [execWait, ↓upd_keeps, ↓ite_keeps, ↓res_ite_keeps, ↓ite_keeps_fst, h]

@[simp] theorem execWaitAcq_keeps (h : s.Keeps q n) {i : SIssue} : Res.Keeps q n (execWaitAcq i s) := by
  simp [execWaitAcq, ↓upd_keeps, ↓ite_keeps, ↓res_ite_keeps, ↓ite_keeps_fst, h]

@[simp] theorem State.takeFrom_keeps {t : Nat} {c : Nat} {n' : Nat} : (State.takeFrom s t c n').Keeps q n ↔ s.Keeps q n := by
  simp [State.takeFrom, ↓upd_keeps, ↓ite_keeps, ↓res_ite_keeps, ↓ite_keeps_fst]

@[simp] theorem execTake_keeps (h : s.Keeps q n) {i : SIssue} : Res.Keeps q n (execTake i s) := by
  simp [execTake, ↓upd_keeps, ↓ite_keeps, ↓res_ite_keeps, ↓ite_keeps_fst, h]

@[simp] theorem execSet_keeps (h : s.Keeps q n) {i : SIssue} : Res.Keeps q n (execSet i s) := by
  simp [execSet, ↓upd_keeps, ↓ite_keeps, ↓res_ite_keeps, ↓ite_keeps_fst, h]

@[simp] theorem execLwait_keeps (h : s.Keeps q n) {i : SIssue} : Res.Keeps q n (execLwait i s) := by
  simp [execLwait, ↓upd_keeps, ↓ite_keeps, ↓res_ite_keeps, ↓ite_keeps_fst, h]

@[simp] theorem execLwaitAcq_keeps (h : s.Keeps q n) {i : SIssue} : Res.Keeps q n (execLwaitAcq i s) := by
  simp [execLwaitAcq, ↓upd_keeps, ↓ite_keeps, ↓res_ite_keeps, ↓ite_keeps_fst, h]

@[simp] theorem execFenceLocal_keeps (h : s.Keeps q n) {i : SIssue} : Res.Keeps q n (execFenceLocal i s) := by
  simp [execFenceLocal, ↓upd_keeps, ↓ite_keeps, ↓res_ite_keeps, ↓ite_keeps_fst, h]

@[simp] theorem execFenceRemote_keeps (h : s.Keeps q n) {i : SIssue} : Res.Keeps q n (execFenceRemote i s) := by
  simp [execFenceRemote, ↓upd_keeps, ↓ite_keeps, ↓res_ite_keeps, ↓ite_keeps_fst, h]

@[simp] theorem execCinvRemote_keeps (h : s.Keeps q n) {i : SIssue} : Res.Keeps q n (execCinvRemote i s) := by
  simp [execCinvRemote, ↓upd_keeps, ↓ite_keeps, ↓res_ite_keeps, ↓ite_keeps_fst, h]

@[simp] theorem execCinvAll_keeps (h : s.Keeps q n) {i : SIssue} : Res.Keeps q n (execCinvAll i s) := by
  simp [execCinvAll, ↓upd_keeps, ↓ite_keeps, ↓res_ite_keeps, ↓ite_keeps_fst, h]

@[simp] theorem execTime_keeps (h : s.Keeps q n) {i : SIssue} : Res.Keeps q n (execTime i s) := by
  simp [execTime, ↓upd_keeps, ↓ite_keeps, ↓res_ite_keeps, ↓ite_keeps_fst, h]

@[simp] theorem execEvt_keeps (h : s.Keeps q n) {i : SIssue} : Res.Keeps q n (execEvt i s) := by
  simp [execEvt, ↓upd_keeps, ↓ite_keeps, ↓res_ite_keeps, ↓ite_keeps_fst, h]

@[simp] theorem execTrap_keeps (h : s.Keeps q n) {i : SIssue} : Res.Keeps q n (execTrap i s) := by
  simp [execTrap, ↓upd_keeps, ↓ite_keeps, ↓res_ite_keeps, ↓ite_keeps_fst, h]

@[simp] theorem execHalt_keeps (h : s.Keeps q n) {i : SIssue} : Res.Keeps q n (execHalt i s) := by
  simp [execHalt, ↓upd_keeps, ↓ite_keeps, ↓res_ite_keeps, ↓ite_keeps_fst, h]

@[simp] theorem State.dFault_keeps {t : Nat} {code : Nat} {addr : Option Nat} {pc : Nat} {ecc : Option Nat} : (State.dFault s t code addr pc ecc).Keeps q n ↔ s.Keeps q n := by
  simp [State.dFault, ↓upd_keeps, ↓ite_keeps, ↓res_ite_keeps, ↓ite_keeps_fst]

theorem State.dWriteOne_keeps {t : Nat} {d : DCmd} {i : Nat} {b : List Byte} {rest : List (Nat × List Byte)} : ∀ u, (State.dWriteOne s t d i b rest) = some u → (u.Keeps q n ↔ s.Keeps q n) := by
  intro u e
  simp only [State.dWriteOne] at e
  (repeat' split at e) <;> (try contradiction) <;> simp only [Option.some.injEq] at e <;> subst e <;> simp

theorem State.dFetchOne_keeps {t : Nat} {d : DCmd} : ∀ u, (State.dFetchOne s t d) = some u → (u.Keeps q n ↔ s.Keeps q n) := by
  intro u e
  simp only [State.dFetchOne] at e
  (repeat' split at e) <;> (try contradiction) <;> simp only [Option.some.injEq] at e <;> subst e <;> simp

@[simp] theorem State.dFlush_keeps {t : Nat} {d : DCmd} {a : Nat} : (State.dFlush s t d a).Keeps q n ↔ s.Keeps q n := by
  simp [State.dFlush, ↓upd_keeps, ↓ite_keeps, ↓res_ite_keeps, ↓ite_keeps_fst]

theorem State.dStep_keeps {t : Nat} : ∀ u, (State.dStep s t) = some u → (u.Keeps q n ↔ s.Keeps q n) := by
  intro u e
  unfold State.dStep at e
  dsimp only at e
  split at e
  · exact State.dWriteOne_keeps _ e
  split at e
  · split at e
    · cases e
    · cases e; simp
  split at e
  · exact State.dFetchOne_keeps _ e
  · cases e

@[simp] theorem State.dActs_keeps {t : Nat} {i0 : Nat} : (State.dActs s t i0).Keeps q n ↔ s.Keeps q n := by
  induction i0 generalizing s with
  | zero => rfl
  | succ k ih =>
    unfold State.dActs
    split
    · rfl
    · rw [ih]; exact State.dStep_keeps _ (by assumption)

@[simp] theorem State.dPump_keeps {t : Nat} : (State.dPump s t).Keeps q n ↔ s.Keeps q n := by
  simp [State.dPump, ↓upd_keeps, ↓ite_keeps, ↓res_ite_keeps, ↓ite_keeps_fst]

@[simp] theorem State.dPumpAll_keeps : (State.dPumpAll s).Keeps q n ↔ s.Keeps q n := by
  simp [State.dPumpAll, ↓upd_keeps, ↓ite_keeps, ↓res_ite_keeps, ↓ite_keeps_fst]

@[simp] theorem State.dBegin_keeps {t : Nat} {c : Cmd} {p : List Byte} {dig : Option (Nat × Nat)} {ecc : Ecc} : (State.dBegin s t c p dig ecc).Keeps q n ↔ s.Keeps q n := by
  simp [State.dBegin, ↓upd_keeps, ↓ite_keeps, ↓res_ite_keeps, ↓ite_keeps_fst]

@[simp] theorem State.dRowOf_keeps {t : Nat} {op : Nat} (f : State → Cmd → State) (hf : ∀ a x0, (f a x0).Keeps q n ↔ State.Keeps q n a) : (State.dRowOf s t op f).Keeps q n ↔ s.Keeps q n := by
  simp only [State.dRowOf]
  (repeat' split) <;> simp_all

theorem State.dRowOf_keeps_of (h : s.Keeps q n) {t : Nat} {op : Nat} (f : State → Cmd → State) (hf : ∀ a x0, State.Keeps q n a → (f a x0).Keeps q n) : (State.dRowOf s t op f).Keeps q n := by
  unfold State.dRowOf
  repeat' (first | assumption | with_reducible apply hf | with_reducible apply foldl_keeps_of | rw [ok_keeps] | rw [next_keeps] | with_reducible intro _ | (split <;> try (rename_i e; have e2 := congrArg Prod.fst e; dsimp only at e2; subst e2)) | dsimp only | simp [h])

@[simp] theorem execDNop_keeps (h : s.Keeps q n) {t : Fin 1200} : Res.Keeps q n (execDNop t s) := by
  simp [execDNop, ↓upd_keeps, ↓ite_keeps, ↓res_ite_keeps, ↓ite_keeps_fst, h]

@[simp] theorem State.dClaim_keeps {t : Nat} {p : List Byte} : (State.dClaim s t p).1.Keeps q n ↔ s.Keeps q n := by
  simp [State.dClaim, ↓upd_keeps, ↓ite_keeps, ↓res_ite_keeps, ↓ite_keeps_fst]

@[simp] theorem State.dStart_keeps {t : Nat} {c : Cmd} {p : List Byte} {ecc : Ecc} : (State.dStart s t c p ecc).Keeps q n ↔ s.Keeps q n := by
  simp [State.dStart, ↓upd_keeps, ↓ite_keeps, ↓res_ite_keeps, ↓ite_keeps_fst]

@[simp] theorem execDCopy_keeps (h : s.Keeps q n) {t : Fin 1200} {ecc : Ecc} : Res.Keeps q n (execDCopy t ecc s) := by
  simp [execDCopy, ↓upd_keeps, ↓ite_keeps, ↓res_ite_keeps, ↓ite_keeps_fst, h]

@[simp] theorem execDRun_keeps (h : s.Keeps q n) {t : Fin 1200} {ecc : Ecc} : Res.Keeps q n (execDRun t ecc s) := by
  simp [execDRun, ↓upd_keeps, ↓ite_keeps, ↓res_ite_keeps, ↓ite_keeps_fst, h]

@[simp] theorem execDDrop_keeps (h : s.Keeps q n) {t : Fin 1200} : Res.Keeps q n (execDDrop t s) := by
  simp [execDDrop, ↓upd_keeps, ↓ite_keeps, ↓res_ite_keeps, ↓ite_keeps_fst, h]

@[simp] theorem State.dComplete_keeps {t : Nat} {k : Nat} : (State.dComplete s t k).Keeps q n ↔ s.Keeps q n := by
  simp only [State.dComplete]
  (repeat' split) <;> simp

@[simp] theorem State.mComplete_keeps {t : Nat} {k : Nat} : (State.mComplete s t k).Keeps q n ↔ s.Keeps q n := by
  simp only [State.mComplete]
  (repeat' split) <;> simp

@[simp] theorem State.vComplete_keeps {t : Nat} : (State.vComplete s t).Keeps q n ↔ s.Keeps q n := by
  simp only [State.vComplete]
  (repeat' split) <;> simp

@[simp] theorem execEngineCommandComplete_keeps (h : s.Keeps q n) {t : Fin 1200} {e : Engine} {k : Nat} : Res.Keeps q n (execEngineCommandComplete t e s k) := by
  simp only [execEngineCommandComplete]
  (repeat' split) <;> simp [h]

@[simp] theorem execDRespTimeout_keeps (h : s.Keeps q n) {t : Fin 1200} {tag : Word} : Res.Keeps q n (execDRespTimeout t tag s) := by
  simp only [execDRespTimeout]
  (repeat' split) <;> simp [h]

@[simp] theorem execDAbortTimeout_keeps (h : s.Keeps q n) {t : Fin 1200} : Res.Keeps q n (execDAbortTimeout t s) := by
  simp [execDAbortTimeout, ↓upd_keeps, ↓ite_keeps, ↓res_ite_keeps, ↓ite_keeps_fst, h]

end Sys2Proof.Machine
end

