-- ==== Sys2Proof/Laws/KeepsMemory.lean ====
section
/-! SUPPORT. What the functions of HBM commands, snapshots, the timebase operations keep (KeepsBase). -/

set_option linter.all false

namespace Sys2Proof.Machine

variable {q : List Instr} {n : Nat} {s : State}

@[simp] theorem State.scrubStore_keeps (h : s.Keeps q n) {pc : Nat} {o : Nat} {data : List Byte} : (State.scrubStore s pc o data).Keeps q n := by
  have c : (s.count (37 + 2 * (pc / 32)) 32).Keeps q n := by simp [h]
  unfold State.scrubStore
  dsimp only
  split
  · exact hbm_keeps c (m := s.hbm.write (hbmKey pc o) data) (fun w => Mem.write_wf (show s.hbm.wf = true from w) _ _) rfl rfl rfl rfl rfl rfl rfl rfl rfl rfl
  · exact hbm_keeps c (m := (s.hbm.write (hbmKey pc o) data).write _ data)
      (fun w => Mem.write_wf (Mem.write_wf (show s.hbm.wf = true from w) _ _) _ _) rfl rfl rfl rfl rfl rfl rfl rfl rfl rfl

@[simp] theorem State.scrubGranule_keeps (h : s.Keeps q n) {pc : Nat} {o : Nat} {errs : List BurstErr} : (State.scrubGranule s pc o errs).Keeps q n := by
  unfold State.scrubGranule
  repeat' (first | assumption | with_reducible apply State.scrubStore_keeps | with_reducible apply foldl_keeps_of | rw [ok_keeps] | rw [next_keeps] | with_reducible intro _ | (split <;> try (rename_i e; have e2 := congrArg Prod.fst e; dsimp only at e2; subst e2)) | dsimp only | simp [h])

@[simp] theorem execHbmScrub_keeps (h : s.Keeps q n) {st : Fin 16} {pc : Fin 32} {errs : List BurstErr} : Res.Keeps q n (execHbmScrub st pc errs s) := by
  simp [execHbmScrub, ↓upd_keeps, ↓ite_keeps, ↓res_ite_keeps, ↓ite_keeps_fst, h]

@[simp] theorem State.hbmHot_keeps {st : Nat} : (State.hbmHot s st).Keeps q n ↔ s.Keeps q n := by
  simp [State.hbmHot, ↓upd_keeps, ↓ite_keeps, ↓res_ite_keeps, ↓ite_keeps_fst]

@[simp] theorem execHbmTempRead_keeps (h : s.Keeps q n) {st : Fin 16} {temp : Byte} : Res.Keeps q n (execHbmTempRead st temp s) := by
  simp [execHbmTempRead, ↓upd_keeps, ↓ite_keeps, ↓res_ite_keeps, ↓ite_keeps_fst, h]

@[simp] theorem execHbmTempClear_keeps (h : s.Keeps q n) {m : Master} {st : Fin 16} : Res.Keeps q n (execHbmTempClear m st s) := by
  simp [execHbmTempClear, ↓upd_keeps, ↓ite_keeps, ↓res_ite_keeps, ↓ite_keeps_fst, h]

@[simp] theorem State.retBusy_keeps {st : Nat} : (State.retBusy s st).Keeps q n ↔ s.Keeps q n := by
  simp [State.retBusy, ↓upd_keeps, ↓ite_keeps, ↓res_ite_keeps, ↓ite_keeps_fst]

@[simp] theorem State.copyBurst_keeps (h : s.Keeps q n) {src : Nat} {dst : Nat} {ue : Bool} : (State.copyBurst s src dst ue).Keeps q n := by
  unfold State.copyBurst
  exact hbm_keeps h (fun w => Mem.write_wf w _ _) rfl rfl rfl rfl rfl rfl rfl rfl rfl rfl

@[simp] theorem State.copyRow_keeps (h : s.Keeps q n) {st : Nat} {e : Retire} {bad : List Nat} : (State.copyRow s st e bad).Keeps q n := by
  unfold State.copyRow
  refine foldl_keeps_of h fun a j ha => ?_
  exact State.copyBurst_keeps (by split <;> simp [ha])

@[simp] theorem execHbmRowCopyDone_keeps (h : s.Keeps q n) {st : Fin 16} {uncorrectable : List (Nat × Nat)} : Res.Keeps q n (execHbmRowCopyDone st uncorrectable s) := by
  unfold execHbmRowCopyDone
  repeat' (first | assumption | with_reducible apply State.copyRow_keeps | with_reducible apply foldl_keeps_of | rw [ok_keeps] | rw [next_keeps] | with_reducible intro _ | (split <;> try (rename_i e; have e2 := congrArg Prod.fst e; dsimp only at e2; subst e2)) | dsimp only | simp [h])

@[simp] theorem execHbmRetAdd_keeps (h : s.Keeps q n) {m : Master} {st : Fin 16} : Res.Keeps q n (execHbmRetAdd m st s) := by
  unfold execHbmRetAdd
  repeat' (first | assumption | with_reducible apply State.guarded_keeps_of | with_reducible apply foldl_keeps_of | rw [ok_keeps] | rw [next_keeps] | with_reducible intro _ | (split <;> try (rename_i e; have e2 := congrArg Prod.fst e; dsimp only at e2; subst e2)) | dsimp only | simp [h])

@[simp] theorem execHbmRetSchedule_keeps (h : s.Keeps q n) {m : Master} {st : Fin 16} : Res.Keeps q n (execHbmRetSchedule m st s) := by
  unfold execHbmRetSchedule
  repeat' (first | assumption | with_reducible apply State.guarded_keeps_of | with_reducible apply foldl_keeps_of | rw [ok_keeps] | rw [next_keeps] | with_reducible intro _ | (split <;> try (rename_i e; have e2 := congrArg Prod.fst e; dsimp only at e2; subst e2)) | dsimp only | simp [h])

@[simp] theorem execHbmRetDiscard_keeps (h : s.Keeps q n) {m : Master} {st : Fin 16} : Res.Keeps q n (execHbmRetDiscard m st s) := by
  unfold execHbmRetDiscard
  repeat' (first | assumption | with_reducible apply State.cancelActs_keeps | with_reducible apply State.guarded_keeps_of | with_reducible apply foldl_keeps_of | rw [ok_keeps] | rw [next_keeps] | with_reducible intro _ | (split <;> try (rename_i e; have e2 := congrArg Prod.fst e; dsimp only at e2; subst e2)) | dsimp only | simp [h])

@[simp] theorem execHbmTableSwap_keeps (h : s.Keeps q n) : Res.Keeps q n (execHbmTableSwap s) := by
  unfold execHbmTableSwap
  repeat' (first | assumption | exact (State.takeDue_keeps _ (by assumption)).2 (by assumption) | with_reducible apply foldl_keeps_of | rw [ok_keeps] | rw [next_keeps] | with_reducible intro _ | (split <;> try (rename_i e; have e2 := congrArg Prod.fst e; dsimp only at e2; subst e2)) | dsimp only | simp [h])

@[simp] theorem State.cpcPut_keeps (h : s.Keeps q n) {addr : Nat} {data : List Byte} : (State.cpcPut s addr data).Keeps q n := by
  simp [State.cpcPut, ↓upd_keeps, ↓ite_keeps, ↓res_ite_keeps, ↓ite_keeps_fst, h]

@[simp] theorem State.snapSet_keeps {st : Nat} : (State.snapSet s st).Keeps q n ↔ s.Keeps q n := by
  simp [State.snapSet, ↓upd_keeps, ↓ite_keeps, ↓res_ite_keeps, ↓ite_keeps_fst]

@[simp] theorem State.snapFail_keeps {code : Nat} : (State.snapFail s code).Keeps q n ↔ s.Keeps q n := by
  simp [State.snapFail, ↓upd_keeps, ↓ite_keeps, ↓res_ite_keeps, ↓ite_keeps_fst]

@[simp] theorem State.planHead_keeps (h : s.Keeps q n) : (State.planHead s).1.Keeps q n := by
  unfold State.planHead
  exact State.hubRead_keeps h

@[simp] theorem State.cpcRead_keeps (h : s.Keeps q n) {a : Nat} {n' : Nat} : (State.cpcRead s a n').1.Keeps q n := by
  unfold State.cpcRead
  have c := State.hubRead_keeps (space := 0) (addr := devAddr s.devId a) (n' := n') (ext := none) (errs := []) h
  revert c
  generalize s.hubRead 0 (devAddr s.devId a) n' none [] = r
  exact id

@[simp] theorem State.readPlan_keeps (h : s.Keeps q n) : (State.readPlan s).1.Keeps q n := by
  unfold State.readPlan
  repeat' (first | assumption | with_reducible apply State.hubRead_keeps | with_reducible apply foldl_keeps_of | rw [ok_keeps] | rw [next_keeps] | with_reducible intro _ | (split <;> try (rename_i e; have e2 := congrArg Prod.fst e; dsimp only at e2; subst e2)) | dsimp only | simp [h])

@[simp] theorem State.verdict_keeps (h : s.Keeps q n) {n' : Nat} {v : Nat} : (State.verdict s n' v).Keeps q n := by
  unfold State.verdict
  repeat' (first | assumption | with_reducible apply State.cpcPut_keeps | with_reducible apply foldl_keeps_of | rw [ok_keeps] | rw [next_keeps] | with_reducible intro _ | (split <;> try (rename_i e; have e2 := congrArg Prod.fst e; dsimp only at e2; subst e2)) | dsimp only | simp [h])

@[simp] theorem State.boardAt_keeps (h : s.Keeps q n) {r : Nat} : (State.boardAt s r).1.Keeps q n := by
  unfold State.boardAt
  exact State.cpcRead_keeps h

@[simp] theorem State.boardAll_keeps (h : s.Keeps q n) {n' : Nat} : (State.boardAll s n').1.Keeps q n := by
  have k : ∀ (l : List Nat) (p : State × List (List Byte)), p.1.Keeps q n →
      (l.foldl (fun a r => let e := a.1.boardAt r; (e.1, a.2 ++ [e.2])) p).1.Keeps q n :=
    fun l p hp => foldl_keeps_fst_of hp fun a r ha => State.boardAt_keeps ha
  exact k _ _ h

@[simp] theorem State.boardLook_keeps (h : s.Keeps q n) : (State.boardLook s).Keeps q n := by
  unfold State.boardLook
  split
  · exact h
  · next m a _ =>
    have k := State.boardAll_keeps (n' := s.image.members.length) h
    generalize s.boardAll s.image.members.length = r at k ⊢
    obtain ⟨s1, es⟩ := r
    dsimp only at k ⊢
    split
    · exact State.verdict_keeps k
    split
    · exact State.verdict_keeps k
    · exact k

@[simp] theorem State.board_keeps (h : s.Keeps q n) {coord : Nat} {n' : Nat} {v : Nat} : (State.board s coord n' v).Keeps q n := by
  simp [State.board, ↓upd_keeps, ↓ite_keeps, ↓res_ite_keeps, ↓ite_keeps_fst, h]

@[simp] theorem State.coordOver_keeps (h : s.Keeps q n) {n' : Nat} : (State.coordOver s n').Keeps q n := by
  simp only [State.coordOver]
  (repeat' split) <;> simp [h]

@[simp] theorem State.coordBegin_keeps (h : s.Keeps q n) {coord : Nat} {n' : Nat} : (State.coordBegin s coord n').Keeps q n := by
  simp only [State.coordBegin]
  (repeat' split) <;> simp [h]

@[simp] theorem State.snapRefuse_keeps (h : s.Keeps q n) {n' : Nat} {code : Nat} : (State.snapRefuse s n' code).Keeps q n := by
  unfold State.snapRefuse
  repeat' (first | assumption | with_reducible apply State.board_keeps | with_reducible apply State.planHead_keeps | with_reducible apply State.verdict_keeps | with_reducible apply foldl_keeps_of | rw [ok_keeps] | rw [next_keeps] | with_reducible intro _ | (split <;> try (rename_i e; have e2 := congrArg Prod.fst e; dsimp only at e2; subst e2)) | dsimp only | simp [h])

@[simp] theorem State.snapDrop_keeps (h : s.Keeps q n) {code : Nat} : (State.snapDrop s code).Keeps q n := by
  simp [State.snapDrop, ↓upd_keeps, ↓ite_keeps, ↓res_ite_keeps, ↓ite_keeps_fst, h]

@[simp] theorem State.snapStart_keeps : (State.snapStart s).Keeps q n ↔ s.Keeps q n := by
  simp [State.snapStart, ↓upd_keeps, ↓ite_keeps, ↓res_ite_keeps, ↓ite_keeps_fst]

@[simp] theorem State.copyPut_keeps {addr : Nat} {data : List Byte} : (State.copyPut s addr data).Keeps q n ↔ s.Keeps q n := by
  simp [State.copyPut, ↓upd_keeps, ↓ite_keeps, ↓res_ite_keeps, ↓ite_keeps_fst]

@[simp] theorem State.copyAll_keeps {i0 : Nat} {i1 : Nat} {i2 : List Byte} : (State.copyAll s i0 i1 i2).Keeps q n ↔ s.Keeps q n := by
  induction i0 generalizing s i1 i2 with
  | zero => rfl
  | succ k ih =>
    unfold State.copyAll
    split
    · rfl
    · rw [ih]; simp

@[simp] theorem State.moveTensor_keeps (h : s.Keeps q n) {t : Tensor} {off : Nat} {errs : List BurstErr} : (State.moveTensor s t off errs).1.Keeps q n := by
  unfold State.moveTensor
  repeat' (first | assumption | with_reducible apply State.hubRead_keeps | with_reducible apply foldl_keeps_of | rw [ok_keeps] | rw [next_keeps] | with_reducible intro _ | (split <;> try (rename_i e; have e2 := congrArg Prod.fst e; dsimp only at e2; subst e2)) | dsimp only | simp [h])

@[simp] theorem State.moveAll_keeps (h : s.Keeps q n) {errs : List (List BurstErr)} {i0 : List Tensor} {i1 : Nat} {i2 : List Nat} : (State.moveAll s errs i0 i1 i2).1.Keeps q n := by
  induction i0 generalizing s i1 i2 with
  | nil => exact h
  | cons t l ih =>
    have c : (s.moveTensor t i1 (errs.getD i2.length [])).1.Keeps q n := State.moveTensor_keeps h
    rw [State.moveAll]
    generalize s.moveTensor t i1 (errs.getD i2.length []) = r at c ⊢
    rcases r with ⟨s1, _ | d⟩
    · exact c
    · exact ih c

@[simp] theorem State.snapAck_keeps (h : s.Keeps q n) {epoch : Nat} {st : Status} {n' : Nat} : (State.snapAck s epoch st n').Keeps q n := by
  simp [State.snapAck, ↓upd_keeps, ↓ite_keeps, ↓res_ite_keeps, ↓ite_keeps_fst, h]

@[simp] theorem State.saveSnap_keeps : (State.saveSnap s).Keeps q n ↔ s.Keeps q n := by
  simp [State.saveSnap, ↓upd_keeps, ↓ite_keeps, ↓res_ite_keeps, ↓ite_keeps_fst]

@[simp] theorem State.loadSnap_keeps : (State.loadSnap s).Keeps q n ↔ s.Keeps q n := by
  simp [State.loadSnap, ↓upd_keeps, ↓ite_keeps, ↓res_ite_keeps, ↓ite_keeps_fst]

@[simp] theorem State.setLast_keeps {n' : Nat} {slot : Nat} {witness : Nat} {step : Nat} : (State.setLast s n' slot witness step).Keeps q n ↔ s.Keeps q n := by
  simp [State.setLast, ↓upd_keeps, ↓ite_keeps, ↓res_ite_keeps, ↓ite_keeps_fst]

@[simp] theorem State.readOrFree_keeps (h : s.Keeps q n) {addr : Nat} {n' : Nat} : (State.readOrFree s addr n').1.Keeps q n := by
  unfold State.readOrFree
  repeat' (first | assumption | with_reducible apply State.hubRead_keeps | with_reducible apply foldl_keeps_of | rw [ok_keeps] | rw [next_keeps] | with_reducible intro _ | (split <;> try (rename_i e; have e2 := congrArg Prod.fst e; dsimp only at e2; subst e2)) | dsimp only | simp [h])

@[simp] theorem State.shelfIo_keeps : (State.shelfIo s).Keeps q n ↔ s.Keeps q n := by
  simp [State.shelfIo, ↓upd_keeps, ↓ite_keeps, ↓res_ite_keeps, ↓ite_keeps_fst]

@[simp] theorem State.stagePut_keeps (h : s.Keeps q n) {o : Nat} {data : List Byte} : (State.stagePut s o data).Keeps q n := by
  obtain ⟨h1, h2, w, h4⟩ := h
  refine ⟨h1, h2, ?_, h4⟩
  simp only [State.memsWf, State.stagePut, Bool.and_eq_true] at w ⊢
  exact ⟨⟨⟨⟨⟨⟨w.1.1.1.1.1.1, Mem.write_wf w.1.1.1.1.1.2 _ _⟩, w.1.1.1.1.2⟩, w.1.1.1.2⟩, w.1.1.2⟩, w.1.2⟩, w.2⟩

@[simp] theorem State.nvmeReg_keeps {off : Nat} {n' : Nat} {v : Nat} : (State.nvmeReg s off n' v).Keeps q n ↔ s.Keeps q n := by
  simp [State.nvmeReg, ↓upd_keeps, ↓ite_keeps, ↓res_ite_keeps, ↓ite_keeps_fst]

@[simp] theorem State.nvmeAdmin_keeps (h : s.Keeps q n) {op : Nat} {nsid : Nat} {prp1 : Nat} {c10 : Nat} {c11 : Nat} : (State.nvmeAdmin s op nsid prp1 c10 c11).Keeps q n := by
  unfold State.nvmeAdmin
  dsimp only
  generalize hx : s.stagePut _ _ = s1
  have c : s1.Keeps q n := hx ▸ State.stagePut_keeps h
  exact State.nvmeReg_keeps.2 ((upd_keeps rfl rfl rfl rfl rfl rfl rfl rfl rfl rfl rfl).2 c)

@[simp] theorem State.nvmeIo_keeps (h : s.Keeps q n) {op : Nat} {lba : Nat} {n' : Nat} : (State.nvmeIo s op lba n').Keeps q n := by
  unfold State.nvmeIo
  dsimp only
  generalize hy : (if 2 < n' then _ else s) = s0
  have k : s0.Keeps q n := by
    rw [← hy]
    split
    · exact State.stagePut_keeps h
    · exact h
  generalize hx : s0.stagePut _ _ = s1
  have c : s1.Keeps q n := hx ▸ State.stagePut_keeps k
  exact State.nvmeReg_keeps.2 ((upd_keeps rfl rfl rfl rfl rfl rfl rfl rfl rfl rfl rfl).2 c)

@[simp] theorem State.nvmeEnable_keeps : (State.nvmeEnable s).Keeps q n ↔ s.Keeps q n := by
  simp [State.nvmeEnable, ↓upd_keeps, ↓ite_keeps, ↓res_ite_keeps, ↓ite_keeps_fst]

@[simp] theorem State.nvmeQueues_keeps (h : s.Keeps q n) : (State.nvmeQueues s).Keeps q n := by
  unfold State.nvmeQueues
  dsimp only
  generalize hx : State.nvmeAdmin _ 1 _ _ _ _ = s1
  have c : s1.Keeps q n := hx ▸ State.nvmeAdmin_keeps (State.nvmeAdmin_keeps (State.nvmeAdmin_keeps h))
  exact (upd_keeps rfl rfl rfl rfl rfl rfl rfl rfl rfl rfl rfl).2 c

@[simp] theorem State.nvmeIdentify_keeps (h : s.Keeps q n) : (State.nvmeIdentify s).Keeps q n := by
  simp [State.nvmeIdentify, ↓upd_keeps, ↓ite_keeps, ↓res_ite_keeps, ↓ite_keeps_fst, h]

@[simp] theorem State.nvmeDelete_keeps (h : s.Keeps q n) : (State.nvmeDelete s).Keeps q n := by
  unfold State.nvmeDelete
  dsimp only
  generalize hx : State.nvmeAdmin _ 4 _ _ _ _ = s1
  have c : s1.Keeps q n := hx ▸ State.nvmeAdmin_keeps (State.nvmeAdmin_keeps h)
  exact (upd_keeps rfl rfl rfl rfl rfl rfl rfl rfl rfl rfl rfl).2 c

@[simp] theorem State.nvmeHealth_keeps (h : s.Keeps q n) : (State.nvmeHealth s).Keeps q n := by
  simp [State.nvmeHealth, ↓upd_keeps, ↓ite_keeps, ↓res_ite_keeps, ↓ite_keeps_fst, h]

@[simp] theorem State.nvmeReset_keeps (h : s.Keeps q n) : (State.nvmeReset s).Keeps q n := by
  simp [State.nvmeReset, ↓upd_keeps, ↓ite_keeps, ↓res_ite_keeps, ↓ite_keeps_fst, h]

@[simp] theorem State.shelfCmd_keeps (h : s.Keeps q n) {op : Nat} {lba : Nat} {n' : Nat} : (State.shelfCmd s op lba n').Keeps q n := by
  unfold State.shelfCmd
  dsimp only
  generalize hx : s.nvmeIo _ _ _ = s1
  have c : s1.Keeps q n := hx ▸ State.nvmeIo_keeps h
  exact (upd_keeps rfl rfl rfl rfl rfl rfl rfl rfl rfl rfl rfl).2 c

@[simp] theorem State.shelfWrite_keeps (h : s.Keeps q n) {lba : Nat} {data : List Byte} : (State.shelfWrite s lba data).Keeps q n := by
  unfold State.shelfWrite
  exact State.shelfCmd_keeps (State.stagePut_keeps h)

@[simp] theorem State.shelfFetch_keeps (h : s.Keeps q n) {base : Nat} {o : Nat} {put : Option Nat} {d : List Byte} {i0 : Nat} : (State.shelfFetch s base o put d i0).Keeps q n := by
  induction i0 generalizing s o put d with
  | zero => exact h
  | succ k ih =>
    rw [State.shelfFetch]
    split
    · exact h
    · dsimp only
      refine ih ?_
      split
      · exact State.cpcPut_keeps (State.stagePut_keeps (State.nvmeIo_keeps h))
      · exact State.stagePut_keeps (State.nvmeIo_keeps h)

@[simp] theorem State.slotWitness_keeps (h : s.Keeps q n) {j : ShelfJob} : (State.slotWitness s j).1.Keeps q n := by
  unfold State.slotWitness
  exact State.cpcRead_keeps h

@[simp] theorem State.shelfStop_keeps : (State.shelfStop s).Keeps q n ↔ s.Keeps q n := by
  simp [State.shelfStop, ↓upd_keeps, ↓ite_keeps, ↓res_ite_keeps, ↓ite_keeps_fst]

theorem shelfIssue_aux {c1 c2 c3 c4 : Prop} [Decidable c1] [Decidable c2] [Decidable c3] [Decidable c4] {s0 : State} {l1 l2 l3 l4 : Nat}
 {d1 d3 : List Byte} {f : List Byte → List Byte} {r : State × Option (List Byte)} {w : State × List Byte} (k : s0.Keeps q n) (hr : r.1.Keeps q n)
    (hw : w.1.Keeps q n) :
    (if c1 then s0.shelfWrite l1 d1
      else if c2 then (match r.2 with | some b => r.1.shelfWrite l2 b | none => r.1.shelfStop)
      else if c3 then w.1.shelfWrite l3 (f w.2) else if c4 then s0.shelfWrite l4 d3 else s0.shelfCmd 0 0 0).Keeps q n := by
  refine ite_imp_keeps (State.shelfWrite_keeps k) (ite_imp_keeps ?_ (ite_imp_keeps (State.shelfWrite_keeps hw)
    (ite_imp_keeps (State.shelfWrite_keeps k) (State.shelfCmd_keeps k))))
  rcases r with ⟨r, _ | b⟩
  · exact State.shelfStop_keeps.2 hr
  · exact State.shelfWrite_keeps hr

@[simp] theorem State.shelfIssue_keeps (h : s.Keeps q n) {j : ShelfJob} : (State.shelfIssue s j).Keeps q n := by
  have k : State.Keeps q n { s with snap := { s.snap with job := some j } } := (upd_keeps rfl rfl rfl rfl rfl rfl rfl rfl rfl rfl rfl).2 h
  unfold State.shelfIssue
  exact shelfIssue_aux k (State.hubRead_keeps k) (State.slotWitness_keeps k)

@[simp] theorem State.slotHead_keeps (h : s.Keeps q n) {i : Nat} : (State.slotHead s i).1.Keeps q n := by
  unfold State.slotHead
  exact State.cpcRead_keeps h

theorem slotOf_aux {c d e : Bool} {r0 r1 : State × List Byte} (h : s.Keeps q n) (c0 : r0.1.Keeps q n) (c1 : r1.1.Keeps q n) :
    (if c = true then (s, none) else if d = true then (r0.1, some 0) else (r1.1, if e = true then some 1 else none)).1.Keeps q n := by
  cases c <;> cases d <;> assumption

@[simp] theorem State.slotOf_keeps (h : s.Keeps q n) {n' : Nat} : (State.slotOf s n').1.Keeps q n := by
  unfold State.slotOf
  exact slotOf_aux h (State.slotHead_keeps h) (State.slotHead_keeps (State.slotHead_keeps h))

@[simp] theorem State.shelfBegin_keeps (h : s.Keeps q n) {i : Nat} {n' : Nat} : (State.shelfBegin s i n').Keeps q n := by
  unfold State.shelfBegin
  exact ite_imp_keeps (State.shelfIo_keeps.2 (State.slotHead_keeps h))
    (State.shelfIssue_keeps (State.wr_keeps.2 (State.slotWitness_keeps (State.cpcRead_keeps (State.slotHead_keeps h)))))

@[simp] theorem State.shelfCommit_keeps (h : s.Keeps q n) {n' : Nat} : (State.shelfCommit s n').Keeps q n := by
  simp only [State.shelfCommit]
  (repeat' split) <;> simp [h]

@[simp] theorem State.shelfNext_keeps (h : s.Keeps q n) : (State.shelfNext s).Keeps q n := by
  simp only [State.shelfNext]
  (repeat' split) <;> simp [h]

@[simp] theorem State.shelfDone_keeps (h : s.Keeps q n) {j : ShelfJob} : (State.shelfDone s j).Keeps q n := by
  simp [State.shelfDone, ↓upd_keeps, ↓ite_keeps, ↓res_ite_keeps, ↓ite_keeps_fst, h]

@[simp] theorem State.shelfStep_keeps (h : s.Keeps q n) {j : ShelfJob} : (State.shelfStep s j).Keeps q n := by
  simp [State.shelfStep, ↓upd_keeps, ↓ite_keeps, ↓res_ite_keeps, ↓ite_keeps_fst, h]

@[simp] theorem State.shelfFree_keeps (h : s.Keeps q n) : (State.shelfFree s).Keeps q n := by
  simp [State.shelfFree, ↓upd_keeps, ↓ite_keeps, ↓res_ite_keeps, ↓ite_keeps_fst, h]

@[simp] theorem State.shelfFailed_keeps (h : s.Keeps q n) : (State.shelfFailed s).Keeps q n := by
  simp [State.shelfFailed, ↓upd_keeps, ↓ite_keeps, ↓res_ite_keeps, ↓ite_keeps_fst, h]

@[simp] theorem execShelfIoComplete_keeps (h : s.Keeps q n) {good : Bool} : Res.Keeps q n (execShelfIoComplete good s) := by
  unfold execShelfIoComplete
  repeat' (first | assumption | with_reducible apply State.shelfFailed_keeps | with_reducible apply State.shelfFree_keeps | with_reducible apply State.shelfStep_keeps | with_reducible apply foldl_keeps_of | rw [ok_keeps] | rw [next_keeps] | with_reducible intro _ | (split <;> try (rename_i e; have e2 := congrArg Prod.fst e; dsimp only at e2; subst e2)) | dsimp only | simp [h])

@[simp] theorem State.witnessGoes_keeps (h : s.Keeps q n) {i : Nat} {n' : Nat} : (State.witnessGoes s i n').Keeps q n := by
  unfold State.witnessGoes
  split
  · exact ite_imp_keeps ((upd_keeps rfl rfl rfl rfl rfl rfl rfl rfl rfl rfl rfl).2 h) h
  · split
    · exact ite_imp_keeps (State.shelfIssue_keeps (State.wr_keeps.2 h)) h
    · exact h

@[simp] theorem State.witnessArrived_keeps (h : s.Keeps q n) {i : Nat} : (State.witnessArrived s i).Keeps q n := by
  exact State.witnessGoes_keeps (State.slotHead_keeps h)

@[simp] theorem State.cut_keeps (h : s.Keeps q n) {n' : Nat} : (State.cut s n').Keeps q n := by
  unfold State.cut
  repeat' (first | assumption | with_reducible apply State.coordBegin_keeps | with_reducible apply State.coordOver_keeps | with_reducible apply State.readPlan_keeps | with_reducible apply State.snapRefuse_keeps | with_reducible apply foldl_keeps_of | rw [ok_keeps] | rw [next_keeps] | with_reducible intro _ | (split <;> try (rename_i e; have e2 := congrArg Prod.fst e; dsimp only at e2; subst e2)) | dsimp only | simp [h])

@[simp] theorem execSnapshotCut_keeps (h : s.Keeps q n) : Res.Keeps q n (execSnapshotCut s) := by
  unfold execSnapshotCut
  repeat' (first | assumption | with_reducible apply State.cut_keeps | with_reducible apply State.cutEnds_keeps | exact (State.takeDue_keeps _ (by assumption)).2 (by assumption) | with_reducible apply foldl_keeps_of | rw [ok_keeps] | rw [next_keeps] | with_reducible intro _ | (split <;> try (rename_i e; have e2 := congrArg Prod.fst e; dsimp only at e2; subst e2)) | dsimp only | simp [h])

@[simp] theorem execSnapRelease_keeps (h : s.Keeps q n) {errs : List (List BurstErr)} {confirmed : Bool} : Res.Keeps q n (execSnapRelease s errs confirmed) := by
  unfold execSnapRelease
  split
  · simpa using h
  have c : (s.moveAll errs s.snap.tensors 0x400000 []).1.Keeps q n := State.moveAll_keeps h
  generalize s.moveAll errs s.snap.tensors 0x400000 [] = r at c ⊢
  rcases r with ⟨s1, _ | ds⟩
  · exact ok_keeps.2 (State.snapDrop_keeps (State.logs_keeps.2 c))
  · dsimp only at c ⊢
    generalize hx : State.copyAll _ _ _ _ = s2
    have k2 : s2.Keeps q n := by rw [← hx]; exact State.copyAll_keeps.2 c
    have k3 : (State.wr s2 F.HUB_SNAP_STATUS_released 1).Keeps q n := State.wr_keeps.2 k2
    generalize State.wr s2 F.HUB_SNAP_STATUS_released 1 = s3 at k3 ⊢
    split
    · exact ok_keeps.2 (State.raised_keeps.2 k3)
    · generalize hw : s3.hubWrite _ _ _ = w
      have k4 : w.1.Keeps q n := hw ▸ State.hubWrite_keeps k3
      exact ok_keeps.2 (ite_imp_keeps (State.raised_keeps.2 k4) (State.confirmed_keeps.2 k4))

@[simp] theorem execSnapAckTimeout_keeps (h : s.Keeps q n) : Res.Keeps q n (execSnapAckTimeout s) := by
  simp [execSnapAckTimeout, ↓upd_keeps, ↓ite_keeps, ↓res_ite_keeps, ↓ite_keeps_fst, h]

@[simp] theorem execSnapCommitTimeout_keeps (h : s.Keeps q n) : Res.Keeps q n (execSnapCommitTimeout s) := by
  simp only [execSnapCommitTimeout]
  (repeat' split) <;> simp [h]

@[simp] theorem State.snapCommit_keeps (h : s.Keeps q n) : (State.snapCommit s).Keeps q n := by
  simp [State.snapCommit, ↓upd_keeps, ↓ite_keeps, ↓res_ite_keeps, ↓ite_keeps_fst, h]

@[simp] theorem execSnapCommitPoll_keeps (h : s.Keeps q n) : Res.Keeps q n (execSnapCommitPoll s) := by
  unfold execSnapCommitPoll
  repeat' (first | assumption | with_reducible apply State.hubRead_keeps | with_reducible apply State.snapCommit_keeps | with_reducible apply foldl_keeps_of | rw [ok_keeps] | rw [next_keeps] | with_reducible intro _ | (split <;> try (rename_i e; have e2 := congrArg Prod.fst e; dsimp only at e2; subst e2)) | dsimp only | simp [h])

@[simp] theorem State.srcFetch_keeps (h : s.Keeps q n) {o : Nat} {put : Option Nat} {d : List Byte} : (State.srcFetch s o put d).Keeps q n := by
  simp [State.srcFetch, ↓upd_keeps, ↓ite_keeps, ↓res_ite_keeps, ↓ite_keeps_fst, h]

@[simp] theorem State.srcFailed_keeps (h : s.Keeps q n) {src : SourceIn} : (State.srcFailed s src).Keeps q n := by
  simp [State.srcFailed, ↓upd_keeps, ↓ite_keeps, ↓res_ite_keeps, ↓ite_keeps_fst, h]

@[simp] theorem State.readsAt_keeps (h : s.Keeps q n) {t : Option Nat} : (State.readsAt s t).Keeps q n := by
  simp [State.readsAt, ↓upd_keeps, ↓ite_keeps, ↓res_ite_keeps, ↓ite_keeps_fst, h]

@[simp] theorem execRestore_keeps (h : s.Keeps q n) {m : Master} {src : SourceIn} : Res.Keeps q n (execRestore m src s) := by
  unfold execRestore
  repeat' (first | assumption | with_reducible apply State.guarded_keeps_of | with_reducible apply State.readsAt_keeps | with_reducible apply State.shelfFetch_keeps | with_reducible apply State.srcFailed_keeps | with_reducible apply State.srcFetch_keeps | with_reducible apply foldl_keeps_of | rw [ok_keeps] | rw [next_keeps] | with_reducible intro _ | (split <;> try (rename_i e; have e2 := congrArg Prod.fst e; dsimp only at e2; subst e2)) | dsimp only | simp [h])

@[simp] theorem State.loseTensors_keeps (h : s.Keeps q n) {m : List Byte} : (State.loseTensors s m).Keeps q n := by
  unfold State.loseTensors
  repeat' (first | assumption | with_reducible apply State.cpcPut_keeps | with_reducible apply foldl_keeps_of | rw [ok_keeps] | rw [next_keeps] | with_reducible intro _ | (split <;> try (rename_i e; have e2 := congrArg Prod.fst e; dsimp only at e2; subst e2)) | dsimp only | simp [h])

@[simp] theorem State.restoreTensors_keeps (h : s.Keeps q n) {m : List Byte} {ts : List (List Byte)} : (State.restoreTensors s m ts).1.Keeps q n := by
  unfold State.restoreTensors
  refine foldl_keeps_fst_of h fun a i ha => ?_
  rcases a with ⟨a, _ | x⟩
  · dsimp only at ha ⊢
    split
    · exact ite_imp_keeps (State.srcFetch_keeps ha) (State.cpcPut_keeps ha)
    · exact ha
  · exact ha

@[simp] theorem State.restoreRest_keeps (h : s.Keeps q n) {m : List Byte} : (State.restoreRest s m).Keeps q n := by
  simp [State.restoreRest, ↓upd_keeps, ↓ite_keeps, ↓res_ite_keeps, ↓ite_keeps_fst, h]

@[simp] theorem execRestoreComplete_keeps (h : s.Keeps q n) {src : SourceIn} : Res.Keeps q n (execRestoreComplete src s) := by
  unfold execRestoreComplete
  repeat' (first | assumption | with_reducible apply State.loseTensors_keeps | with_reducible apply State.readsAt_keeps | with_reducible apply State.restoreRest_keeps | with_reducible apply State.restoreTensors_keeps | with_reducible apply State.srcFailed_keeps | with_reducible apply foldl_keeps_of | rw [ok_keeps] | rw [next_keeps] | with_reducible intro _ | (split <;> try (rename_i e; have e2 := congrArg Prod.fst e; dsimp only at e2; subst e2)) | dsimp only | simp [h])

@[simp] theorem execShelfCmdTimeout_keeps (h : s.Keeps q n) : Res.Keeps q n (execShelfCmdTimeout s) := by
  unfold execShelfCmdTimeout
  repeat' (first | assumption | with_reducible apply State.loseTensors_keeps | with_reducible apply State.readsAt_keeps | with_reducible apply State.shelfFailed_keeps | with_reducible apply foldl_keeps_of | rw [ok_keeps] | rw [next_keeps] | with_reducible intro _ | (split <;> try (rename_i e; have e2 := congrArg Prod.fst e; dsimp only at e2; subst e2)) | dsimp only | simp [h])

@[simp] theorem execReplayCheck_keeps (h : s.Keeps q n) {m : Master} {src : SourceIn} : Res.Keeps q n (execReplayCheck m src s) := by
  unfold execReplayCheck
  repeat' (first | assumption | with_reducible apply State.guarded_keeps_of | with_reducible apply State.readOrFree_keeps | with_reducible apply State.srcFailed_keeps | with_reducible apply State.srcFetch_keeps | with_reducible apply foldl_keeps_of | rw [ok_keeps] | rw [next_keeps] | with_reducible intro _ | (split <;> try (rename_i e; have e2 := congrArg Prod.fst e; dsimp only at e2; subst e2)) | dsimp only | simp [h])

@[simp] theorem execWitness_keeps (h : s.Keeps q n) {m : Master} : Res.Keeps q n (execWitness m s) := by
  unfold execWitness
  repeat' (first | assumption | with_reducible apply State.cpcPut_keeps | with_reducible apply State.guarded_keeps_of | with_reducible apply State.readOrFree_keeps | with_reducible apply foldl_keeps_of | rw [ok_keeps] | rw [next_keeps] | with_reducible intro _ | (split <;> try (rename_i e; have e2 := congrArg Prod.fst e; dsimp only at e2; subst e2)) | dsimp only | simp [h])

@[simp] theorem execSnapAbandon_keeps (h : s.Keeps q n) {m : Master} : Res.Keeps q n (execSnapAbandon m s) := by
  unfold execSnapAbandon
  repeat' (first | assumption | with_reducible apply State.guarded_keeps_of | with_reducible apply State.snapDrop_keeps | with_reducible apply foldl_keeps_of | rw [ok_keeps] | rw [next_keeps] | with_reducible intro _ | (split <;> try (rename_i e; have e2 := congrArg Prod.fst e; dsimp only at e2; subst e2)) | dsimp only | simp [h])

@[simp] theorem execSnapClearError_keeps (h : s.Keeps q n) {m : Master} : Res.Keeps q n (execSnapClearError m s) := by
  simp [execSnapClearError, ↓upd_keeps, ↓ite_keeps, ↓res_ite_keeps, ↓ite_keeps_fst, h]

@[simp] theorem State.fwFail_keeps {code : Nat} : (State.fwFail s code).Keeps q n ↔ s.Keeps q n := by
  simp [State.fwFail, ↓upd_keeps, ↓ite_keeps, ↓res_ite_keeps, ↓ite_keeps_fst]

@[simp] theorem State.dropOwner_keeps (h : s.Keeps q n) {a : Act} : (State.dropOwner s a).Keeps q n := by
  simp [State.dropOwner, ↓upd_keeps, ↓ite_keeps, ↓res_ite_keeps, ↓ite_keeps_fst, h]

@[simp] theorem State.dropAct_keeps (h : s.Keeps q n) {refused : Bool} {a : Act} : (State.dropAct s refused a).Keeps q n := by
  simp [State.dropAct, ↓upd_keeps, ↓ite_keeps, ↓res_ite_keeps, ↓ite_keeps_fst, h]

@[simp] theorem State.commitDue_keeps (h : s.Keeps q n) : (State.commitDue s).Keeps q n := by
  unfold State.commitDue
  dsimp only
  refine foldl_keeps_of (State.setPend_filter_keeps h) fun a x ha => ?_
  split
  · exact State.dropAct_keeps ha
  · exact (upd_keeps rfl rfl rfl rfl rfl rfl rfl rfl rfl rfl rfl).2 ha

@[simp] theorem State.setTn_keeps (h : s.Keeps q n) {tn : Nat} : (State.setTn s tn).Keeps q n := by
  unfold State.setTn
  dsimp only
  exact foldl_keeps_of (State.wr_keeps.2 (State.setPend_filter_keeps h)) fun a x ha => State.dropAct_keeps ha

@[simp] theorem State.autoSwaps_keeps : (State.autoSwaps s).Keeps q n ↔ s.Keeps q n := by
  simp [State.autoSwaps, ↓upd_keeps, ↓ite_keeps, ↓res_ite_keeps, ↓ite_keeps_fst]

@[simp] theorem State.grpState_keeps {st : Nat} : (State.grpState s st).Keeps q n ↔ s.Keeps q n := by
  simp [State.grpState, ↓upd_keeps, ↓ite_keeps, ↓res_ite_keeps, ↓ite_keeps_fst]

@[simp] theorem State.fence_keeps (h : s.Keeps q n) : (State.fence s).Keeps q n := by
  unfold State.fence
  repeat' (first | assumption | with_reducible apply State.feCause_keeps | with_reducible apply State.forEach_keeps_of | with_reducible apply foldl_keeps_of | rw [ok_keeps] | rw [next_keeps] | with_reducible intro _ | (split <;> try (rename_i e; have e2 := congrArg Prod.fst e; dsimp only at e2; subst e2)) | dsimp only | simp [h])

@[simp] theorem State.evaluate_keeps (h : s.Keeps q n) {p : Nat} : (State.evaluate s p).Keeps q n := by
  simp [State.evaluate, ↓upd_keeps, ↓ite_keeps, ↓res_ite_keeps, ↓ite_keeps_fst, h]

@[simp] theorem State.heartbeat_keeps (h : s.Keeps q n) : (State.heartbeat s).Keeps q n := by
  simp [State.heartbeat, ↓upd_keeps, ↓ite_keeps, ↓res_ite_keeps, ↓ite_keeps_fst, h]

@[simp] theorem State.forming_keeps : (State.forming s).Keeps q n ↔ s.Keeps q n := by
  simp [State.forming, ↓upd_keeps, ↓ite_keeps, ↓res_ite_keeps, ↓ite_keeps_fst]

@[simp] theorem State.soloMember_keeps : (State.soloMember s).Keeps q n ↔ s.Keeps q n := by
  simp [State.soloMember, ↓upd_keeps, ↓ite_keeps, ↓res_ite_keeps, ↓ite_keeps_fst]

end Sys2Proof.Machine
end

