-- ==== Sys2Proof/Laws/KeepsStart.lean ====
section
/-! SUPPORT. What the functions of a start, stowage, the timebase, stops, observation keep (KeepsBase). -/

set_option linter.all false

namespace Sys2Proof.Machine

variable {q : List Instr} {n : Nat} {s : State}

@[simp] theorem State.stowFail_keeps {code : Nat} {off : Nat} : (State.stowFail s code off).Keeps q n ↔ s.Keeps q n := by
  simp [State.stowFail, ↓upd_keeps, ↓ite_keeps, ↓res_ite_keeps, ↓ite_keeps_fst]

@[simp] theorem State.moveTiles_keeps {old : Image} {new : Image} : (State.moveTiles s old new).Keeps q n ↔ s.Keeps q n := by
  simp [State.moveTiles, ↓upd_keeps, ↓ite_keeps, ↓res_ite_keeps, ↓ite_keeps_fst]

@[simp] theorem State.powerSites_keeps {i : Image} : (State.powerSites s i).Keeps q n ↔ s.Keeps q n := by
  simp [State.powerSites, ↓upd_keeps, ↓ite_keeps, ↓res_ite_keeps, ↓ite_keeps_fst]

@[simp] theorem State.showDegraded_keeps : (State.showDegraded s).Keeps q n ↔ s.Keeps q n := by
  simp [State.showDegraded, ↓upd_keeps, ↓ite_keeps, ↓res_ite_keeps, ↓ite_keeps_fst]

@[simp] theorem State.agePass_keeps {b : Nat} : (State.agePass s b).Keeps q n ↔ s.Keeps q n := by
  simp [State.agePass, ↓upd_keeps, ↓ite_keeps, ↓res_ite_keeps, ↓ite_keeps_fst]

@[simp] theorem State.putInForce_keeps (h : s.Keeps q n) {i : Image} : (State.putInForce s i).Keeps q n := by
  simp [State.putInForce, ↓upd_keeps, ↓ite_keeps, ↓res_ite_keeps, ↓ite_keeps_fst, h]

theorem State.setBank_keeps (h : s.Keeps q n) {k : Nat} {m : Mem} (hm : m.wf = true) : (s.setBank k m).Keeps q n := by
  obtain ⟨h1, h2, w, h4⟩ := h
  simp only [State.memsWf, Bool.and_eq_true] at w
  unfold State.setBank
  split <;> refine ⟨h1, h2, ?_, h4⟩ <;> simp only [State.memsWf, Bool.and_eq_true]
  · exact ⟨⟨⟨⟨⟨w.1.1.1.1.1, hm⟩, w.1.1.1.2⟩, w.1.1.2⟩, w.1.2⟩, w.2⟩
  · exact ⟨⟨⟨⟨w.1.1.1.1, hm⟩, w.1.1.2⟩, w.1.2⟩, w.2⟩

@[simp] theorem State.setBootRecord_keeps {k : Nat} {v : Nat} : (State.setBootRecord s k v).Keeps q n ↔ s.Keeps q n := by
  simp [State.setBootRecord, ↓upd_keeps, ↓ite_keeps, ↓res_ite_keeps, ↓ite_keeps_fst]

@[simp] theorem State.ownFormat_keeps {k : Nat} : (State.ownFormat s k).Keeps q n ↔ s.Keeps q n := by
  simp [State.ownFormat, ↓upd_keeps, ↓ite_keeps, ↓res_ite_keeps, ↓ite_keeps_fst]

@[simp] theorem State.resetSetting_keeps {k : Nat} : (State.resetSetting s k).Keeps q n ↔ s.Keeps q n := by
  simp [State.resetSetting, ↓upd_keeps, ↓ite_keeps, ↓res_ite_keeps, ↓ite_keeps_fst]

@[simp] theorem State.readSettings_keeps : (State.readSettings s).Keeps q n ↔ s.Keeps q n := by
  simp [State.readSettings, ↓upd_keeps, ↓ite_keeps, ↓res_ite_keeps, ↓ite_keeps_fst]

@[simp] theorem State.booted_keeps {k : Nat} {m : Mem} : (State.booted s k m).Keeps q n ↔ s.Keeps q n := by
  simp [State.booted, ↓upd_keeps, ↓ite_keeps, ↓res_ite_keeps, ↓ite_keeps_fst]

theorem State.secureBoot_keeps (h : s.Keeps q n) : ∀ u, (State.secureBoot s) = some u → u.Keeps q n := by
  intro u e
  simp only [State.secureBoot] at e
  (repeat' split at e) <;> (try contradiction) <;> simp only [Option.some.injEq] at e <;> subst e <;> simp [h]

@[simp] theorem State.putRecs_keeps {i0 : Nat} {i1 : List (List Byte)} : (State.putRecs s i0 i1).Keeps q n ↔ s.Keeps q n := by
  induction i1 generalizing s i0 with
  | nil => simp [State.putRecs]
  | cons b l ih => exact ih.trans State.putRec_keeps

@[simp] theorem State.trainBundles_keeps {warm : Bool} {fail : List Nat} : (State.trainBundles s warm fail).Keeps q n ↔ s.Keeps q n := by
  simp [State.trainBundles, ↓upd_keeps, ↓ite_keeps, ↓res_ite_keeps, ↓ite_keeps_fst]

@[simp] theorem State.pwrState_keeps {st : Nat} : (State.pwrState s st).Keeps q n ↔ s.Keeps q n := by
  simp [State.pwrState, ↓upd_keeps, ↓ite_keeps, ↓res_ite_keeps, ↓ite_keeps_fst]

@[simp] theorem State.newNonces_keeps : (State.newNonces s).Keeps q n ↔ s.Keeps q n := by
  simp [State.newNonces, ↓upd_keeps, ↓ite_keeps, ↓res_ite_keeps, ↓ite_keeps_fst]

@[simp] theorem State.kept_keeps (h : s.Keeps q n) {warm : Bool} {i : StartIn} : (State.kept s warm i).Keeps q n := by
  obtain ⟨h1, h2, w, h4⟩ := h
  simp only [State.memsWf, Bool.and_eq_true] at w
  rw [State.bounded_iff] at h4
  refine ⟨h1, h2, ?_, ?_⟩
  · simp only [State.memsWf, State.kept, Bool.and_eq_true]
    refine ⟨⟨⟨⟨⟨⟨?_, rfl⟩, w.1.1.1.1.2⟩, w.1.1.1.2⟩, w.1.1.2⟩, rfl⟩, rfl⟩
    split
    · exact w.1.1.1.1.1.1
    · rfl
  · rw [State.bounded_iff]
    have e : (s.kept warm i).tb.pend = if warm then s.tb.pend else [] := by cases warm <;> rfl
    have e1 : (s.kept warm i).pwr.power = Pwr.power {} := rfl
    have e2 : (s.kept warm i).fw.sent = [] := rfl
    have e3 : (s.kept warm i).pcie.table = Pcie.table {} := rfl
    refine ⟨?_, ?_, by rw [e1], by rw [e2]; exact Nat.zero_le _, h4.2.2.2.2.1, by rw [e3]; rfl⟩ <;> rw [e] <;> cases warm
    · exact List.nodup_nil
    · exact h4.1
    · intro a ha
      cases ha
    · exact h4.2.1

@[simp] theorem State.enterTick_keeps (h : s.Keeps q n) : (State.enterTick s).Keeps q n := by
  simp [State.enterTick, ↓upd_keeps, ↓ite_keeps, ↓res_ite_keeps, ↓ite_keeps_fst, h]

@[simp] theorem State.wipe_keeps (h : s.Keeps q n) {warm : Bool} {i : StartIn} : (State.wipe s warm i).Keeps q n := by
  have k : (s.kept warm i).Keeps q n := State.kept_keeps h
  have k' : State.Keeps q n (if warm then ((s.kept warm i).putRecs 0 s.lastUncontained).enterTick else s.kept warm i) := by
    split
    · exact State.enterTick_keeps (State.putRecs_keeps.2 k)
    · exact k
  unfold State.wipe
  extract_lets k1
  refine State.loadSnap_keeps.2 (State.newNonces_keeps.2 (State.pwrState_keeps.2 (State.wr_keeps.2 (State.wrs_keeps.2 (State.wrs_keeps.2 ?_)))))
  exact k'

@[simp] theorem State.stepDone_keeps {k : Nat} : (State.stepDone s k).Keeps q n ↔ s.Keeps q n := by
  simp [State.stepDone, ↓upd_keeps, ↓ite_keeps, ↓res_ite_keeps, ↓ite_keeps_fst]

@[simp] theorem State.stepSkip_keeps {k : Nat} : (State.stepSkip s k).Keeps q n ↔ s.Keeps q n := by
  simp [State.stepSkip, ↓upd_keeps, ↓ite_keeps, ↓res_ite_keeps, ↓ite_keeps_fst]

@[simp] theorem State.linkTrained_keeps : (State.linkTrained s).Keeps q n ↔ s.Keeps q n := by
  simp [State.linkTrained, ↓upd_keeps, ↓ite_keeps, ↓res_ite_keeps, ↓ite_keeps_fst]

@[simp] theorem State.fuseRead_keeps {caps : List Dword} {trims : List (BitVec 16)} : (State.fuseRead s caps trims).1.Keeps q n ↔ s.Keeps q n := by
  simp [State.fuseRead, ↓upd_keeps, ↓ite_keeps, ↓res_ite_keeps, ↓ite_keeps_fst]

@[simp] theorem State.domainsOn_keeps {fail : Option Nat} : (State.domainsOn s fail).Keeps q n ↔ s.Keeps q n := by
  simp [State.domainsOn, ↓upd_keeps, ↓ite_keeps, ↓res_ite_keeps, ↓ite_keeps_fst]

@[simp] theorem State.fwStart_keeps : (State.fwStart s).Keeps q n ↔ s.Keeps q n := by
  simp [State.fwStart, ↓upd_keeps, ↓ite_keeps, ↓res_ite_keeps, ↓ite_keeps_fst]

@[simp] theorem State.recover_keeps (h : s.Keeps q n) : (State.recover s).Keeps q n := by
  simp only [State.recover]
  (repeat' split) <;> simp [h]

@[simp] theorem State.startFail_keeps (h : s.Keeps q n) {step : Nat} {code : Nat} {n' : EvName} : (State.startFail s step code n').Keeps q n := by
  simp [State.startFail, ↓upd_keeps, ↓ite_keeps, ↓res_ite_keeps, ↓ite_keeps_fst, h]

@[simp] theorem State.stepThen_keeps (h : s.Keeps q n) {k : Nat} (f : State → State) (hf : ∀ a , State.Keeps q n a → (f a ).Keeps q n) : (State.stepThen s k f).Keeps q n := by
  simp [State.stepThen, ↓upd_keeps, ↓ite_keeps, ↓res_ite_keeps, ↓ite_keeps_fst, h, hf]

theorem State.testRows_keeps {i0 : List (Nat × Nat × Nat × Nat)} : ∀ u, (State.testRows s i0) = some u → (u.Keeps q n ↔ s.Keeps q n) := by
  induction i0 generalizing s with
  | nil => intro u e; cases e; rfl
  | cons x l ih =>
    obtain ⟨st, pc, bank, row⟩ := x
    intro u e
    unfold State.testRows at e
    dsimp only at e
    split at e
    · exact (ih u e).trans State.setStack_keeps
    split at e
    · exact ih u e
    split at e
    · exact (ih u e).trans (by simp)
    split at e
    · cases e
    · exact (ih u e).trans (by simp)

@[simp] theorem State.ageTables_keeps : (State.ageTables s).Keeps q n ↔ s.Keeps q n := by
  simp [State.ageTables, ↓upd_keeps, ↓ite_keeps, ↓res_ite_keeps, ↓ite_keeps_fst]

@[simp] theorem State.bist_keeps {warm : Bool} {fail : List Nat} : (State.bist s warm fail).Keeps q n ↔ s.Keeps q n := by
  simp [State.bist, ↓upd_keeps, ↓ite_keeps, ↓res_ite_keeps, ↓ite_keeps_fst]

@[simp] theorem State.startOn_keeps : (State.startOn s).Keeps q n ↔ s.Keeps q n := by
  simp [State.startOn, ↓upd_keeps, ↓ite_keeps, ↓res_ite_keeps, ↓ite_keeps_fst]

@[simp] theorem State.lockTick_keeps (h : s.Keeps q n) : (State.lockTick s).Keeps q n := by
  simp [State.lockTick, ↓upd_keeps, ↓ite_keeps, ↓res_ite_keeps, ↓ite_keeps_fst, h]

@[simp] theorem State.shelfTake_keeps (h : s.Keeps q n) {p : ShelfProbe} : (State.shelfTake s p).Keeps q n := by
  unfold State.shelfTake
  extract_lets r _ s1 s2
  have k1 : s1.Keeps q n := (upd_keeps rfl rfl rfl rfl rfl rfl rfl rfl rfl rfl rfl).2 h
  clear_value s1
  have k2 : s2.Keeps q n := State.wrs_keeps.2 k1
  clear_value s2
  refine ite_imp_keeps (State.nvmeQueues_keeps (State.nvmeIdentify_keeps (State.nvmeEnable_keeps.2 k2))) ?_
  exact State.logs_keeps.2 (State.pwrEvent_keeps.2 (ite_imp_keeps (State.nvmeIdentify_keeps (State.nvmeEnable_keeps.2 k2)) k2))

@[simp] theorem State.startTail_keeps (h : s.Keeps q n) : (State.startTail s).Keeps q n := by
  have k : State.Keeps q n { s with pwr := { s.pwr with siteQ := s.image.siteQueues } } := (upd_keeps rfl rfl rfl rfl rfl rfl rfl rfl rfl rfl rfl).2 h
  unfold State.startTail
  extract_lets p _ s1
  have k1 : s1.Keeps q n := State.stepDone_keeps.2 k
  clear_value s1
  refine State.stepThen_keeps (State.shelfTake_keeps k1) _ fun a ha => ?_
  refine State.stepThen_keeps (by simp [ha]) _ fun b hb => ?_
  split
  · exact State.startOn_keeps.2 (State.lockTick_keeps hb)
  · exact State.lockTick_keeps hb

@[simp] theorem State.warmLoad_keeps (h : s.Keeps q n) : (State.warmLoad s).Keeps q n := by
  simp only [State.warmLoad]
  (repeat' split) <;> simp [h]

@[simp] theorem State.stacksReady_keeps : (State.stacksReady s).Keeps q n ↔ s.Keeps q n := by
  simp [State.stacksReady, ↓upd_keeps, ↓ite_keeps, ↓res_ite_keeps, ↓ite_keeps_fst]

@[simp] theorem State.startEnd_keeps (h : s.Keeps q n) {warm : Bool} {i : StartIn} : (State.startEnd s warm i).Keeps q n := by
  unfold State.startEnd
  extract_lets tail
  have kt : ∀ a, State.Keeps q n a → (tail a).Keeps q n := by
    intro a ha
    have hb : (a.bist warm i.bistFail).Keeps q n := State.bist_keeps.2 ha
    dsimp only [tail]
    generalize a.bist warm i.bistFail = s7 at hb ⊢
    split
    · exact State.startFail_keeps hb
    · have hc' : State.Keeps q n { s7 with pwr := { s7.pwr with retained := true } } := (upd_keeps rfl rfl rfl rfl rfl rfl rfl rfl rfl rfl rfl).2 hb
      refine State.stepThen_keeps hc' _ fun c hc => ?_
      have hd : (c.forEach (List.range 16) (fun c k => c.hbmBuild k)).Keeps q n := (State.forEach_keeps _ fun _ _ => State.hbmBuild_keeps).2 hc
      split
      · exact State.warmLoad_keeps hd
      · exact hd
  split
  · exact kt _ (State.stepSkip_keeps.2 h)
  split
  · exact State.startFail_keeps h
  · rename_i e
    exact State.stepThen_keeps (State.ageTables_keeps.2 ((State.testRows_keeps _ e).2 h)) _ kt

@[simp] theorem State.startRest_keeps (h : s.Keeps q n) {warm : Bool} {i : StartIn} : (State.startRest s warm i).Keeps q n := by
  unfold State.startRest
  split
  · exact State.startFail_keeps h
  · rename_i e
    refine State.stepThen_keeps (State.secureBoot_keeps (State.fwStart_keeps.2 h) _ e) _ fun a ha => ?_
    refine State.stepThen_keeps (State.trainBundles_keeps.2 ha) _ fun b hb => ?_
    split
    · exact State.startFail_keeps hb
    · exact State.stepThen_keeps (State.stacksReady_keeps.2 hb) _ fun c hc => State.startEnd_keeps hc

@[simp] theorem State.startFuses_keeps (h : s.Keeps q n) {warm : Bool} {i : StartIn} : (State.startFuses s warm i).Keeps q n := by
  unfold State.startFuses
  extract_lets s1 r
  have k1 : s1.Keeps q n := State.linkTrained_keeps.2 h
  clear_value s1
  have kr : r.1.Keeps q n := State.fuseRead_keeps.2 k1
  clear_value r
  split
  · exact State.startRest_keeps (State.stepSkip_keeps.2 k1)
  split
  · exact State.startFail_keeps kr
  · refine State.stepThen_keeps kr _ fun a ha => ?_
    split
    · exact State.recover_keeps ha
    · exact State.startRest_keeps ha

@[simp] theorem State.startRun_keeps (h : s.Keeps q n) {warm : Bool} {i : StartIn} : (State.startRun s warm i).Keeps q n := by
  unfold State.startRun
  extract_lets s0
  have k : s0.Keeps q n := State.wipe_keeps h
  clear_value s0
  split
  · exact State.startFail_keeps (State.pwrEvent_keeps.2 (State.wr_keeps.2 (State.domainsOn_keeps.2 k)))
  · exact State.stepThen_keeps (State.domainsOn_keeps.2 k) _ fun a ha => State.startFuses_keeps ha

@[simp] theorem State.blank_keeps (h : s.Keeps q n) {warm : Bool} : (State.blank s warm).Keeps q n := by
  simp [State.blank, ↓upd_keeps, ↓ite_keeps, ↓res_ite_keeps, ↓ite_keeps_fst, h]

@[simp] theorem State.startHold_keeps (h : s.Keeps q n) {warm : Bool} : (State.startHold s warm).Keeps q n := by
  simp [State.startHold, ↓upd_keeps, ↓ite_keeps, ↓res_ite_keeps, ↓ite_keeps_fst, h]

@[simp] theorem State.startUp_keeps (h : s.Keeps q n) {warm : Bool} {i : StartIn} : (State.startUp s warm i).Keeps q n := by
  simp [State.startUp, ↓upd_keeps, ↓ite_keeps, ↓res_ite_keeps, ↓ite_keeps_fst, h]

@[simp] theorem State.stowRefuse_keeps : (State.stowRefuse s).Keeps q n ↔ s.Keeps q n := by
  simp [State.stowRefuse, ↓upd_keeps, ↓ite_keeps, ↓res_ite_keeps, ↓ite_keeps_fst]

@[simp] theorem State.stowCopy_keeps {op : Nat} : (State.stowCopy s op).Keeps q n ↔ s.Keeps q n := by
  simp [State.stowCopy, ↓upd_keeps, ↓ite_keeps, ↓res_ite_keeps, ↓ite_keeps_fst]

@[simp] theorem execStowLoad_keeps (h : s.Keeps q n) {m : Master} : Res.Keeps q n (execStowLoad m s) := by
  simp [execStowLoad, ↓upd_keeps, ↓ite_keeps, ↓res_ite_keeps, ↓ite_keeps_fst, h]

@[simp] theorem State.dropStaged_keeps : (State.dropStaged s).Keeps q n ↔ s.Keeps q n := by
  simp [State.dropStaged, ↓upd_keeps, ↓ite_keeps, ↓res_ite_keeps, ↓ite_keeps_fst]

@[simp] theorem execStowStage_keeps (h : s.Keeps q n) {m : Master} : Res.Keeps q n (execStowStage m s) := by
  simp [execStowStage, ↓upd_keeps, ↓ite_keeps, ↓res_ite_keeps, ↓ite_keeps_fst, h]

@[simp] theorem execStowSchedule_keeps (h : s.Keeps q n) {m : Master} : Res.Keeps q n (execStowSchedule m s) := by
  unfold execStowSchedule
  repeat' (first | assumption | with_reducible apply State.guarded_keeps_of | with_reducible apply foldl_keeps_of | rw [ok_keeps] | rw [next_keeps] | with_reducible intro _ | (split <;> try (rename_i e; have e2 := congrArg Prod.fst e; dsimp only at e2; subst e2)) | dsimp only | simp [h])

@[simp] theorem execStowDiscard_keeps (h : s.Keeps q n) {m : Master} : Res.Keeps q n (execStowDiscard m s) := by
  unfold execStowDiscard
  repeat' (first | assumption | with_reducible apply State.cancelActs_keeps | with_reducible apply State.guarded_keeps_of | with_reducible apply State.launchAll_keeps | with_reducible apply foldl_keeps_of | rw [ok_keeps] | rw [next_keeps] | with_reducible intro _ | (split <;> try (rename_i e; have e2 := congrArg Prod.fst e; dsimp only at e2; subst e2)) | dsimp only | simp [h])

@[simp] theorem State.stowRead_keeps (h : s.Keeps q n) {a : Nat} {errs : List BurstErr} {i0 : List (Nat × (Nat × Nat))} {i1 : List Byte} : (State.stowRead s a errs i0 i1).1.Keeps q n := by
  induction i0 generalizing s i1 with
  | nil => exact h
  | cons x l ih =>
    obtain ⟨j, i, m⟩ := x
    rw [State.stowRead]
    have c : (s.check .cpc ((a + i) % 2 ^ 48) m 1 false).1.Keeps q n := by simp [h]
    generalize s.check .cpc ((a + i) % 2 ^ 48) m 1 false = r at c ⊢
    rcases r with ⟨s1, tgt | _ | _ | _ | _⟩ <;> try exact c
    rcases tgt with r | ⟨t, o⟩ | _ | _ | _ | _ <;> try exact c
    · have d := fun f => State.hbmRead_keeps (s := s1) (r := r) (a := (a + i) % 2 ^ 48) (n' := m) (addr := s.global (a + i)) (errs := f) |>.2 c
      dsimp only at d ⊢
      split <;> (rename_i g; have e := congrArg Prod.fst g; dsimp only at e; subst e)
      · exact ih (d _)
      · exact d _
    · dsimp only
      split <;> (rename_i g; have e := congrArg Prod.fst g; dsimp only at e; subst e)
      · exact ih (State.spadServe_keeps c)
      · exact State.spadServe_keeps c

@[simp] theorem State.stowBytes_keeps (h : s.Keeps q n) {image : List Byte} {hostFail : Option Nat} {errs : List BurstErr} : (State.stowBytes s image hostFail errs).1.Keeps q n := by
  simp only [State.stowBytes]
  (repeat' split) <;> simp [h]

@[simp] theorem State.stowDone_keeps (h : s.Keeps q n) {op : Nat} {i : Image} : (State.stowDone s op i).Keeps q n := by
  simp [State.stowDone, ↓upd_keeps, ↓ite_keeps, ↓res_ite_keeps, ↓ite_keeps_fst, h]

@[simp] theorem execStowCopyComplete_keeps (h : s.Keeps q n) {image : List Byte} {hostFail : Option Nat} {errs : List BurstErr} : Res.Keeps q n (execStowCopyComplete image hostFail errs s) := by
  unfold execStowCopyComplete
  repeat' (first | assumption | with_reducible apply State.stowBytes_keeps | with_reducible apply State.stowDone_keeps | with_reducible apply foldl_keeps_of | rw [ok_keeps] | rw [next_keeps] | with_reducible intro _ | (split <;> try (rename_i e; have e2 := congrArg Prod.fst e; dsimp only at e2; subst e2)) | dsimp only | simp [h])

@[simp] theorem execTableSwap_keeps (h : s.Keeps q n) : Res.Keeps q n (execTableSwap s) := by
  unfold execTableSwap
  split
  · exact ok_keeps.2 h
  · rename_i e
    have k := (State.takeDue_keeps (q := q) (n := n) _ e).2 h
    dsimp only at k
    split
    · exact ok_keeps.2 k
    split
    · exact ok_keeps.2 k
    · dsimp only
      split
      · simp [k]
      · exact ok_keeps.2 (State.powerSites_keeps.2 (State.putInForce_keeps (State.moveTiles_keeps.2 k)))

@[simp] theorem State.tbRaise_keeps {f : Fld} {n' : EvName} : (State.tbRaise s f n').Keeps q n ↔ s.Keeps q n := by
  simp [State.tbRaise, ↓upd_keeps, ↓ite_keeps, ↓res_ite_keeps, ↓ite_keeps_fst]

@[simp] theorem State.tbSet_keeps {st : Nat} : (State.tbSet s st).Keeps q n ↔ s.Keeps q n := by
  simp [State.tbSet, ↓upd_keeps, ↓ite_keeps, ↓res_ite_keeps, ↓ite_keeps_fst]

@[simp] theorem State.tbLeave_keeps {st : Nat} : (State.tbLeave s st).Keeps q n ↔ s.Keeps q n := by
  simp [State.tbLeave, ↓upd_keeps, ↓ite_keeps, ↓res_ite_keeps, ↓ite_keeps_fst]

@[simp] theorem State.tickLoss_keeps : (State.tickLoss s).Keeps q n ↔ s.Keeps q n := by
  simp [State.tickLoss, ↓upd_keeps, ↓ite_keeps, ↓res_ite_keeps, ↓ite_keeps_fst]

@[simp] theorem State.tnConflict_keeps : (State.tnConflict s).Keeps q n ↔ s.Keeps q n := by
  simp [State.tnConflict, ↓upd_keeps, ↓ite_keeps, ↓res_ite_keeps, ↓ite_keeps_fst]

@[simp] theorem State.tbLocked_keeps : (State.tbLocked s).Keeps q n ↔ s.Keeps q n := by
  simp [State.tbLocked, ↓upd_keeps, ↓ite_keeps, ↓res_ite_keeps, ↓ite_keeps_fst]

@[simp] theorem State.tbLock_keeps (h : s.Keeps q n) {tn : Nat} : (State.tbLock s tn).Keeps q n := by
  simp [State.tbLock, ↓upd_keeps, ↓ite_keeps, ↓res_ite_keeps, ↓ite_keeps_fst, h]

@[simp] theorem State.phaseErr_keeps {e : Int} : (State.phaseErr s e).Keeps q n ↔ s.Keeps q n := by
  simp [State.phaseErr, ↓upd_keeps, ↓ite_keeps, ↓res_ite_keeps, ↓ite_keeps_fst]

@[simp] theorem State.sourceEdge_keeps (h : s.Keeps q n) {phase : Int} {tn : Option Nat} {hold : Bool} : (State.sourceEdge s phase tn hold).Keeps q n := by
  simp only [State.sourceEdge]
  (repeat' split) <;> simp [h]

@[simp] theorem State.tokens_keeps : (State.tokens s).Keeps q n ↔ s.Keeps q n := by
  simp [State.tokens, ↓upd_keeps, ↓ite_keeps, ↓res_ite_keeps, ↓ite_keeps_fst]

@[simp] theorem State.askDelays_keeps : (State.askDelays s).Keeps q n ↔ s.Keeps q n := by
  simp [State.askDelays, ↓upd_keeps, ↓ite_keeps, ↓res_ite_keeps, ↓ite_keeps_fst]

@[simp] theorem State.latchTrims_keeps : (State.latchTrims s).Keeps q n ↔ s.Keeps q n := by
  simp [State.latchTrims, ↓upd_keeps, ↓ite_keeps, ↓res_ite_keeps, ↓ite_keeps_fst]

@[simp] theorem State.countLost_keeps : (State.countLost s).Keeps q n ↔ s.Keeps q n := by
  simp [State.countLost, ↓upd_keeps, ↓ite_keeps, ↓res_ite_keeps, ↓ite_keeps_fst]

@[simp] theorem execTickEdge_keeps (h : s.Keeps q n) : Res.Keeps q n (execTickEdge s) := by
  unfold execTickEdge
  extract_lets _ s1 s2 s3 s4
  have k0 : State.Keeps q n { s with tb := { s.tb with edge := s.time } } := (upd_keeps rfl rfl rfl rfl rfl rfl rfl rfl rfl rfl rfl).2 h
  have k1 : s1.Keeps q n := State.wr_keeps.2 (State.firewallTick_keeps.2 k0)
  clear_value s1
  have k2 : s2.Keeps q n := State.tokens_keeps.2 (State.countLost_keeps.2 (State.latchTrims_keeps.2 k1))
  clear_value s2
  have k3 : s3.Keeps q n := by
    show State.Keeps q n (if _ then _ else _)
    split
    · exact State.askDelays_keeps.2 k2
    · exact k2
  clear_value s3
  have k4 : s4.Keeps q n := by
    show State.Keeps q n (if _ then _ else _)
    split
    · exact State.heartbeat_keeps k3
    · exact k3
  clear_value s4
  exact ok_keeps.2 (State.autoSwaps_keeps.2 (State.commitDue_keeps k4))

@[simp] theorem execTickInEdge_keeps (h : s.Keeps q n) {phase : Int} : Res.Keeps q n (execTickInEdge phase s) := by
  simp [execTickInEdge, ↓upd_keeps, ↓ite_keeps, ↓res_ite_keeps, ↓ite_keeps_fst, h]

@[simp] theorem State.sourceTn_keeps {tn : Nat} : (State.sourceTn s tn).Keeps q n ↔ s.Keeps q n := by
  simp [State.sourceTn, ↓upd_keeps, ↓ite_keeps, ↓res_ite_keeps, ↓ite_keeps_fst]

@[simp] theorem execTickFrame_keeps (h : s.Keeps q n) {frame : BitVec 80} : Res.Keeps q n (execTickFrame frame s) := by
  simp [execTickFrame, ↓upd_keeps, ↓ite_keeps, ↓res_ite_keeps, ↓ite_keeps_fst, h]

@[simp] theorem execTick_keeps (h : s.Keeps q n) {p : Fin 32} {tn : Dword} {offset : Word} {depth : Byte} {holdover : Bool} {arrival : Int} : Res.Keeps q n (execTick p tn offset depth holdover arrival s) := by
  simp [execTick, ↓upd_keeps, ↓ite_keeps, ↓res_ite_keeps, ↓ite_keeps_fst, h]

@[simp] theorem execTickEdgeMissing_keeps (h : s.Keeps q n) : Res.Keeps q n (execTickEdgeMissing s) := by
  simp [execTickEdgeMissing, ↓upd_keeps, ↓ite_keeps, ↓res_ite_keeps, ↓ite_keeps_fst, h]

@[simp] theorem execTickLockTimeout_keeps (h : s.Keeps q n) : Res.Keeps q n (execTickLockTimeout s) := by
  simp [execTickLockTimeout, ↓upd_keeps, ↓ite_keeps, ↓res_ite_keeps, ↓ite_keeps_fst, h]

@[simp] theorem execDelayReq_keeps (h : s.Keeps q n) {p : Fin 32} {t1 : Dword} {t2 : Dword} {t3 : Dword} : Res.Keeps q n (execDelayReq p t1 t2 t3 s) := by
  simp [execDelayReq, ↓upd_keeps, ↓ite_keeps, ↓res_ite_keeps, ↓ite_keeps_fst, h]

@[simp] theorem execDelayResp_keeps (h : s.Keeps q n) {p : Fin 32} {t1 : Dword} {t2 : Dword} {t3 : Dword} {t4 : Dword} : Res.Keeps q n (execDelayResp p t1 t2 t3 t4 s) := by
  simp [execDelayResp, ↓upd_keeps, ↓ite_keeps, ↓res_ite_keeps, ↓ite_keeps_fst, h]

@[simp] theorem execTbActAdd_keeps (h : s.Keeps q n) {m : Master} {type : BitVec 4} : Res.Keeps q n (execTbActAdd m type s) := by
  simp only [execTbActAdd]
  (repeat' split) <;> simp [h]

@[simp] theorem execTbActCancel_keeps (h : s.Keeps q n) {m : Master} {slot : BitVec 10} : Res.Keeps q n (execTbActCancel m slot s) := by
  unfold execTbActCancel
  repeat' (first | assumption | with_reducible apply State.cancelActs_keeps | with_reducible apply State.guarded_keeps_of | with_reducible apply foldl_keeps_of | rw [ok_keeps] | rw [next_keeps] | with_reducible intro _ | (split <;> try (rename_i e; have e2 := congrArg Prod.fst e; dsimp only at e2; subst e2)) | dsimp only | simp [h])

@[simp] theorem execRelock_keeps (h : s.Keeps q n) {m : Master} : Res.Keeps q n (execRelock m s) := by
  simp [execRelock, ↓upd_keeps, ↓ite_keeps, ↓res_ite_keeps, ↓ite_keeps_fst, h]

@[simp] theorem execClearStats_keeps (h : s.Keeps q n) {m : Master} : Res.Keeps q n (execClearStats m s) := by
  simp [execClearStats, ↓upd_keeps, ↓ite_keeps, ↓res_ite_keeps, ↓ite_keeps_fst, h]

@[simp] theorem execPhaseStart_keeps (h : s.Keeps q n) : Res.Keeps q n (execPhaseStart s) := by
  unfold execPhaseStart
  repeat' (first | assumption | with_reducible apply State.forEach_keeps_of | exact (State.takeDue_keeps _ (by assumption)).2 (by assumption) | with_reducible apply foldl_keeps_of | rw [ok_keeps] | rw [next_keeps] | with_reducible intro _ | (split <;> try (rename_i e; have e2 := congrArg Prod.fst e; dsimp only at e2; subst e2)) | dsimp only | simp [h])

@[simp] theorem State.toPorts_keeps {b : List Byte} : (State.toPorts s b).Keeps q n ↔ s.Keeps q n := by
  simp [State.toPorts, ↓upd_keeps, ↓ite_keeps, ↓res_ite_keeps, ↓ite_keeps_fst]

@[simp] theorem State.timeAll_keeps : (State.timeAll s).Keeps q n ↔ s.Keeps q n := by
  simp [State.timeAll, ↓upd_keeps, ↓ite_keeps, ↓res_ite_keeps, ↓ite_keeps_fst]

@[simp] theorem State.stopNow_keeps : (State.stopNow s).Keeps q n ↔ s.Keeps q n := by
  simp [State.stopNow, ↓upd_keeps, ↓ite_keeps, ↓res_ite_keeps, ↓ite_keeps_fst]

@[simp] theorem execGlobalStop_keeps (h : s.Keeps q n) : Res.Keeps q n (execGlobalStop s) := by
  unfold execGlobalStop
  repeat' (first | assumption | exact (State.takeDue_keeps _ (by assumption)).2 (by assumption) | with_reducible apply foldl_keeps_of | rw [ok_keeps] | rw [next_keeps] | with_reducible intro _ | (split <;> try (rename_i e; have e2 := congrArg Prod.fst e; dsimp only at e2; subst e2)) | dsimp only | simp [h])

@[simp] theorem execStop_keeps (h : s.Keeps q n) {p0 : Fin 32} : Res.Keeps q n (execStop p0 s) := by
  simp [execStop, ↓upd_keeps, ↓ite_keeps, ↓res_ite_keeps, ↓ite_keeps_fst, h]

@[simp] theorem execStopDoneSend_keeps (h : s.Keeps q n) : Res.Keeps q n (execStopDoneSend s) := by
  simp [execStopDoneSend, ↓upd_keeps, ↓ite_keeps, ↓res_ite_keeps, ↓ite_keeps_fst, h]

@[simp] theorem execStopDone_keeps (h : s.Keeps q n) {p : Fin 32} : Res.Keeps q n (execStopDone p s) := by
  simp [execStopDone, ↓upd_keeps, ↓ite_keeps, ↓res_ite_keeps, ↓ite_keeps_fst, h]

@[simp] theorem execStopPortOpen_keeps (h : s.Keeps q n) : Res.Keeps q n (execStopPortOpen s) := by
  simp [execStopPortOpen, ↓upd_keeps, ↓ite_keeps, ↓res_ite_keeps, ↓ite_keeps_fst, h]

@[simp] theorem State.resumeIssue_keeps (h : s.Keeps q n) : (State.resumeIssue s).Keeps q n := by
  unfold State.resumeIssue
  extract_lets s1 s2
  have k1 : s1.Keeps q n := (State.forEach_keeps _ fun _ _ => State.setTile_keeps).2 h
  clear_value s1
  have k2 : s2.Keeps q n := State.snapStart_keeps.2 (State.dPumpAll_keeps.2 k1)
  clear_value s2
  refine State.launchAll_keeps (State.timeAll_keeps.2 (State.forEach_keeps_of k2 _ fun a x ha => ?_))
  split
  · exact State.destroyStep_keeps ha
  · exact ha

@[simp] theorem State.endStop_keeps (h : s.Keeps q n) {replay : Bool} : (State.endStop s replay).Keeps q n := by
  unfold State.endStop
  extract_lets l s1 s2
  have k1 : s1.Keeps q n := State.wrs_keeps.2 ((upd_keeps rfl rfl rfl rfl rfl rfl rfl rfl rfl rfl rfl).2 h)
  clear_value s1
  have k2 : s2.Keeps q n := foldl_keeps_of k1 fun a b ha => State.sendPkt_keeps.2 ha
  clear_value s2
  split
  · exact (upd_keeps rfl rfl rfl rfl rfl rfl rfl rfl rfl rfl rfl).2 k2
  · exact State.resumeIssue_keeps k2

@[simp] theorem State.resumeOr_keeps (h : s.Keeps q n) {replay : Bool} : (State.resumeOr s replay).Keeps q n := by
  simp [State.resumeOr, ↓upd_keeps, ↓ite_keeps, ↓res_ite_keeps, ↓ite_keeps_fst, h]

@[simp] theorem State.resumeReplay_keeps (h : s.Keeps q n) {m : Master} : (State.resumeReplay s m).Keeps q n := by
  unfold State.resumeReplay
  repeat' (first | assumption | with_reducible apply State.guarded_keeps_of | with_reducible apply State.resumeOr_keeps | with_reducible apply foldl_keeps_of | rw [ok_keeps] | rw [next_keeps] | with_reducible intro _ | (split <;> try (rename_i e; have e2 := congrArg Prod.fst e; dsimp only at e2; subst e2)) | dsimp only | simp [h])

@[simp] theorem execResumeDiscard_keeps (h : s.Keeps q n) {m : Master} : Res.Keeps q n (execResumeDiscard m s) := by
  unfold execResumeDiscard
  repeat' (first | assumption | with_reducible apply State.guarded_keeps_of | with_reducible apply State.resumeOr_keeps | with_reducible apply foldl_keeps_of | rw [ok_keeps] | rw [next_keeps] | with_reducible intro _ | (split <;> try (rename_i e; have e2 := congrArg Prod.fst e; dsimp only at e2; subst e2)) | dsimp only | simp [h])

@[simp] theorem State.sampleOne_keeps {j : Nat} : (State.sampleOne s j).Keeps q n ↔ s.Keeps q n := by
  simp [State.sampleOne, ↓upd_keeps, ↓ite_keeps, ↓res_ite_keeps, ↓ite_keeps_fst]

@[simp] theorem execCounterSample_keeps (h : s.Keeps q n) : Res.Keeps q n (execCounterSample s) := by
  unfold execCounterSample
  repeat' (first | assumption | with_reducible apply State.forEach_keeps_of | exact (State.takeDue_keeps _ (by assumption)).2 (by assumption) | with_reducible apply foldl_keeps_of | rw [ok_keeps] | rw [next_keeps] | with_reducible intro _ | (split <;> try (rename_i e; have e2 := congrArg Prod.fst e; dsimp only at e2; subst e2)) | dsimp only | simp [h])

@[simp] theorem State.evtAll_keeps {b : Bool} : (State.evtAll s b).Keeps q n ↔ s.Keeps q n := by
  simp [State.evtAll, ↓upd_keeps, ↓ite_keeps, ↓res_ite_keeps, ↓ite_keeps_fst]

@[simp] theorem execEvtFreeze_keeps (h : s.Keeps q n) {m : Master} : Res.Keeps q n (execEvtFreeze m s) := by
  simp [execEvtFreeze, ↓upd_keeps, ↓ite_keeps, ↓res_ite_keeps, ↓ite_keeps_fst, h]

@[simp] theorem execEvtThaw_keeps (h : s.Keeps q n) {m : Master} : Res.Keeps q n (execEvtThaw m s) := by
  simp [execEvtThaw, ↓upd_keeps, ↓ite_keeps, ↓res_ite_keeps, ↓ite_keeps_fst, h]

@[simp] theorem State.dumpEnd_keeps {st : Nat} {err : Nat} : (State.dumpEnd s st err).Keeps q n ↔ s.Keeps q n := by
  simp [State.dumpEnd, ↓upd_keeps, ↓ite_keeps, ↓res_ite_keeps, ↓ite_keeps_fst]

@[simp] theorem execDumpArm_keeps (h : s.Keeps q n) {m : Master} : Res.Keeps q n (execDumpArm m s) := by
  simp [execDumpArm, ↓upd_keeps, ↓ite_keeps, ↓res_ite_keeps, ↓ite_keeps_fst, h]

@[simp] theorem execDumpCancel_keeps (h : s.Keeps q n) {m : Master} : Res.Keeps q n (execDumpCancel m s) := by
  simp [execDumpCancel, ↓upd_keeps, ↓ite_keeps, ↓res_ite_keeps, ↓ite_keeps_fst, h]

@[simp] theorem execDumpCopyDone_keeps (h : s.Keeps q n) {hostOk : Bool} {errs : List BurstErr} : Res.Keeps q n (execDumpCopyDone hostOk errs s) := by
  simp [execDumpCopyDone, ↓upd_keeps, ↓ite_keeps, ↓res_ite_keeps, ↓ite_keeps_fst, h]

end Sys2Proof.Machine
end

