-- ==== Sys2Proof/Laws/KeepsControl.lean ====
section
/-! SUPPORT. What the functions of power, safety, security, firmware, the host, registers and requests keep (KeepsBase). -/

set_option linter.all false

namespace Sys2Proof.Machine

variable {q : List Instr} {n : Nat} {s : State}

@[simp] theorem State.domains_keeps {l : List Nat} {b : Bool} : (State.domains s l b).Keeps q n ↔ s.Keeps q n := by
  simp [State.domains, ↓upd_keeps, ↓ite_keeps, ↓res_ite_keeps, ↓ite_keeps_fst]

@[simp] theorem State.off48_keeps (h : s.Keeps q n) : (State.off48 s).Keeps q n := by
  simp [State.off48, ↓upd_keeps, ↓ite_keeps, ↓res_ite_keeps, ↓ite_keeps_fst, h]

@[simp] theorem State.startIf_keeps (h : s.Keeps q n) {warm : Bool} {i : StartIn} : (State.startIf s warm i).Keeps q n := by
  simp [State.startIf, ↓upd_keeps, ↓ite_keeps, ↓res_ite_keeps, ↓ite_keeps_fst, h]

@[simp] theorem execAuxPowerOn_keeps (h : s.Keeps q n) {i : StartIn} {v48 : Bool} : Res.Keeps q n (execAuxPowerOn i s v48) := by
  simp [execAuxPowerOn, ↓upd_keeps, ↓ite_keeps, ↓res_ite_keeps, ↓ite_keeps_fst, h]

@[simp] theorem execAuxPowerOff_keeps (h : s.Keeps q n) : Res.Keeps q n (execAuxPowerOff s) := by
  have k : State.Keeps q n { s with pwr := { s.pwr with aux := false, v48 := false, trip := false, retained := false }, i3c := {} } :=
    upd_keeps_of h id id (fun _ => List.nodup_nil) id rfl rfl rfl rfl rfl rfl rfl
  exact ok_keeps.2 (State.wr_keeps.2 (State.setRegs_keeps.2 (State.domains_keeps.2 (State.off48_keeps k))))

@[simp] theorem execVinReturn_keeps (h : s.Keeps q n) {i : StartIn} : Res.Keeps q n (execVinReturn i s) := by
  simp [execVinReturn, ↓upd_keeps, ↓ite_keeps, ↓res_ite_keeps, ↓ite_keeps_fst, h]

@[simp] theorem State.supplyRecord_keeps {kind : Nat} {die : Nat} {detail : List Byte} : (State.supplyRecord s kind die detail).Keeps q n ↔ s.Keeps q n := by
  simp [State.supplyRecord, ↓upd_keeps, ↓ite_keeps, ↓res_ite_keeps, ↓ite_keeps_fst]

@[simp] theorem execVinRangeFault_keeps (h : s.Keeps q n) {mv : BitVec 16} : Res.Keeps q n (execVinRangeFault mv s) := by
  simp [execVinRangeFault, ↓upd_keeps, ↓ite_keeps, ↓res_ite_keeps, ↓ite_keeps_fst, h]

@[simp] theorem execVinLowShutdown_keeps (h : s.Keeps q n) {mv : BitVec 16} : Res.Keeps q n (execVinLowShutdown mv s) := by
  simp [execVinLowShutdown, ↓upd_keeps, ↓ite_keeps, ↓res_ite_keeps, ↓ite_keeps_fst, h]

@[simp] theorem execWarmStart_keeps (h : s.Keeps q n) {m : Master} {i : StartIn} : Res.Keeps q n (execWarmStart m i s) := by
  unfold execWarmStart
  repeat' (first | assumption | with_reducible apply State.guarded_keeps_of | with_reducible apply State.startIf_keeps | with_reducible apply foldl_keeps_of | rw [ok_keeps] | rw [next_keeps] | with_reducible intro _ | (split <;> try (rename_i e; have e2 := congrArg Prod.fst e; dsimp only at e2; subst e2)) | dsimp only | simp [h])

@[simp] theorem State.coldStart_keeps (h : s.Keeps q n) {i : StartIn} : (State.coldStart s i).Keeps q n := by
  simp [State.coldStart, ↓upd_keeps, ↓ite_keeps, ↓res_ite_keeps, ↓ite_keeps_fst, h]

@[simp] theorem execColdStart_keeps (h : s.Keeps q n) {m : Master} {i : StartIn} : Res.Keeps q n (execColdStart m i s) := by
  unfold execColdStart
  repeat' (first | assumption | with_reducible apply State.coldStart_keeps | with_reducible apply State.guarded_keeps_of | with_reducible apply foldl_keeps_of | rw [ok_keeps] | rw [next_keeps] | with_reducible intro _ | (split <;> try (rename_i e; have e2 := congrArg Prod.fst e; dsimp only at e2; subst e2)) | dsimp only | simp [h])

@[simp] theorem execStartRetry_keeps (h : s.Keeps q n) {i : StartIn} : Res.Keeps q n (execStartRetry i s) := by
  simp [execStartRetry, ↓upd_keeps, ↓ite_keeps, ↓res_ite_keeps, ↓ite_keeps_fst, h]

@[simp] theorem execStepTimeout_keeps (h : s.Keeps q n) : Res.Keeps q n (execStepTimeout s) := by
  simp [execStepTimeout, ↓upd_keeps, ↓ite_keeps, ↓res_ite_keeps, ↓ite_keeps_fst, h]

@[simp] theorem execDomainFault_keeps (h : s.Keeps q n) {i : Fin 30} {raw : BitVec 16} : Res.Keeps q n (execDomainFault i raw s) := by
  simp [execDomainFault, ↓upd_keeps, ↓ite_keeps, ↓res_ite_keeps, ↓ite_keeps_fst, h]

@[simp] theorem execSitePowerUp_keeps (h : s.Keeps q n) {d : Fin 8} : Res.Keeps q n (execSitePowerUp d s) := by
  simp only [execSitePowerUp]
  (repeat' split) <;> simp [h]

@[simp] theorem State.setRate_keeps {d : Nat} {r : Nat} : (State.setRate s d r).Keeps q n ↔ s.Keeps q n := by
  simp [State.setRate, ↓upd_keeps, ↓ite_keeps, ↓res_ite_keeps, ↓ite_keeps_fst]

@[simp] theorem State.shares_keeps : (State.shares s).Keeps q n ↔ s.Keeps q n := by
  simp [State.shares, ↓upd_keeps, ↓ite_keeps, ↓res_ite_keeps, ↓ite_keeps_fst]

@[simp] theorem State.sharesGo_keeps : (State.sharesGo s).Keeps q n ↔ s.Keeps q n := by
  simp [State.sharesGo, ↓upd_keeps, ↓ite_keeps, ↓res_ite_keeps, ↓ite_keeps_fst]

@[simp] theorem State.threshold_keeps {d : Nat} {temp : Nat} {k : Nat} : (State.threshold s d temp k).Keeps q n ↔ s.Keeps q n := by
  simp [State.threshold, ↓upd_keeps, ↓ite_keeps, ↓res_ite_keeps, ↓ite_keeps_fst]

@[simp] theorem execDieTempSample_keeps (h : s.Keeps q n) {d : Fin 9} {raw : List (BitVec 16)} : Res.Keeps q n (execDieTempSample d raw s) := by
  unfold execDieTempSample
  repeat' (first | assumption | with_reducible apply State.forEach_keeps_of | with_reducible apply State.off48_keeps | with_reducible apply State.stopDies_keeps | with_reducible apply foldl_keeps_of | rw [ok_keeps] | rw [next_keeps] | with_reducible intro _ | (split <;> try (rename_i e; have e2 := congrArg Prod.fst e; dsimp only at e2; subst e2)) | dsimp only | simp [h])

@[simp] theorem execPowerSample_keeps (h : s.Keeps q n) {i : PowerIn} : Res.Keeps q n (execPowerSample i s) := by
  unfold execPowerSample
  extract_lets s1 r _ s2
  have k1 : s1.Keeps q n := State.wrs_keeps.2 h
  have hr : s1.pwr.power ≤ 16 → r.1 ≤ 16 := by
    intro hp
    have e : r = s1.powerShare i := rfl
    clear_value s1
    rw [e]
    unfold State.powerShare
    dsimp only
    repeat' split
    all_goals first | exact hp | omega
  clear_value s1 r
  have k2 : s2.Keeps q n := upd_keeps_of k1 hr id id id rfl rfl rfl rfl rfl rfl rfl
  clear_value s2
  exact ok_keeps.2 (ite_imp_keeps k2 (State.sharesGo_keeps.2 (State.pwrEvent_keeps.2 k2)))

@[simp] theorem execPowerRamp_keeps (h : s.Keeps q n) : Res.Keeps q n (execPowerRamp s) := by
  unfold execPowerRamp
  repeat' (first | assumption | exact (State.takeDue_keeps _ (by assumption)).2 (by assumption) | with_reducible apply foldl_keeps_of | rw [ok_keeps] | rw [next_keeps] | with_reducible intro _ | (split <;> try (rename_i e; have e2 := congrArg Prod.fst e; dsimp only at e2; subst e2)) | dsimp only | simp [h])

@[simp] theorem State.mothball_keeps : (State.mothball s).Keeps q n ↔ s.Keeps q n := by
  simp [State.mothball, ↓upd_keeps, ↓ite_keeps, ↓res_ite_keeps, ↓ite_keeps_fst]

@[simp] theorem execMothball_keeps (h : s.Keeps q n) {m : Master} : Res.Keeps q n (execMothball m s) := by
  simp [execMothball, ↓upd_keeps, ↓ite_keeps, ↓res_ite_keeps, ↓ite_keeps_fst, h]

@[simp] theorem execMothballEntry_keeps (h : s.Keeps q n) : Res.Keeps q n (execMothballEntry s) := by
  simp [execMothballEntry, ↓upd_keeps, ↓ite_keeps, ↓res_ite_keeps, ↓ite_keeps_fst, h]

@[simp] theorem State.wake_keeps : (State.wake s).Keeps q n ↔ s.Keeps q n := by
  simp [State.wake, ↓upd_keeps, ↓ite_keeps, ↓res_ite_keeps, ↓ite_keeps_fst]

@[simp] theorem execWake_keeps (h : s.Keeps q n) {m : Master} : Res.Keeps q n (execWake m s) := by
  simp [execWake, ↓upd_keeps, ↓ite_keeps, ↓res_ite_keeps, ↓ite_keeps_fst, h]

@[simp] theorem State.wakeTiles_keeps : (State.wakeTiles s).Keeps q n ↔ s.Keeps q n := by
  simp [State.wakeTiles, ↓upd_keeps, ↓ite_keeps, ↓res_ite_keeps, ↓ite_keeps_fst]

@[simp] theorem execWakeComplete_keeps (h : s.Keeps q n) : Res.Keeps q n (execWakeComplete s) := by
  simp [execWakeComplete, ↓upd_keeps, ↓ite_keeps, ↓res_ite_keeps, ↓ite_keeps_fst, h]

@[simp] theorem execEngineWatchdog_keeps (h : s.Keeps q n) {t : Fin 1200} {e : Engine} : Res.Keeps q n (execEngineWatchdog t e s) := by
  simp only [execEngineWatchdog]
  (repeat' split) <;> simp [h]

@[simp] theorem execSafetyDegraded_keeps (h : s.Keeps q n) {b : Fin 64} : Res.Keeps q n (execSafetyDegraded b s) := by
  simp [execSafetyDegraded, ↓upd_keeps, ↓ite_keeps, ↓res_ite_keeps, ↓ite_keeps_fst, h]

@[simp] theorem State.testTile_keeps {t : Nat} : (State.testTile s t).Keeps q n ↔ s.Keeps q n := by
  simp [State.testTile, ↓upd_keeps, ↓ite_keeps, ↓res_ite_keeps, ↓ite_keeps_fst]

@[simp] theorem State.openTest_keeps {b : Nat} : (State.openTest s b).1.Keeps q n ↔ s.Keeps q n := by
  simp [State.openTest, ↓upd_keeps, ↓ite_keeps, ↓res_ite_keeps, ↓ite_keeps_fst]

@[simp] theorem State.testBays_keeps {bs : List Nat} : (State.testBays s bs).Keeps q n ↔ s.Keeps q n := by
  simp [State.testBays, ↓upd_keeps, ↓ite_keeps, ↓res_ite_keeps, ↓ite_keeps_fst]

@[simp] theorem execSelftestSlot_keeps (h : s.Keeps q n) : Res.Keeps q n (execSelftestSlot s) := by
  unfold execSelftestSlot
  split
  · exact ok_keeps.2 h
  · rename_i a s1 e
    have k : s1.Keeps q n := (State.takeDue_keeps _ e).2 h
    refine ok_keeps.2 (State.testBays_keeps.2 ?_)
    exact State.forEach_keeps_of k _ fun b d hb => State.withdraw_keeps hb

@[simp] theorem State.testStop_keeps {b : Nat} : (State.testStop s b).Keeps q n ↔ s.Keeps q n := by
  simp [State.testStop, ↓upd_keeps, ↓ite_keeps, ↓res_ite_keeps, ↓ite_keeps_fst]

@[simp] theorem State.tileTested_keeps (h : s.Keeps q n) {t : Nat} {pass : Bool} : (State.tileTested s t pass).Keeps q n := by
  simp only [State.tileTested]
  (repeat' split) <;> simp [h]

@[simp] theorem State.stationTested_keeps (h : s.Keeps q n) {k : Nat} {pass : Bool} : (State.stationTested s k pass).Keeps q n := by
  simp [State.stationTested, ↓upd_keeps, ↓ite_keeps, ↓res_ite_keeps, ↓ite_keeps_fst, h]

@[simp] theorem State.spadLatent_keeps {t : Nat} {bad : Option Nat} : (State.spadLatent s t bad).Keeps q n ↔ s.Keeps q n := by
  simp only [State.spadLatent]
  (repeat' split) <;> simp

@[simp] theorem execSelftestDone_keeps (h : s.Keeps q n) {u : TestUnit} {pass : Bool} {words : List Nat} {bad : Option Nat} : Res.Keeps q n (execSelftestDone u pass s words bad) := by
  simp only [execSelftestDone]
  (repeat' split) <;> simp [h]

@[simp] theorem State.repairSite_keeps {die : BitVec 3} {row : BitVec 4} {col : BitVec 4} : (State.repairSite s die row col).Keeps q n ↔ s.Keeps q n := by
  simp [State.repairSite, ↓upd_keeps, ↓ite_keeps, ↓res_ite_keeps, ↓ite_keeps_fst]

@[simp] theorem execPretest_keeps (h : s.Keeps q n) {m : Master} {die : BitVec 3} {row : BitVec 4} {col : BitVec 4} : Res.Keeps q n (execPretest m die row col s) := by
  simp [execPretest, ↓upd_keeps, ↓ite_keeps, ↓res_ite_keeps, ↓ite_keeps_fst, h]

@[simp] theorem execPretestDone_keeps (h : s.Keeps q n) {pass : Bool} {us : Word} : Res.Keeps q n (execPretestDone pass us s) := by
  simp only [execPretestDone]
  (repeat' split) <;> simp [h]

@[simp] theorem execMarkSuspect_keeps (h : s.Keeps q n) {m : Master} {die : BitVec 3} {row : BitVec 4} {col : BitVec 4} : Res.Keeps q n (execMarkSuspect m die row col s) := by
  simp [execMarkSuspect, ↓upd_keeps, ↓ite_keeps, ↓res_ite_keeps, ↓ite_keeps_fst, h]

@[simp] theorem execReportMismatch_keeps (h : s.Keeps q n) {m : Master} : Res.Keeps q n (execReportMismatch m s) := by
  simp [execReportMismatch, ↓upd_keeps, ↓ite_keeps, ↓res_ite_keeps, ↓ite_keeps_fst, h]

@[simp] theorem execSafeClearCounts_keeps (h : s.Keeps q n) {m : Master} : Res.Keeps q n (execSafeClearCounts m s) := by
  simp [execSafeClearCounts, ↓upd_keeps, ↓ite_keeps, ↓res_ite_keeps, ↓ite_keeps_fst, h]

@[simp] theorem State.secResult_keeps {bank : Nat} {code : Nat} {off : Nat} : (State.secResult s bank code off).Keeps q n ↔ s.Keeps q n := by
  simp [State.secResult, ↓upd_keeps, ↓ite_keeps, ↓res_ite_keeps, ↓ite_keeps_fst]

@[simp] theorem State.newNonce_keeps {bank : Nat} : (State.newNonce s bank).Keeps q n ↔ s.Keeps q n := by
  simp [State.newNonce, ↓upd_keeps, ↓ite_keeps, ↓res_ite_keeps, ↓ite_keeps_fst]

@[simp] theorem State.debugClose_keeps : (State.debugClose s).Keeps q n ↔ s.Keeps q n := by
  simp [State.debugClose, ↓upd_keeps, ↓ite_keeps, ↓res_ite_keeps, ↓ite_keeps_fst]

@[simp] theorem State.lifecycleTo_keeps {l : Nat} : (State.lifecycleTo s l).Keeps q n ↔ s.Keeps q n := by
  simp [State.lifecycleTo, ↓upd_keeps, ↓ite_keeps, ↓res_ite_keeps, ↓ite_keeps_fst]

@[simp] theorem State.secBegin_keeps {bank : Nat} : (State.secBegin s bank).Keeps q n ↔ s.Keeps q n := by
  simp [State.secBegin, ↓upd_keeps, ↓ite_keeps, ↓res_ite_keeps, ↓ite_keeps_fst]

@[simp] theorem State.submit_keeps {m : Master} {c : Nat} (f : State → List Byte → State) (hf : ∀ a x0, (f a x0).Keeps q n ↔ State.Keeps q n a) : (State.submit s m c f).Keeps q n ↔ s.Keeps q n := by
  unfold State.submit
  dsimp only
  split
  · rfl
  · refine State.guarded_keeps _ fun a => ?_
    split
    · simp
    · split
      · simp
      · rw [hf]; simp

theorem State.submit_keeps_of (h : s.Keeps q n) {m : Master} {c : Nat} (f : State → List Byte → State) (hf : ∀ a x0, State.Keeps q n a → (f a x0).Keeps q n) : (State.submit s m c f).Keeps q n := by
  unfold State.submit
  dsimp only
  split
  · exact h
  · refine State.guarded_keeps_of h _ fun a ha => ?_
    split
    · simp [ha]
    · split
      · simp [ha]
      · exact hf _ _ (by simp [ha])

@[simp] theorem State.ownerRegister_keeps {b : List Byte} : (State.ownerRegister s b).Keeps q n ↔ s.Keeps q n := by
  simp [State.ownerRegister, ↓upd_keeps, ↓ite_keeps, ↓res_ite_keeps, ↓ite_keeps_fst]

@[simp] theorem execOwnerRegister_keeps (h : s.Keeps q n) {m : Master} : Res.Keeps q n (execOwnerRegister m s) := by
  simp [execOwnerRegister, ↓upd_keeps, ↓ite_keeps, ↓res_ite_keeps, ↓ite_keeps_fst, h]

@[simp] theorem State.revokeSlot_keeps {slot : Nat} : (State.revokeSlot s slot).Keeps q n ↔ s.Keeps q n := by
  simp [State.revokeSlot, ↓upd_keeps, ↓ite_keeps, ↓res_ite_keeps, ↓ite_keeps_fst]

@[simp] theorem execOwnerRevoke_keeps (h : s.Keeps q n) {m : Master} : Res.Keeps q n (execOwnerRevoke m s) := by
  simp [execOwnerRevoke, ↓upd_keeps, ↓ite_keeps, ↓res_ite_keeps, ↓ite_keeps_fst, h]

@[simp] theorem execDeploy_keeps (h : s.Keeps q n) {m : Master} : Res.Keeps q n (execDeploy m s) := by
  simp [execDeploy, ↓upd_keeps, ↓ite_keeps, ↓res_ite_keeps, ↓ite_keeps_fst, h]

@[simp] theorem State.returned_keeps : (State.returned s).Keeps q n ↔ s.Keeps q n := by
  simp [State.returned, ↓upd_keeps, ↓ite_keeps, ↓res_ite_keeps, ↓ite_keeps_fst]

@[simp] theorem execReturnCmd_keeps (h : s.Keeps q n) {m : Master} {i : StartIn} : Res.Keeps q n (execReturnCmd m i s) := by
  unfold execReturnCmd
  repeat' (first | assumption | with_reducible apply State.startIf_keeps | with_reducible apply State.submit_keeps_of | with_reducible apply foldl_keeps_of | rw [ok_keeps] | rw [next_keeps] | with_reducible intro _ | (split <;> try (rename_i e; have e2 := congrArg Prod.fst e; dsimp only at e2; subst e2)) | dsimp only | simp [h])

@[simp] theorem State.debugUnlock_keeps {b : List Byte} : (State.debugUnlock s b).Keeps q n ↔ s.Keeps q n := by
  simp [State.debugUnlock, ↓upd_keeps, ↓ite_keeps, ↓res_ite_keeps, ↓ite_keeps_fst]

@[simp] theorem execDebugUnlock_keeps (h : s.Keeps q n) {m : Master} : Res.Keeps q n (execDebugUnlock m s) := by
  simp [execDebugUnlock, ↓upd_keeps, ↓ite_keeps, ↓res_ite_keeps, ↓ite_keeps_fst, h]

@[simp] theorem execClose_keeps (h : s.Keeps q n) {m : Master} : Res.Keeps q n (execClose m s) := by
  simp [execClose, ↓upd_keeps, ↓ite_keeps, ↓res_ite_keeps, ↓ite_keeps_fst, h]

@[simp] theorem State.spdm_keeps (f : State → State × List Byte) (hf : ∀ a , (f a ).1.Keeps q n ↔ State.Keeps q n a) : (State.spdm s f).Keeps q n ↔ s.Keeps q n := by
  simp [State.spdm, ↓upd_keeps, ↓ite_keeps, ↓res_ite_keeps, ↓ite_keeps_fst, hf]

theorem State.spdm_keeps_of (h : s.Keeps q n)  (f : State → State × List Byte) (hf : ∀ a , State.Keeps q n a → (f a ).1.Keeps q n) : (State.spdm s f).Keeps q n := by
  unfold State.spdm
  repeat' (first | assumption | with_reducible apply hf | with_reducible apply foldl_keeps_of | rw [ok_keeps] | rw [next_keeps] | with_reducible intro _ | (split <;> try (rename_i e; have e2 := congrArg Prod.fst e; dsimp only at e2; subst e2)) | dsimp only | simp [h])

@[simp] theorem State.spdmPlain_keeps (f : State → List Byte) : (State.spdmPlain s f).Keeps q n ↔ s.Keeps q n := by
  simp [State.spdmPlain, ↓upd_keeps, ↓ite_keeps, ↓res_ite_keeps, ↓ite_keeps_fst]

theorem State.spdmPlain_keeps_of (h : s.Keeps q n)  (f : State → List Byte) : (State.spdmPlain s f).Keeps q n := by
  unfold State.spdmPlain
  repeat' (first | assumption | with_reducible apply State.spdm_keeps_of | with_reducible apply hf | with_reducible apply foldl_keeps_of | rw [ok_keeps] | rw [next_keeps] | with_reducible intro _ | (split <;> try (rename_i e; have e2 := congrArg Prod.fst e; dsimp only at e2; subst e2)) | dsimp only | simp [h])

@[simp] theorem execGetVersion_keeps (h : s.Keeps q n) : Res.Keeps q n (execGetVersion s) := by
  simp [execGetVersion, ↓upd_keeps, ↓ite_keeps, ↓res_ite_keeps, ↓ite_keeps_fst, h]

@[simp] theorem execGetCapabilities_keeps (h : s.Keeps q n) : Res.Keeps q n (execGetCapabilities s) := by
  simp [execGetCapabilities, ↓upd_keeps, ↓ite_keeps, ↓res_ite_keeps, ↓ite_keeps_fst, h]

@[simp] theorem execNegotiateAlgorithms_keeps (h : s.Keeps q n) : Res.Keeps q n (execNegotiateAlgorithms s) := by
  simp [execNegotiateAlgorithms, ↓upd_keeps, ↓ite_keeps, ↓res_ite_keeps, ↓ite_keeps_fst, h]

@[simp] theorem execGetDigests_keeps (h : s.Keeps q n) : Res.Keeps q n (execGetDigests s) := by
  simp [execGetDigests, ↓upd_keeps, ↓ite_keeps, ↓res_ite_keeps, ↓ite_keeps_fst, h]

@[simp] theorem execGetCertificate_keeps (h : s.Keeps q n) {slot : Byte} {offset : BitVec 16} {length : BitVec 16} : Res.Keeps q n (execGetCertificate slot offset length s) := by
  simp [execGetCertificate, ↓upd_keeps, ↓ite_keeps, ↓res_ite_keeps, ↓ite_keeps_fst, h]

@[simp] theorem State.signedAnswer_keeps {reqNonce : List Byte} {head : List Byte} {mid : List Byte} {ctx : Dword} {signed : Bool} : (State.signedAnswer s reqNonce head mid ctx signed).1.Keeps q n ↔ s.Keeps q n := by
  simp [State.signedAnswer, ↓upd_keeps, ↓ite_keeps, ↓res_ite_keeps, ↓ite_keeps_fst]

@[simp] theorem execChallenge_keeps (h : s.Keeps q n) {slot : Byte} {nonce : List Byte} {summary : Byte} {ctx : Dword} : Res.Keeps q n (execChallenge slot nonce s summary ctx) := by
  unfold execChallenge
  repeat' (first | assumption | with_reducible apply State.spdm_keeps_of | with_reducible apply foldl_keeps_of | rw [ok_keeps] | rw [next_keeps] | with_reducible intro _ | (split <;> try (rename_i e; have e2 := congrArg Prod.fst e; dsimp only at e2; subst e2)) | dsimp only | simp [h])

@[simp] theorem execGetMeasurements_keeps (h : s.Keeps q n) {index : Byte} {nonce : List Byte} {ctx : Dword} {signed : Bool} : Res.Keeps q n (execGetMeasurements index nonce s ctx signed) := by
  simp [execGetMeasurements, ↓upd_keeps, ↓ite_keeps, ↓res_ite_keeps, ↓ite_keeps_fst, h]

@[simp] theorem execSpdmUnsupported_keeps (h : s.Keeps q n) {code : Byte} : Res.Keeps q n (execSpdmUnsupported code s) := by
  simp [execSpdmUnsupported, ↓upd_keeps, ↓ite_keeps, ↓res_ite_keeps, ↓ite_keeps_fst, h]

@[simp] theorem State.fwSet_keeps {st : Nat} : (State.fwSet s st).Keeps q n ↔ s.Keeps q n := by
  simp [State.fwSet, ↓upd_keeps, ↓ite_keeps, ↓res_ite_keeps, ↓ite_keeps_fst]

@[simp] theorem State.fwRefuse_keeps : (State.fwRefuse s).Keeps q n ↔ s.Keeps q n := by
  simp [State.fwRefuse, ↓upd_keeps, ↓ite_keeps, ↓res_ite_keeps, ↓ite_keeps_fst]

@[simp] theorem State.fwFailed_keeps (h : s.Keeps q n) {code : Nat} : (State.fwFailed s code).Keeps q n := by
  exact State.fwFail_keeps.2 (State.fwSet_keeps.2 (upd_keeps_of h id (fun _ => Nat.zero_le _) id id rfl rfl rfl rfl rfl rfl rfl))

@[simp] theorem execFwPrepare_keeps (h : s.Keeps q n) {m : Master} : Res.Keeps q n (execFwPrepare m s) := by
  unfold execFwPrepare
  refine ok_keeps.2 (State.guarded_keeps_of h _ fun a ha => ?_)
  dsimp only
  split
  · have k : ((a.setBank a.fwInactive {}).setBootRecord (10 + a.fwInactive) 0).Keeps q n :=
      State.setBootRecord_keeps.2 (State.setBank_keeps ha rfl)
    generalize (a.setBank a.fwInactive {}).setBootRecord (10 + a.fwInactive) 0 = b at k ⊢
    exact upd_keeps_of k id (fun _ => Nat.zero_le _) id id rfl rfl rfl rfl rfl rfl rfl
  · exact State.fwRefuse_keeps.2 ha

@[simp] theorem execFwPrepareDone_keeps (h : s.Keeps q n) : Res.Keeps q n (execFwPrepareDone s) := by
  simp [execFwPrepareDone, ↓upd_keeps, ↓ite_keeps, ↓res_ite_keeps, ↓ite_keeps_fst, h]

@[simp] theorem State.relayGo_keeps (h : s.Keeps q n) {i0 : Nat} : (State.relayGo s i0).Keeps q n := by
  induction i0 generalizing s with
  | zero => exact h
  | succ k ih =>
    unfold State.relayGo
    split
    · exact h
    split
    · exact (upd_keeps rfl rfl rfl rfl rfl rfl rfl rfl rfl rfl rfl).2 h
    split
    · exact h
    · rename_i i l _ _ hl
      have c : (s.fw.sent ++ [(i, 0, s.time)]).length ≤ 4 := by
        simp only [List.length_append, List.length_cons, List.length_nil]
        omega
      have k1 : State.Keeps q n { s with fw := { s.fw with toSend := l, sent := s.fw.sent ++ [(i, 0, s.time)] } } :=
        upd_keeps_of h (fun x => x) (fun _ => c) (fun x => x) (fun x => x) rfl rfl rfl rfl rfl rfl rfl
      exact ih (State.sendPkt_keeps.2 k1)

@[simp] theorem State.fwReceive_keeps (h : s.Keeps q n) {id : Nat} {count : Nat} {len : Option Nat} : (State.fwReceive s id count len).Keeps q n := by
  have k : State.Keeps q n { s with fw := { s.fw with id := id, count := count, len := len, done := [], toSend := [], sent := [], relayOff := false, chunks := [] } } :=
    upd_keeps_of h (fun x => x) (fun _ => Nat.zero_le _) (fun x => x) (fun x => x) rfl rfl rfl rfl rfl rfl rfl
  exact State.wrs_keeps.2 k

@[simp] theorem State.fwCheck_keeps (h : s.Keeps q n) : (State.fwCheck s).Keeps q n := by
  simp only [State.fwCheck]
  (repeat' split) <;> simp [h]

@[simp] theorem execFwStage_keeps (h : s.Keeps q n) {m : Master} {errs : List BurstErr} {ext : Option (List Byte)} : Res.Keeps q n (execFwStage m errs s ext) := by
  unfold execFwStage
  refine ok_keeps.2 (State.guarded_keeps_of h _ fun a ha => ?_)
  split
  · exact State.fwRefuse_keeps.2 ha
  · have c : (a.hubRead 0 (a.rd F.HUB_FW_SRC_addr) (a.rd F.HUB_FW_LEN_length) ext errs).1.Keeps q n := State.hubRead_keeps ha
    dsimp only
    generalize a.hubRead 0 (a.rd F.HUB_FW_SRC_addr) (a.rd F.HUB_FW_LEN_length) ext errs = r at c ⊢
    rcases r with ⟨b, _ | d⟩
    · exact State.fwFailed_keeps c
    · dsimp only at c ⊢
      generalize hx : b.fwReceive _ _ _ = u
      have k : u.Keeps q n := by rw [← hx]; exact State.fwReceive_keeps c
      clear hx
      split
      · exact State.fwCheck_keeps k
      · exact (upd_keeps rfl rfl rfl rfl rfl rfl rfl rfl rfl rfl rfl).2 k

@[simp] theorem State.relayAnswer_keeps {src : Nat} {tile : Nat} {tag : Nat} {st : Status} : (State.relayAnswer s src tile tag st).Keeps q n ↔ s.Keeps q n := by
  simp [State.relayAnswer, ↓upd_keeps, ↓ite_keeps, ↓res_ite_keeps, ↓ite_keeps_fst]

theorem State.bank_wf (h : s.Keeps q n) (k : Nat) : (s.bank k).wf = true := by
  obtain ⟨-, -, w, -⟩ := h
  simp only [State.memsWf, Bool.and_eq_true] at w
  unfold State.bank
  split
  · exact w.1.1.1.1.2
  · exact w.1.1.1.2

@[simp] theorem execFwChunkProgrammed_keeps (h : s.Keeps q n) {ok_ : Bool} : Res.Keeps q n (execFwChunkProgrammed ok_ s) := by
  unfold execFwChunkProgrammed
  split
  · exact ok_keeps.2 h
  split
  · exact ok_keeps.2 h
  split
  · exact ok_keeps.2 (State.fwFailed_keeps h)
  · rename_i i d from_ l _ _ _
    have c : ((s.setBank s.fwInactive ((s.bank s.fwInactive).write (4096 * i) d)).sends (.flash s.fwInactive (4096 * i) d)).Keeps q n :=
      State.sends_keeps.2 (State.setBank_keeps h (Mem.write_wf (State.bank_wf h _) _ _))
    dsimp only
    generalize (s.setBank s.fwInactive ((s.bank s.fwInactive).write (4096 * i) d)).sends (.flash s.fwInactive (4096 * i) d) = s1 at c ⊢
    generalize hx : State.relayGo _ 4 = s3
    have k3 : s3.Keeps q n := by
      rw [← hx]
      refine State.relayGo_keeps (State.wr_keeps.2 ?_)
      exact (upd_keeps rfl rfl rfl rfl rfl rfl rfl rfl rfl rfl rfl).2 c
    clear hx
    rw [ok_keeps]
    rcases from_ with _ | ⟨a, b, e⟩ <;> dsimp only <;> split
    · exact State.fwCheck_keeps k3
    · exact k3
    · exact State.fwCheck_keeps (State.relayAnswer_keeps.2 k3)
    · exact State.relayAnswer_keeps.2 k3

@[simp] theorem execRelay_keeps (h : s.Keeps q n) {src : BitVec 16} {tile : BitVec 11} {tag : Word} {index : Word} {count : Word} {id : Dword} {data : List Byte} : Res.Keeps q n (execRelay src tile tag index count id data s) := by
  simp [execRelay, ↓upd_keeps, ↓ite_keeps, ↓res_ite_keeps, ↓ite_keeps_fst, h]

@[simp] theorem State.relayFail_keeps (h : s.Keeps q n) : (State.relayFail s).Keeps q n := by
  exact State.wr_keeps.2 (upd_keeps_of h id (fun _ => Nat.zero_le _) id id rfl rfl rfl rfl rfl rfl rfl)

@[simp] theorem State.relayAcked_keeps (h : s.Keeps q n) {i : Nat} {st : Status} : (State.relayAcked s i st).Keeps q n := by
  unfold State.relayAcked
  split
  · have k : State.Keeps q n { s with fw := { s.fw with sent := s.fw.sent.filter (fun e => e.1 != i) } } :=
      upd_keeps_of h (fun x => x) (fun hl => (List.length_filter_le _ _).trans hl) (fun x => x) (fun x => x) rfl rfl rfl rfl rfl rfl rfl
    exact State.relayGo_keeps (State.bump_keeps.2 k)
  · exact h

@[simp] theorem execFwRelayRetry_keeps (h : s.Keeps q n) : Res.Keeps q n (execFwRelayRetry s) := by
  unfold execFwRelayRetry
  split
  · exact ok_keeps.2 h
  · rename_i e
    split
    · exact ok_keeps.2 (State.relayFail_keeps h)
    · refine ok_keeps.2 (State.sendPkt_keeps.2 (upd_keeps_of h id (fun hl => ?_) id id rfl rfl rfl rfl rfl rfl rfl))
      rw [e] at hl
      simpa using hl

@[simp] theorem execFwRelayStall_keeps (h : s.Keeps q n) : Res.Keeps q n (execFwRelayStall s) := by
  simp [execFwRelayStall, ↓upd_keeps, ↓ite_keeps, ↓res_ite_keeps, ↓ite_keeps_fst, h]

@[simp] theorem execFwRelayAgain_keeps (h : s.Keeps q n) {m : Master} : Res.Keeps q n (execFwRelayAgain m s) := by
  unfold execFwRelayAgain
  refine ok_keeps.2 (State.guarded_keeps_of h _ fun a ha => ?_)
  dsimp only
  split
  · generalize leNat _ = i
    generalize ((bootBytes (a.bank a.fwInactive)).length + 4095) / 4096 = m
    have k : State.Keeps q n { a with fw := { a.fw with id := i, count := m, toSend := List.range m, sent := [], relayOff := false } } :=
      upd_keeps_of ha (fun x => x) (fun _ => Nat.zero_le _) (fun x => x) (fun x => x) rfl rfl rfl rfl rfl rfl rfl
    exact State.relayGo_keeps (State.wrs_keeps.2 k)
  · exact State.fwRefuse_keeps.2 ha

@[simp] theorem execFwSchedule_keeps (h : s.Keeps q n) {m : Master} : Res.Keeps q n (execFwSchedule m s) := by
  unfold execFwSchedule
  repeat' (first | assumption | with_reducible apply State.guarded_keeps_of | with_reducible apply foldl_keeps_of | rw [ok_keeps] | rw [next_keeps] | with_reducible intro _ | (split <;> try (rename_i e; have e2 := congrArg Prod.fst e; dsimp only at e2; subst e2)) | dsimp only | simp [h])

@[simp] theorem execFwDiscard_keeps (h : s.Keeps q n) {m : Master} : Res.Keeps q n (execFwDiscard m s) := by
  unfold execFwDiscard
  refine ok_keeps.2 (State.guarded_keeps_of h _ fun a ha => ?_)
  dsimp only
  split
  · have k : ((a.cancelActs fun x => x.type == 5).setBootRecord (10 + a.fwInactive) 0).Keeps q n :=
      State.setBootRecord_keeps.2 (State.cancelActs_keeps ha)
    generalize (a.cancelActs fun x => x.type == 5).setBootRecord (10 + a.fwInactive) 0 = b at k ⊢
    exact State.fwSet_keeps.2 (upd_keeps_of k id (fun _ => Nat.zero_le _) id id rfl rfl rfl rfl rfl rfl rfl)
  · exact State.fwRefuse_keeps.2 ha

@[simp] theorem execFwActivate_keeps (h : s.Keeps q n) : Res.Keeps q n (execFwActivate s) := by
  unfold execFwActivate
  repeat' (first | assumption | exact (State.takeDue_keeps _ (by assumption)).2 (by assumption) | with_reducible apply foldl_keeps_of | rw [ok_keeps] | rw [next_keeps] | with_reducible intro _ | (split <;> try (rename_i e; have e2 := congrArg Prod.fst e; dsimp only at e2; subst e2)) | dsimp only | simp [h])

@[simp] theorem State.flushMsix_keeps : (State.flushMsix s).Keeps q n ↔ s.Keeps q n := by
  simp [State.flushMsix, ↓upd_keeps, ↓ite_keeps, ↓res_ite_keeps, ↓ite_keeps_fst]

@[simp] theorem State.resumeService_keeps (h : s.Keeps q n) : (State.resumeService s).Keeps q n := by
  simp [State.resumeService, ↓upd_keeps, ↓ite_keeps, ↓res_ite_keeps, ↓ite_keeps_fst, h]

@[simp] theorem execFwActivationDone_keeps (h : s.Keeps q n) : Res.Keeps q n (execFwActivationDone s) := by
  simp [execFwActivationDone, ↓upd_keeps, ↓ite_keeps, ↓res_ite_keeps, ↓ite_keeps_fst, h]

@[simp] theorem State.fallback_keeps : (State.fallback s).Keeps q n ↔ s.Keeps q n := by
  simp [State.fallback, ↓upd_keeps, ↓ite_keeps, ↓res_ite_keeps, ↓ite_keeps_fst]

@[simp] theorem execFwReject_keeps (h : s.Keeps q n) {m : Master} : Res.Keeps q n (execFwReject m s) := by
  simp [execFwReject, ↓upd_keeps, ↓ite_keeps, ↓res_ite_keeps, ↓ite_keeps_fst, h]

@[simp] theorem execFwTrialTimeout_keeps (h : s.Keeps q n) : Res.Keeps q n (execFwTrialTimeout s) := by
  simp [execFwTrialTimeout, ↓upd_keeps, ↓ite_keeps, ↓res_ite_keeps, ↓ite_keeps_fst, h]

@[simp] theorem execFwConfirm_keeps (h : s.Keeps q n) {diesAnswer : Bool} {probes : Bool} : Res.Keeps q n (execFwConfirm diesAnswer s probes) := by
  simp [execFwConfirm, ↓upd_keeps, ↓ite_keeps, ↓res_ite_keeps, ↓ite_keeps_fst, h]

@[simp] theorem State.unmaskVector_keeps {v : Nat} : (State.unmaskVector s v).Keeps q n ↔ s.Keeps q n := by
  simp [State.unmaskVector, ↓upd_keeps, ↓ite_keeps, ↓res_ite_keeps, ↓ite_keeps_fst]

@[simp] theorem execMsixUnmask_keeps (h : s.Keeps q n) {v : Fin 2048} : Res.Keeps q n (execMsixUnmask v s) := by
  simp [execMsixUnmask, ↓upd_keeps, ↓ite_keeps, ↓res_ite_keeps, ↓ite_keeps_fst, h]

@[simp] theorem State.msixPut_keeps (h : s.Keeps q n) {o : Nat} {b : Byte} : (State.msixPut s o b).Keeps q n := by
  unfold State.msixPut
  split
  · exact h
  split
  · split
    · exact State.unmaskVector_keeps.2 h
    · exact (upd_keeps rfl rfl rfl rfl rfl rfl rfl rfl rfl rfl rfl).2 h
  · exact upd_keeps_of h (fun x => x) (fun x => x) (fun x => x) (fun w => Mem.write_wf w _ _) rfl rfl rfl rfl rfl rfl rfl

@[simp] theorem State.configWrite_keeps {data : List Byte} {i0 : HostSpace} : (State.configWrite s data i0).Keeps q n ↔ s.Keeps q n := by
  simp only [State.configWrite]
  (repeat' split) <;> simp

@[simp] theorem State.linkDown_keeps : (State.linkDown s).Keeps q n ↔ s.Keeps q n := by
  simp [State.linkDown, ↓upd_keeps, ↓ite_keeps, ↓res_ite_keeps, ↓ite_keeps_fst]

@[simp] theorem execPerstAssert_keeps (h : s.Keeps q n) : Res.Keeps q n (execPerstAssert s) := by
  simp [execPerstAssert, ↓upd_keeps, ↓ite_keeps, ↓res_ite_keeps, ↓ite_keeps_fst, h]

@[simp] theorem execPerstRelease_keeps (h : s.Keeps q n) {i : StartIn} : Res.Keeps q n (execPerstRelease i s) := by
  simp [execPerstRelease, ↓upd_keeps, ↓ite_keeps, ↓res_ite_keeps, ↓ite_keeps_fst, h]

@[simp] theorem execHotReset_keeps (h : s.Keeps q n) {i : StartIn} : Res.Keeps q n (execHotReset i s) := by
  simp [execHotReset, ↓upd_keeps, ↓ite_keeps, ↓res_ite_keeps, ↓ite_keeps_fst, h]

@[simp] theorem execHostD3hot_keeps (h : s.Keeps q n) : Res.Keeps q n (execHostD3hot s) := by
  simp [execHostD3hot, ↓upd_keeps, ↓ite_keeps, ↓res_ite_keeps, ↓ite_keeps_fst, h]

@[simp] theorem execHostD0_keeps (h : s.Keeps q n) : Res.Keeps q n (execHostD0 s) := by
  simp [execHostD0, ↓upd_keeps, ↓ite_keeps, ↓res_ite_keeps, ↓ite_keeps_fst, h]

@[simp] theorem State.loftLost_keeps {t : Nat} : (State.loftLost s t).Keeps q n ↔ s.Keeps q n := by
  simp only [State.loftLost]
  (repeat' split) <;> simp

@[simp] theorem execHostLinkDown_keeps (h : s.Keeps q n) : Res.Keeps q n (execHostLinkDown s) := by
  simp [execHostLinkDown, ↓upd_keeps, ↓ite_keeps, ↓res_ite_keeps, ↓ite_keeps_fst, h]

@[simp] theorem execHostLinkUp_keeps (h : s.Keeps q n) : Res.Keeps q n (execHostLinkUp s) := by
  simp [execHostLinkUp, ↓upd_keeps, ↓ite_keeps, ↓res_ite_keeps, ↓ite_keeps_fst, h]

@[simp] theorem execShelfAttach_keeps (h : s.Keeps q n) {m : Master} {probe : ShelfProbe} : Res.Keeps q n (execShelfAttach m probe s) := by
  unfold execShelfAttach
  repeat' (first | assumption | with_reducible apply State.guarded_keeps_of | with_reducible apply State.shelfTake_keeps | with_reducible apply foldl_keeps_of | rw [ok_keeps] | rw [next_keeps] | with_reducible intro _ | (split <;> try (rename_i e; have e2 := congrArg Prod.fst e; dsimp only at e2; subst e2)) | dsimp only | simp [h])

@[simp] theorem execShelfRelease_keeps (h : s.Keeps q n) {m : Master} : Res.Keeps q n (execShelfRelease m s) := by
  unfold execShelfRelease
  refine ok_keeps.2 (State.guarded_keeps_of h _ fun a ha => ?_)
  split
  · exact ha
  extract_lets c _ b
  have k : c.Keeps q n := State.nvmeDelete_keeps ha
  clear_value c
  have kb : b.Keeps q n := State.wr_keeps.2 ((upd_keeps rfl rfl rfl rfl rfl rfl rfl rfl rfl rfl rfl).2 k)
  clear_value b
  split
  · refine State.shelfFree_keeps (State.shelfIo_keeps.2 (State.wr_keeps.2 ?_))
    exact (upd_keeps rfl rfl rfl rfl rfl rfl rfl rfl rfl rfl rfl).2 kb
  · exact kb

@[simp] theorem execShelfHealthPoll_keeps (h : s.Keeps q n) {wear : BitVec 16} {good : Bool} : Res.Keeps q n (execShelfHealthPoll wear s good) := by
  simp [execShelfHealthPoll, ↓upd_keeps, ↓ite_keeps, ↓res_ite_keeps, ↓ite_keeps_fst, h]

@[simp] theorem State.i3cDo_keeps (h : s.Keeps q n)  (f : State → State) (hf : ∀ a , State.Keeps q n a → (f a ).Keeps q n) : (State.i3cDo s f).Keeps q n := by
  unfold State.i3cDo
  split
  · exact hf _ (upd_keeps_of h (fun x => x) (fun x => x) (fun _ => List.nodup_nil) (fun x => x) rfl rfl rfl rfl rfl rfl rfl)
  · exact h

@[simp] theorem State.i3cSay_keeps (h : s.Keeps q n) {b : List Byte} : (State.i3cSay s b).Keeps q n := by
  simp [State.i3cSay, ↓upd_keeps, ↓ite_keeps, ↓res_ite_keeps, ↓ite_keeps_fst, h]

@[simp] theorem execEntdaa_keeps (h : s.Keeps q n) {x : BitVec 7} : Res.Keeps q n (execEntdaa x s) := by
  unfold execEntdaa
  repeat' (first | assumption | with_reducible apply State.i3cDo_keeps | with_reducible apply foldl_keeps_of | rw [ok_keeps] | rw [next_keeps] | with_reducible intro _ | (split <;> try (rename_i e; have e2 := congrArg Prod.fst e; dsimp only at e2; subst e2)) | dsimp only | simp [h])

@[simp] theorem execSetdasa_keeps (h : s.Keeps q n) {x : BitVec 7} {target : BitVec 7} : Res.Keeps q n (execSetdasa x s target) := by
  simp [execSetdasa, ↓upd_keeps, ↓ite_keeps, ↓res_ite_keeps, ↓ite_keeps_fst, h]

@[simp] theorem State.i3cTo_keeps (h : s.Keeps q n) {target : Option (BitVec 7)} (f : State → State) (hf : ∀ a , State.Keeps q n a → (f a ).Keeps q n) : (State.i3cTo s target f).Keeps q n := by
  simp only [State.i3cTo]
  (repeat' split) <;> simp_all

@[simp] theorem execRstdaa_keeps (h : s.Keeps q n) : Res.Keeps q n (execRstdaa s) := by
  simp [execRstdaa, ↓upd_keeps, ↓ite_keeps, ↓res_ite_keeps, ↓ite_keeps_fst, h]

@[simp] theorem execGetpid_keeps (h : s.Keeps q n) : Res.Keeps q n (execGetpid s) := by
  simp [execGetpid, ↓upd_keeps, ↓ite_keeps, ↓res_ite_keeps, ↓ite_keeps_fst, h]

@[simp] theorem execGetbcr_keeps (h : s.Keeps q n) : Res.Keeps q n (execGetbcr s) := by
  simp [execGetbcr, ↓upd_keeps, ↓ite_keeps, ↓res_ite_keeps, ↓ite_keeps_fst, h]

@[simp] theorem execGetdcr_keeps (h : s.Keeps q n) : Res.Keeps q n (execGetdcr s) := by
  simp [execGetdcr, ↓upd_keeps, ↓ite_keeps, ↓res_ite_keeps, ↓ite_keeps_fst, h]

@[simp] theorem execGetstatus_keeps (h : s.Keeps q n) : Res.Keeps q n (execGetstatus s) := by
  simp [execGetstatus, ↓upd_keeps, ↓ite_keeps, ↓res_ite_keeps, ↓ite_keeps_fst, h]

@[simp] theorem execGetmwl_keeps (h : s.Keeps q n) : Res.Keeps q n (execGetmwl s) := by
  simp [execGetmwl, ↓upd_keeps, ↓ite_keeps, ↓res_ite_keeps, ↓ite_keeps_fst, h]

@[simp] theorem execSetmwl_keeps (h : s.Keeps q n) {n' : BitVec 16} : Res.Keeps q n (execSetmwl n' s) := by
  simp [execSetmwl, ↓upd_keeps, ↓ite_keeps, ↓res_ite_keeps, ↓ite_keeps_fst, h]

@[simp] theorem execEnec_keeps (h : s.Keeps q n) : Res.Keeps q n (execEnec s) := by
  simp [execEnec, ↓upd_keeps, ↓ite_keeps, ↓res_ite_keeps, ↓ite_keeps_fst, h]

@[simp] theorem execDisec_keeps (h : s.Keeps q n) : Res.Keeps q n (execDisec s) := by
  simp [execDisec, ↓upd_keeps, ↓ite_keeps, ↓res_ite_keeps, ↓ite_keeps_fst, h]

@[simp] theorem execI3cOtherCcc_keeps (h : s.Keeps q n) {ccc0 : Byte} : Res.Keeps q n (execI3cOtherCcc ccc0 s) := by
  simp [execI3cOtherCcc, ↓upd_keeps, ↓ite_keeps, ↓res_ite_keeps, ↓ite_keeps_fst, h]

@[simp] theorem execI3cPrivateWrite_keeps (h : s.Keeps q n) {bytes : List Byte} {i : StartIn} {target : Option (BitVec 7)} : Res.Keeps q n (execI3cPrivateWrite bytes i s target) := by
  simp only [execI3cPrivateWrite]
  (repeat' split) <;> simp_all

@[simp] theorem State.budgetRead_keeps : (State.budgetRead s).Keeps q n ↔ s.Keeps q n := by
  simp [State.budgetRead, ↓upd_keeps, ↓ite_keeps, ↓res_ite_keeps, ↓ite_keeps_fst]

@[simp] theorem execI3cPrivateRead_keeps (h : s.Keeps q n) {target : Option (BitVec 7)} : Res.Keeps q n (execI3cPrivateRead s target) := by
  unfold execI3cPrivateRead
  repeat' (first | assumption | with_reducible apply State.i3cTo_keeps | with_reducible apply foldl_keeps_of | rw [ok_keeps] | rw [next_keeps] | with_reducible intro _ | (split <;> try (rename_i e; have e2 := congrArg Prod.fst e; dsimp only at e2; subst e2)) | dsimp only | simp [h])

@[simp] theorem execAccClearCounts_keeps (h : s.Keeps q n) {m : Master} : Res.Keeps q n (execAccClearCounts m s) := by
  simp [execAccClearCounts, ↓upd_keeps, ↓ite_keeps, ↓res_ite_keeps, ↓ite_keeps_fst, h]

@[simp] theorem execAccClearLog_keeps (h : s.Keeps q n) {m : Master} : Res.Keeps q n (execAccClearLog m s) := by
  simp [execAccClearLog, ↓upd_keeps, ↓ite_keeps, ↓res_ite_keeps, ↓ite_keeps_fst, h]

@[simp] theorem State.regTake_keeps {m : Master} {p : Place} {w : Dword} {low : Bool} : (State.regTake s m p w low).Keeps q n ↔ s.Keeps q n := by
  simp only [State.regTake]
  (repeat' split) <;> simp

@[simp] theorem after_keeps (h : s.Keeps q n) {r : Res} (hr : Res.Keeps q n r) : (after s r).Keeps q n := by
  unfold after
  split
  · exact hr _ rfl
  · exact h

@[simp] theorem State.secSubmit_keeps (h : s.Keeps q n) {m : Master} : (State.secSubmit s m).Keeps q n := by
  unfold State.secSubmit
  refine after_keeps h ?_
  repeat' split
  all_goals simp [h]

@[simp] theorem State.accTrigger_keeps (h : s.Keeps q n) {m : Master} {v : Nat} : (State.accTrigger s m v).Keeps q n := by
  unfold State.accTrigger
  extract_lets s1
  have k : s1.Keeps q n := by
    show State.Keeps q n (if _ then _ else _)
    split
    · exact after_keeps h (by simp [h])
    · exact h
  clear_value s1
  split
  · exact after_keeps k (by simp [k])
  · exact k

@[simp] theorem State.hubTrigger_keeps (h : s.Keeps q n) {m : Master} {o : Nat} {v : Nat} : (State.hubTrigger s m o v).Keeps q n := by
  unfold State.hubTrigger
  extract_lets op
  clear_value op
  iterate 15 (refine ite_imp_keeps (by (try dsimp only); (repeat' split) <;> first | exact h | simp [h]) ?_)
  exact h

@[simp] theorem State.regTrigger_keeps (h : s.Keeps q n) {m : Master} {v : Nat} {i0 : Place} : (State.regTrigger s m v i0).Keeps q n := by
  simp only [State.regTrigger]
  (repeat' split) <;> simp [h]

@[simp] theorem State.regWriteAt_keeps (h : s.Keeps q n) {m : Master} {off : Nat} {size : Nat} {v : Nat} {src : Node} : (State.regWriteAt s m off size v src).Keeps q n := by
  unfold State.regWriteAt
  split
  · simp [h]
  · exact State.setOe_keeps h _ (Mem.write_wf (State.oe_wf h _) _ _)
  · exact h
  split
  · exact h
  split
  · exact after_keeps h (by simp [h])
  split
  · simp [h]
  dsimp only
  split
  · simp [h]
  split
  · exact State.regTrigger_keeps (by simp [h])
  · simp [h]

@[simp] theorem execBar2WindowWrite_keeps (h : s.Keeps q n) {m : Master} {base : BitVec 18} : Res.Keeps q n (execBar2WindowWrite m base s) := by
  unfold execBar2WindowWrite
  repeat' (first | assumption | with_reducible apply State.guarded_keeps_of | with_reducible apply State.regWriteAt_keeps | with_reducible apply foldl_keeps_of | rw [ok_keeps] | rw [next_keeps] | with_reducible intro _ | (split <;> try (rename_i e; have e2 := congrArg Prod.fst e; dsimp only at e2; subst e2)) | dsimp only | simp [h])

@[simp] theorem execPwrBudgetRead_keeps (h : s.Keeps q n) {m : Master} {off : BitVec 3} {size : Nat} : Res.Keeps q n (execPwrBudgetRead m off size s) := by
  unfold execPwrBudgetRead
  repeat' (first | assumption | with_reducible apply foldl_keeps_of | rw [ok_keeps] | rw [next_keeps] | with_reducible intro _ | (split <;> try (rename_i e; have e2 := congrArg Prod.fst e; dsimp only at e2; subst e2)) | dsimp only | simp [h])

@[simp] theorem State.replyRead_keeps {r : Req} {st : Status} {data : List Byte} {cacheable : Bool} : (State.replyRead s r st data cacheable).Keeps q n ↔ s.Keeps q n := by
  simp only [State.replyRead]
  (repeat' split) <;> simp

@[simp] theorem State.replyWrite_keeps {r : Req} {st : Status} {lc : Nat} {n' : Nat} : (State.replyWrite s r st lc n').Keeps q n ↔ s.Keeps q n := by
  simp only [State.replyWrite]
  (repeat' split) <;> simp

@[simp] theorem State.buddyWritten_keeps (h : s.Keeps q n) {a : Nat} : (State.buddyWritten s a).Keeps q n := by
  simp [State.buddyWritten, ↓upd_keeps, ↓ite_keeps, ↓res_ite_keeps, ↓ite_keeps_fst, h]

@[simp] theorem State.windowWrite_keeps {m : Master} {r : Req} {t : Nat} {o : Nat} {lc : Nat} {data : List Byte} : (State.windowWrite s m r t o lc data).Keeps q n ↔ s.Keeps q n := by
  simp [State.windowWrite, ↓upd_keeps, ↓ite_keeps, ↓res_ite_keeps, ↓ite_keeps_fst]

@[simp] theorem State.shelfWindowWrite_keeps {m : Master} {r : Req} {off : Nat} {data : List Byte} : (State.shelfWindowWrite s m r off data).Keeps q n ↔ s.Keeps q n := by
  simp [State.shelfWindowWrite, ↓upd_keeps, ↓ite_keeps, ↓res_ite_keeps, ↓ite_keeps_fst]

@[simp] theorem State.loftReached_keeps {r : Req} : (State.loftReached s r).Keeps q n ↔ s.Keeps q n := by
  simp [State.loftReached, ↓upd_keeps, ↓ite_keeps, ↓res_ite_keeps, ↓ite_keeps_fst]

@[simp] theorem State.writeAt_keeps (h : s.Keeps q n) {m : Master} {r : Req} {lc : Nat} {data : List Byte} {errs : List BurstErr} {i0 : Target} : (State.writeAt s m r lc data errs i0).Keeps q n := by
  simp only [State.writeAt]
  (repeat' split) <;> simp [h]

@[simp] theorem State.writeAs_keeps (h : s.Keeps q n) {m : Master} {r : Req} {lc : Nat} {data : List Byte} {errs : List BurstErr} : (State.writeAs s m r lc data errs).Keeps q n := by
  unfold State.writeAs
  repeat' (first | assumption | with_reducible apply State.writeAt_keeps | with_reducible apply foldl_keeps_of | rw [ok_keeps] | rw [next_keeps] | with_reducible intro _ | (split <;> try (rename_i e; have e2 := congrArg Prod.fst e; dsimp only at e2; subst e2)) | dsimp only | simp [h])

@[simp] theorem State.writeArrives_keeps (h : s.Keeps q n) {r : Req} {data : List Byte} {lc : Byte} {errs : List BurstErr} : (State.writeArrives s r data lc errs).Keeps q n := by
  simp only [State.writeArrives]
  (repeat' split) <;> simp [h]

@[simp] theorem State.readAt_keeps (h : s.Keeps q n) {m : Master} {r : Req} {n' : Nat} {errs : List BurstErr} {ext : Option (List Byte)} {i0 : Target} : (State.readAt s m r n' errs ext i0).Keeps q n := by
  cases i0 with
  | hbm g =>
    unfold State.readAt
    dsimp only
    have c : (s.hbmRead g (r.addr.toNat % 2 ^ 48) n' r.addr.toNat errs).1.Keeps q n := State.hbmRead_keeps.2 h
    generalize s.hbmRead g (r.addr.toNat % 2 ^ 48) n' r.addr.toNat errs = x at c ⊢
    rcases x with ⟨s1, _ | d⟩ <;> exact State.replyRead_keeps.2 c
  | spad t o =>
    unfold State.readAt
    dsimp only
    have c : (s.spadServe m t o n' errs).1.Keeps q n := State.spadServe_keeps h
    generalize s.spadServe m t o n' errs = x at c ⊢
    rcases x with ⟨s1, _ | d⟩
    · exact State.replyRead_keeps.2 c
    · exact State.replyRead_keeps.2 (State.countMesh_keeps.2 c)
  | reg off =>
    unfold State.readAt
    dsimp only
    split <;> simp [h]
  | shelf off => cases ext <;> simp [State.readAt, h]
  | loft o =>
    unfold State.readAt
    dsimp only
    split <;> simp [h]
  | unmapped => exact h

@[simp] theorem State.readAs_keeps (h : s.Keeps q n) {m : Master} {r : Req} {n' : Nat} {errs : List BurstErr} {ext : Option (List Byte)} : (State.readAs s m r n' errs ext).Keeps q n := by
  unfold State.readAs
  dsimp only
  split
  · simp [h]
  split
  · simp [h]
  · have c := fun k => State.check_keeps (s := s.carryIn r (max n' 1) 0 (readPacket s.devId s.devId r n') 0) (m := m)
      (a := r.addr.toNat % 2 ^ 48) (n' := max n' 1) (kind := k) (byD := r.eng == some .d) |>.2 (State.carryIn_keeps.2 h)
    split <;> (rename_i g; have e := congrArg Prod.fst g; dsimp only at e; subst e)
    · exact State.readAt_keeps (c _)
    all_goals exact State.replyRead_keeps.2 (c _)

@[simp] theorem execRead_keeps (h : s.Keeps q n) {r : Req} {n' : Nat} {errs : List BurstErr} {poisoned : Bool} {ext : Option (List Byte)} : Res.Keeps q n (execRead r n' errs s poisoned ext) := by
  simp only [execRead]
  (repeat' split) <;> simp [h]

@[simp] theorem State.hostWrites_keeps (h : s.Keeps q n) {off : BitVec 41} {data : List Byte} {poisoned : Bool} {errs : List BurstErr} : (State.hostWrites s off data poisoned errs).Keeps q n := by
  simp [State.hostWrites, ↓upd_keeps, ↓ite_keeps, ↓res_ite_keeps, ↓ite_keeps_fst, h]

@[simp] theorem State.msixWrites_keeps (h : s.Keeps q n) {off : Nat} {data : List Byte} : (State.msixWrites s off data).Keeps q n := by
  unfold State.msixWrites
  repeat' (first | assumption | with_reducible apply State.msixPut_keeps | with_reducible apply foldl_keeps_of | rw [ok_keeps] | rw [next_keeps] | with_reducible intro _ | (split <;> try (rename_i e; have e2 := congrArg Prod.fst e; dsimp only at e2; subst e2)) | dsimp only | simp [h])

@[simp] theorem State.hostReads_keeps (h : s.Keeps q n) {off : BitVec 41} {n' : Nat} {poisoned : Bool} {errs : List BurstErr} {ext : Option (List Byte)} : (State.hostReads s off n' poisoned errs ext).Keeps q n := by
  simp [State.hostReads, ↓upd_keeps, ↓ite_keeps, ↓res_ite_keeps, ↓ite_keeps_fst, h]

@[simp] theorem execHostMemRead_keeps (h : s.Keeps q n) {off : BitVec 41} {n' : Nat} {poisoned : Bool} {errs : List BurstErr} {space : HostSpace} {ext : Option (List Byte)} : Res.Keeps q n (execHostMemRead off n' poisoned errs s space ext) := by
  simp only [execHostMemRead]
  (repeat' split) <;> simp [h]

@[simp] theorem State.shelfRequest_keeps (h : s.Keeps q n) {write : Bool} {addr : Dword} {n' : Nat} {data : List Byte} {errs : List BurstErr} : (State.shelfRequest s write addr n' data errs).Keeps q n := by
  unfold State.shelfRequest
  cases write
  · simp only [Bool.false_eq_true, if_false]
    split
    · exact h
    split
    · simp [h]
    split
    · exact State.readAs_keeps (State.count_keeps.2 h)
    · simp [h]
  · simp only [if_true]
    split
    · exact h
    have k : (s.count 70 data.length).Keeps q n := State.count_keeps.2 h
    generalize s.count 70 data.length = s0 at k ⊢
    split
    · obtain ⟨h1, h2, w, h4⟩ := k
      refine ⟨h1, h2, ?_, h4⟩
      simp only [State.memsWf, Bool.and_eq_true] at w ⊢
      exact ⟨⟨⟨⟨⟨⟨w.1.1.1.1.1.1, Mem.write_wf w.1.1.1.1.1.2 _ _⟩, w.1.1.1.1.2⟩, w.1.1.1.2⟩, w.1.1.2⟩, w.1.2⟩, w.2⟩
    split
    · exact State.writeAs_keeps k
    · exact k

@[simp] theorem State.answered_keeps {t : Nat} {epoch : Nat} (f : State → State) (hf : ∀ a , (f a ).Keeps q n ↔ State.Keeps q n a) : (State.answered s t epoch f).Keeps q n ↔ s.Keeps q n := by
  simp [State.answered, ↓upd_keeps, ↓ite_keeps, ↓res_ite_keeps, ↓ite_keeps_fst, hf]

theorem State.answered_keeps_of (h : s.Keeps q n) {t : Nat} {epoch : Nat} (f : State → State) (hf : ∀ a , State.Keeps q n a → (f a ).Keeps q n) : (State.answered s t epoch f).Keeps q n := by
  unfold State.answered
  repeat' (first | assumption | with_reducible apply hf | with_reducible apply foldl_keeps_of | rw [ok_keeps] | rw [next_keeps] | with_reducible intro _ | (split <;> try (rename_i e; have e2 := congrArg Prod.fst e; dsimp only at e2; subst e2)) | dsimp only | simp [h])

@[simp] theorem State.fenceLook_keeps {t : Nat} : (State.fenceLook s t).Keeps q n ↔ s.Keeps q n := by
  simp [State.fenceLook, ↓upd_keeps, ↓ite_keeps, ↓res_ite_keeps, ↓ite_keeps_fst]

@[simp] theorem State.loadDone_keeps {t : Nat} {l : Load} {st : Status} {data : List Byte} {cacheable : Bool} : (State.loadDone s t l st data cacheable).Keeps q n ↔ s.Keeps q n := by
  simp [State.loadDone, ↓upd_keeps, ↓ite_keeps, ↓res_ite_keeps, ↓ite_keeps_fst]

@[simp] theorem State.loftError_keeps {st : Status} : (State.loftError s st).Keeps q n ↔ s.Keeps q n := by
  simp only [State.loftError]
  (repeat' split) <;> simp

@[simp] theorem State.fetchDone_keeps {t : Nat} {r : DReq} {st : Status} {lost : Bool} {data : List Byte} : (State.fetchDone s t r st lost data).Keeps q n ↔ s.Keeps q n := by
  simp [State.fetchDone, ↓upd_keeps, ↓ite_keeps, ↓res_ite_keeps, ↓ite_keeps_fst]

@[simp] theorem State.answerIn_keeps {t : Nat} {addr : Nat} {vc : Nat} {data : List Byte} : (State.answerIn s t addr vc data).Keeps q n ↔ s.Keeps q n := by
  simp [State.answerIn, ↓upd_keeps, ↓ite_keeps, ↓res_ite_keeps, ↓ite_keeps_fst]

@[simp] theorem State.readAnswered_keeps {t : Nat} {tag : Nat} {st : Status} {lost : Bool} {data : List Byte} {cacheable : Bool} : (State.readAnswered s t tag st lost data cacheable).Keeps q n ↔ s.Keeps q n := by
  simp only [State.readAnswered]
  (repeat' split) <;> simp

@[simp] theorem execReadResp_keeps (h : s.Keeps q n) {t : Fin 1200} {tag : Word} {epoch : Byte} {status : Status} {data : List Byte} {cacheable : Bool} {poisoned : Bool} : Res.Keeps q n (execReadResp t tag epoch status data cacheable s poisoned) := by
  simp [execReadResp, ↓upd_keeps, ↓ite_keeps, ↓res_ite_keeps, ↓ite_keeps_fst, h]

@[simp] theorem State.failWrite_keeps {t : Nat} {w : Store} {cause : Nat} {lc : Nat} {n' : Nat} : (State.failWrite s t w cause lc n').Keeps q n ↔ s.Keeps q n := by
  simp [State.failWrite, ↓upd_keeps, ↓ite_keeps, ↓res_ite_keeps, ↓ite_keeps_fst]

@[simp] theorem State.ackOk_keeps {t : Nat} {w : Store} {lc : Nat} {n' : Nat} : (State.ackOk s t w lc n').Keeps q n ↔ s.Keeps q n := by
  simp [State.ackOk, ↓upd_keeps, ↓ite_keeps, ↓res_ite_keeps, ↓ite_keeps_fst]

@[simp] theorem State.ackStore_keeps {t : Nat} {w : Store} {st : Status} {lost : Bool} {lc : Nat} {n' : Nat} : (State.ackStore s t w st lost lc n').Keeps q n ↔ s.Keeps q n := by
  simp [State.ackStore, ↓upd_keeps, ↓ite_keeps, ↓res_ite_keeps, ↓ite_keeps_fst]

@[simp] theorem State.writeAnswered_keeps {t : Nat} {tag : Nat} {st : Status} {lost : Bool} {lc : Nat} {n' : Nat} : (State.writeAnswered s t tag st lost lc n').Keeps q n ↔ s.Keeps q n := by
  simp only [State.writeAnswered]
  (repeat' split) <;> simp

@[simp] theorem State.hubAnswered_keeps (h : s.Keeps q n) {tag : Nat} {epoch : Nat} {st : Status} {lost : Bool} {n' : Nat} : (State.hubAnswered s tag epoch st lost n').Keeps q n := by
  simp [State.hubAnswered, ↓upd_keeps, ↓ite_keeps, ↓res_ite_keeps, ↓ite_keeps_fst, h]

@[simp] theorem execLandAck_keeps (h : s.Keeps q n) {t : BitVec 11} {tag : Word} {epoch : Byte} {status : Status} {lc : Byte} {bytes : Nat} : Res.Keeps q n (execLandAck t tag epoch status lc bytes s) := by
  simp [execLandAck, ↓upd_keeps, ↓ite_keeps, ↓res_ite_keeps, ↓ite_keeps_fst, h]

@[simp] theorem State.signalAnswered_keeps {t : Nat} {tag : Nat} {st : Status} : (State.signalAnswered s t tag st).Keeps q n ↔ s.Keeps q n := by
  simp only [State.signalAnswered]
  (repeat' split) <;> simp

@[simp] theorem execSigStatus_keeps (h : s.Keeps q n) {t : Fin 1200} {tag : Word} {epoch : Byte} {status : Status} : Res.Keeps q n (execSigStatus t tag epoch status s) := by
  simp [execSigStatus, ↓upd_keeps, ↓ite_keeps, ↓res_ite_keeps, ↓ite_keeps_fst, h]

@[simp] theorem execUnreachable_keeps (h : s.Keeps q n) {t : BitVec 11} {tag : Word} {epoch : Byte} {reason0 : Byte} {lost : Byte} : Res.Keeps q n (execUnreachable t tag epoch reason0 lost s) := by
  simp [execUnreachable, ↓upd_keeps, ↓ite_keeps, ↓res_ite_keeps, ↓ite_keeps_fst, h]

@[simp] theorem execWriteAckTimeout_keeps (h : s.Keeps q n) {t : Fin 1200} {tag : Word} : Res.Keeps q n (execWriteAckTimeout t tag s) := by
  simp only [execWriteAckTimeout]
  (repeat' split) <;> simp [h]

@[simp] theorem State.signalAs_keeps {m : Master} {r : Req} {ctr : Nat} {n' : Nat} : (State.signalAs s m r ctr n').Keeps q n ↔ s.Keeps q n := by
  simp only [State.signalAs]
  (repeat' split) <;> simp

@[simp] theorem execSignalPacket_keeps (h : s.Keeps q n) {r : Req} {ctr : Byte} {n' : Word} : Res.Keeps q n (execSignalPacket r ctr n' s) := by
  simp only [execSignalPacket]
  (repeat' split) <;> simp [h]

@[simp] theorem State.applyResp_keeps (h : s.Keeps q n) {b : List Byte} : (State.applyResp s b).Keeps q n := by
  unfold State.applyResp
  split
  · have k := State.draw_keeps.2 h
    exact after_keeps k (execReadResp_keeps k)
  · exact h

@[simp] theorem State.applyCtrl_keeps (h : s.Keeps q n) {b : List Byte} : (State.applyCtrl s b).Keeps q n := by
  simp only [State.applyCtrl]
  (repeat' split) <;> simp [h]

@[simp] theorem State.applyPkt_keeps (h : s.Keeps q n) {p : Nat} {b : List Byte} : (State.applyPkt s p b).Keeps q n := by
  simp [State.applyPkt, ↓upd_keeps, ↓ite_keeps, ↓res_ite_keeps, ↓ite_keeps_fst, h]

@[simp] theorem State.replayPkt_keeps (h : s.Keeps q n) {p : Nat} {b : List Byte} : (State.replayPkt s p b).Keeps q n := by
  simp [State.replayPkt, ↓upd_keeps, ↓ite_keeps, ↓res_ite_keeps, ↓ite_keeps_fst, h]

@[simp] theorem State.replayed_keeps (h : s.Keeps q n) : (State.replayed s).Keeps q n := by
  unfold State.replayed
  split
  · exact h
  · exact State.resumeIssue_keeps (foldl_keeps_of ((upd_keeps rfl rfl rfl rfl rfl rfl rfl rfl rfl rfl rfl).2 h) fun a e ha => State.replayPkt_keeps ha)

@[simp] theorem execResumeReplay_keeps (h : s.Keeps q n) {m : Master} : Res.Keeps q n (execResumeReplay m s) := by
  unfold execResumeReplay
  repeat' (first | assumption | with_reducible apply State.replayed_keeps | with_reducible apply State.resumeReplay_keeps | with_reducible apply foldl_keeps_of | rw [ok_keeps] | rw [next_keeps] | with_reducible intro _ | (split <;> try (rename_i e; have e2 := congrArg Prod.fst e; dsimp only at e2; subst e2)) | dsimp only | simp [h])

@[simp] theorem execRegWrite_keeps (h : s.Keeps q n) {m : Master} {off : BitVec 26} {size : Nat} {v : Dword} {poisoned : Bool} : Res.Keeps q n (execRegWrite m off size v s poisoned) := by
  unfold execRegWrite
  repeat' (first | assumption | with_reducible apply State.regWriteAt_keeps | with_reducible apply State.replayed_keeps | with_reducible apply foldl_keeps_of | rw [ok_keeps] | rw [next_keeps] | with_reducible intro _ | (split <;> try (rename_i e; have e2 := congrArg Prod.fst e; dsimp only at e2; subst e2)) | dsimp only | simp [h])

@[simp] theorem execWrite_keeps (h : s.Keeps q n) {r : Req} {data : List Byte} {lc : Byte} {errs : List BurstErr} : Res.Keeps q n (execWrite r data lc errs s) := by
  simp only [execWrite]
  (repeat' split) <;> simp [h]

@[simp] theorem execHostMemWrite_keeps (h : s.Keeps q n) {off : BitVec 41} {data : List Byte} {poisoned : Bool} {errs : List BurstErr} {space : HostSpace} : Res.Keeps q n (execHostMemWrite off data poisoned errs s space) := by
  simp only [execHostMemWrite]
  (repeat' split) <;> simp [h]

@[simp] theorem execShelfInboundRequest_keeps (h : s.Keeps q n) {write : Bool} {addr : Dword} {n' : Nat} {data : List Byte} {errs : List BurstErr} : Res.Keeps q n (execShelfInboundRequest write addr n' data errs s) := by
  simp [execShelfInboundRequest, ↓upd_keeps, ↓ite_keeps, ↓res_ite_keeps, ↓ite_keeps_fst, h]

end Sys2Proof.Machine
end

