-- ==== Sys2Proof/Laws/PerInstr.lean ====
section
/-! SUPPORT. What every well-formed command has in common, command by command: the symbol errors it brings name lines of a burst once each, and
the inputs of the start it brings are complete. -/

namespace Sys2Proof

/-- The symbol errors of memory that a command brings (14 R303). -/
def Instr.errs : Instr → List BurstErr
  | .stowCopyComplete _ _ errs => errs
  | .write _ _ _ errs => errs
  | .read _ _ errs _ _ => errs
  | .ringFetch _ _ errs => errs
  | .copyUnitDone _ _ errs _ => errs
  | .fenceWait _ _ errs => errs
  | .fencePoll _ _ errs _ => errs
  | .hbmScrub _ _ errs => errs
  | .dumpCopyDone _ errs => errs
  | .fwStage _ errs _ => errs
  | .hostMemWrite _ _ _ errs _ => errs
  | .hostMemRead _ _ _ errs _ _ => errs
  | .shelfInboundRequest _ _ _ _ errs => errs
  | .snapRelease errs _ => errs.flatten
  | _ => []

/-- The start's inputs that a command brings (18 R389). -/
def Instr.startIn : Instr → Option StartIn
  | .auxPowerOn i _ => some i
  | .vinReturn i => some i
  | .warmStart _ i => some i
  | .coldStart _ i => some i
  | .startRetry i => some i
  | .returnCmd _ i => some i
  | .perstRelease i => some i
  | .hotReset i => some i
  | .i3cPrivateWrite _ i _ => some i
  | _ => none

namespace Laws.WellFormed

/-- A well-formed command's symbol errors and start inputs are well formed. -/
def Statement (i : Instr) : Prop := i.wf = true → errsWf i.errs = true ∧ ∀ x, i.startIn = some x → x.wf = true

/-- A command that brings neither. -/
theorem neither {i : Instr} (h1 : i.errs = []) (h2 : i.startIn = none) : Statement i := by
  intro _; simp [h1, h2, errsWf]

theorem regWrite (m : Master) (off : BitVec 26) (size : Nat) (v : Dword) (poisoned : Bool) : Statement (.regWrite m off size v poisoned) := neither rfl rfl
theorem bridgeFlit (b : Fin 376) (flit : List Byte) : Statement (.bridgeFlit b flit) := neither rfl rfl
theorem bridgeRetrainEnd (b : Fin 376) (ok : Bool) : Statement (.bridgeRetrainEnd b ok) := neither rfl rfl
theorem ucieTrained (oe : Bool) (fast : Bool) : Statement (.ucieTrained oe fast) := neither rfl rfl
theorem oeRequest (oe : Bool) (write : Bool) (addr : Dword) (size : Nat) (data : List Byte) : Statement (.oeRequest oe write addr size data) := neither rfl rfl
theorem auxPowerOn (i : StartIn) (v48 : Bool) : Statement (.auxPowerOn i v48) := by simp [Statement, Instr.wf, Instr.errs, Instr.startIn, errsWf]
theorem vinReturn (i : StartIn) : Statement (.vinReturn i) := by simp [Statement, Instr.wf, Instr.errs, Instr.startIn, errsWf]
theorem vinRangeFault (mv : BitVec 16) : Statement (.vinRangeFault mv) := neither rfl rfl
theorem vinLowShutdown (mv : BitVec 16) : Statement (.vinLowShutdown mv) := neither rfl rfl
theorem warmStart (m : Master) (i : StartIn) : Statement (.warmStart m i) := by simp [Statement, Instr.wf, Instr.errs, Instr.startIn, errsWf]
theorem coldStart (m : Master) (i : StartIn) : Statement (.coldStart m i) := by simp [Statement, Instr.wf, Instr.errs, Instr.startIn, errsWf]
theorem startRetry (i : StartIn) : Statement (.startRetry i) := by simp [Statement, Instr.wf, Instr.errs, Instr.startIn, errsWf]
theorem stepTimeout : Statement (.stepTimeout) := neither rfl rfl
theorem stowLoad (m : Master) : Statement (.stowLoad m) := neither rfl rfl
theorem stowStage (m : Master) : Statement (.stowStage m) := neither rfl rfl
theorem stowSchedule (m : Master) : Statement (.stowSchedule m) := neither rfl rfl
theorem stowDiscard (m : Master) : Statement (.stowDiscard m) := neither rfl rfl
theorem stowCopyComplete (image : List Byte) (hostFail : Option Nat) (errs : List BurstErr) : Statement (.stowCopyComplete image hostFail errs) := by simp [Statement, Instr.wf, Instr.errs, Instr.startIn, errsWf]
theorem tickEdge : Statement (.tickEdge) := neither rfl rfl
theorem tickInEdge (phase : Int) : Statement (.tickInEdge phase) := neither rfl rfl
theorem tickFrame (frame : BitVec 80) : Statement (.tickFrame frame) := neither rfl rfl
theorem tick (p : Fin 32) (tn : Dword) (offset : Word) (depth : Byte) (holdover : Bool) (arrival : Int) : Statement (.tick p tn offset depth holdover arrival) := neither rfl rfl
theorem tickEdgeMissing : Statement (.tickEdgeMissing) := neither rfl rfl
theorem tickLockTimeout : Statement (.tickLockTimeout) := neither rfl rfl
theorem delayReq (p : Fin 32) (t1 t2 t3 : Dword) : Statement (.delayReq p t1 t2 t3) := neither rfl rfl
theorem delayResp (p : Fin 32) (t1 t2 t3 t4 : Dword) : Statement (.delayResp p t1 t2 t3 t4) := neither rfl rfl
theorem tbActAdd (m : Master) (type : BitVec 4) : Statement (.tbActAdd m type) := neither rfl rfl
theorem tbActCancel (m : Master) (slot : BitVec 10) : Statement (.tbActCancel m slot) := neither rfl rfl
theorem relock (m : Master) : Statement (.relock m) := neither rfl rfl
theorem resumeReplay (m : Master) : Statement (.resumeReplay m) := neither rfl rfl
theorem resumeDiscard (m : Master) : Statement (.resumeDiscard m) := neither rfl rfl
theorem clearStats (m : Master) : Statement (.clearStats m) := neither rfl rfl
theorem globalStop : Statement (.globalStop) := neither rfl rfl
theorem stopDoneSend : Statement (.stopDoneSend) := neither rfl rfl
theorem stopDone (p : Fin 32) : Statement (.stopDone p) := neither rfl rfl
theorem stopPortOpen : Statement (.stopPortOpen) := neither rfl rfl
theorem stop (p : Fin 32) : Statement (.stop p) := neither rfl rfl
theorem snapshotCut : Statement (.snapshotCut) := neither rfl rfl
theorem phaseStart : Statement (.phaseStart) := neither rfl rfl
theorem tableSwap : Statement (.tableSwap) := neither rfl rfl
theorem hbmTableSwap : Statement (.hbmTableSwap) := neither rfl rfl
theorem fwActivate : Statement (.fwActivate) := neither rfl rfl
theorem selftestSlot : Statement (.selftestSlot) := neither rfl rfl
theorem counterSample : Statement (.counterSample) := neither rfl rfl
theorem powerRamp : Statement (.powerRamp) := neither rfl rfl
theorem accClearCounts (m : Master) : Statement (.accClearCounts m) := neither rfl rfl
theorem accClearLog (m : Master) : Statement (.accClearLog m) := neither rfl rfl
theorem write (r : Req) (data : List Byte) (lc : Byte) (errs : List BurstErr) : Statement (.write r data lc errs) := by simp [Statement, Instr.wf, Instr.errs, Instr.startIn, errsWf]
theorem read (r : Req) (n : Nat) (errs : List BurstErr) (poisoned : Bool) (ext : Option (List Byte)) : Statement (.read r n errs poisoned ext) := by simp [Statement, Instr.wf, Instr.errs, Instr.startIn, errsWf]
theorem readResp (t : Fin 1200) (tag : Word) (epoch : Byte) (status : Status) (data : List Byte) (cacheable : Bool) (poisoned : Bool) : Statement (.readResp t tag epoch status data cacheable poisoned) := neither rfl rfl
theorem landAck (t : BitVec 11) (tag : Word) (epoch : Byte) (status : Status) (lc : Byte) (bytes : Nat) : Statement (.landAck t tag epoch status lc bytes) := neither rfl rfl
theorem sigStatus (t : Fin 1200) (tag : Word) (epoch : Byte) (status : Status) : Statement (.sigStatus t tag epoch status) := neither rfl rfl
theorem unreachable (t : BitVec 11) (tag : Word) (epoch : Byte) (reason : Byte) (lost : Byte) : Statement (.unreachable t tag epoch reason lost) := neither rfl rfl
theorem signalPacket (r : Req) (ctr : Byte) (n : Word) : Statement (.signalPacket r ctr n) := neither rfl rfl
theorem mNop (t : Fin 1200) : Statement (.mNop t) := neither rfl rfl
theorem mCfg (t : Fin 1200) : Statement (.mCfg t) := neither rfl rfl
theorem mSeed (t : Fin 1200) (ecc : Ecc) : Statement (.mSeed t ecc) := neither rfl rfl
theorem mMma (t : Fin 1200) (ecc : Ecc) : Statement (.mMma t ecc) := neither rfl rfl
theorem mDrain (t : Fin 1200) (ecc : Ecc) (upset : List (Nat × BitVec 40)) : Statement (.mDrain t ecc upset) := neither rfl rfl
theorem arrayClockGate (t : Fin 1200) : Statement (.arrayClockGate t) := neither rfl rfl
theorem powerGrant (d : Fin 8) : Statement (.powerGrant d) := neither rfl rfl
theorem engineCommandComplete (t : Fin 1200) (e : Engine) (k : Nat) : Statement (.engineCommandComplete t e k) := neither rfl rfl
theorem vNop (t : Fin 1200) : Statement (.vNop t) := neither rfl rfl
theorem vRun (t : Fin 1200) (ecc : Ecc) : Statement (.vRun t ecc) := neither rfl rfl
theorem vMv (t : Fin 1200) (ecc : Ecc) : Statement (.vMv t ecc) := neither rfl rfl
theorem vProbe (m : Master) (t : Fin 1200) (size : Nat) (ctr : Dword) : Statement (.vProbe m t size ctr) := neither rfl rfl
theorem alu (i : SIssue) : Statement (.alu i) := neither rfl rfl
theorem addi (i : SIssue) : Statement (.addi i) := neither rfl rfl
theorem andi (i : SIssue) : Statement (.andi i) := neither rfl rfl
theorem ori (i : SIssue) : Statement (.ori i) := neither rfl rfl
theorem xori (i : SIssue) : Statement (.xori i) := neither rfl rfl
theorem shi (i : SIssue) : Statement (.shi i) := neither rfl rfl
theorem lui (i : SIssue) : Statement (.lui i) := neither rfl rfl
theorem ldW (i : SIssue) : Statement (.ldW i) := neither rfl rfl
theorem stW (i : SIssue) : Statement (.stW i) := neither rfl rfl
theorem ldG (i : SIssue) : Statement (.ldG i) := neither rfl rfl
theorem ldGc (i : SIssue) : Statement (.ldGc i) := neither rfl rfl
theorem stG (i : SIssue) : Statement (.stG i) := neither rfl rfl
theorem regR (i : SIssue) : Statement (.regR i) := neither rfl rfl
theorem regW (i : SIssue) : Statement (.regW i) := neither rfl rfl
theorem regR64 (i : SIssue) : Statement (.regR64 i) := neither rfl rfl
theorem regW64 (i : SIssue) : Statement (.regW64 i) := neither rfl rfl
theorem beq (i : SIssue) : Statement (.beq i) := neither rfl rfl
theorem bne (i : SIssue) : Statement (.bne i) := neither rfl rfl
theorem blt (i : SIssue) : Statement (.blt i) := neither rfl rfl
theorem bge (i : SIssue) : Statement (.bge i) := neither rfl rfl
theorem bltu (i : SIssue) : Statement (.bltu i) := neither rfl rfl
theorem bgeu (i : SIssue) : Statement (.bgeu i) := neither rfl rfl
theorem jal (i : SIssue) : Statement (.jal i) := neither rfl rfl
theorem jalr (i : SIssue) : Statement (.jalr i) := neither rfl rfl
theorem cw (i : SIssue) : Statement (.cw i) := neither rfl rfl
theorem enq (i : SIssue) : Statement (.enq i) := neither rfl rfl
theorem enqs (i : SIssue) : Statement (.enqs i) := neither rfl rfl
theorem signal (i : SIssue) : Statement (.signal i) := neither rfl rfl
theorem signalR (i : SIssue) : Statement (.signalR i) := neither rfl rfl
theorem wait (i : SIssue) : Statement (.wait i) := neither rfl rfl
theorem waitAcq (i : SIssue) : Statement (.waitAcq i) := neither rfl rfl
theorem take (i : SIssue) : Statement (.take i) := neither rfl rfl
theorem set (i : SIssue) : Statement (.set i) := neither rfl rfl
theorem lwait (i : SIssue) : Statement (.lwait i) := neither rfl rfl
theorem lwaitAcq (i : SIssue) : Statement (.lwaitAcq i) := neither rfl rfl
theorem fenceLocal (i : SIssue) : Statement (.fenceLocal i) := neither rfl rfl
theorem fenceRemote (i : SIssue) : Statement (.fenceRemote i) := neither rfl rfl
theorem cinvRemote (i : SIssue) : Statement (.cinvRemote i) := neither rfl rfl
theorem cinvAll (i : SIssue) : Statement (.cinvAll i) := neither rfl rfl
theorem time (i : SIssue) : Statement (.time i) := neither rfl rfl
theorem evt (i : SIssue) : Statement (.evt i) := neither rfl rfl
theorem trap (i : SIssue) : Statement (.trap i) := neither rfl rfl
theorem halt (i : SIssue) : Statement (.halt i) := neither rfl rfl
theorem tileFinish (t : Fin 1200) : Statement (.tileFinish t) := neither rfl rfl
theorem bayAbort (t : Fin 1200) : Statement (.bayAbort t) := neither rfl rfl
theorem tileQuiescent (t : Fin 1200) : Statement (.tileQuiescent t) := neither rfl rfl
theorem bayRelease (b : Fin 64) : Statement (.bayRelease b) := neither rfl rfl
theorem chainRow (t : Fin 1200) (chain : BitVec 10) (row : Fin 64) (vals : List (BitVec 40)) (mismatch : Bool) : Statement (.chainRow t chain row vals mismatch) := neither rfl rfl
theorem vaultRow (st : Fin 64) (src : BitVec 16) (round : BitVec 16) (row : Fin 64) (vals : RowVals) (ecc : Ecc) (mismatch : Bool) : Statement (.vaultRow st src round row vals ecc mismatch) := neither rfl rfl
theorem reduce (src : BitVec 16) (kind fmt : Byte) (id : BitVec 16) (round : BitVec 16) (row : Byte) (data : List Byte) (ecc : Ecc) (mismatch : Bool) : Statement (.reduce src kind fmt id round row data ecc mismatch) := neither rfl rfl
theorem dNop (t : Fin 1200) : Statement (.dNop t) := neither rfl rfl
theorem dCopy (t : Fin 1200) (ecc : Ecc) : Statement (.dCopy t ecc) := neither rfl rfl
theorem dRun (t : Fin 1200) (ecc : Ecc) : Statement (.dRun t ecc) := neither rfl rfl
theorem dDrop (t : Fin 1200) : Statement (.dDrop t) := neither rfl rfl
theorem dRespTimeout (t : Fin 1200) (tag : Word) : Statement (.dRespTimeout t tag) := neither rfl rfl
theorem dAbortTimeout (t : Fin 1200) : Statement (.dAbortTimeout t) := neither rfl rfl
theorem writeAckTimeout (t : Fin 1200) (tag : Word) : Statement (.writeAckTimeout t tag) := neither rfl rfl
theorem tileSyncSignal (m : Master) (t : Fin 1200) (size : Nat) (ctr : Byte) (n : Word) : Statement (.tileSyncSignal m t size ctr n) := neither rfl rfl
theorem tileSyncSet (m : Master) (t : Fin 1200) (size : Nat) (ctr : Byte) (v : Word) : Statement (.tileSyncSet m t size ctr v) := neither rfl rfl
theorem dbgSyncSet (m : Master) (size : Nat) (tile : BitVec 11) (ctr : Byte) (v : Word) : Statement (.dbgSyncSet m size tile ctr v) := neither rfl rfl
theorem doorbell (m : Master) (q : Fin 32768) (tail : Word) : Statement (.doorbell m q tail) := neither rfl rfl
theorem ringFetch (q : Fin 32768) (hostData : Option (List Byte)) (errs : List BurstErr) : Statement (.ringFetch q hostData errs) := by simp [Statement, Instr.wf, Instr.errs, Instr.startIn, errsWf]
theorem nop (q : Fin 32768) : Statement (.nop q) := neither rfl rfl
theorem launch (q : Fin 32768) : Statement (.launch q) := neither rfl rfl
theorem copy (q : Fin 32768) : Statement (.copy q) := neither rfl rfl
theorem copyUnitDone (d : Fin 4) (hostData : Option (List Byte)) (errs : List BurstErr) (confirmed : Bool) : Statement (.copyUnitDone d hostData errs confirmed) := by simp [Statement, Instr.wf, Instr.errs, Instr.startIn, errsWf]
theorem fenceSignal (q : Fin 32768) : Statement (.fenceSignal q) := neither rfl rfl
theorem fenceWait (q : Fin 32768) (hostValue : Option Dword) (errs : List BurstErr) : Statement (.fenceWait q hostValue errs) := by simp [Statement, Instr.wf, Instr.errs, Instr.startIn, errsWf]
theorem fencePoll (q : Fin 32768) (hostValue : Option Dword) (errs : List BurstErr) (n : Nat) : Statement (.fencePoll q hostValue errs n) := by simp [Statement, Instr.wf, Instr.errs, Instr.startIn, errsWf]
theorem tickWait (q : Fin 32768) : Statement (.tickWait q) := neither rfl rfl
theorem tickWaitExpiry (q : Fin 32768) : Statement (.tickWaitExpiry q) := neither rfl rfl
theorem snapshotCutPacket (q : Fin 32768) : Statement (.snapshotCutPacket q) := neither rfl rfl
theorem timestamp (q : Fin 32768) : Statement (.timestamp q) := neither rfl rfl
theorem jump (q : Fin 32768) : Statement (.jump q) := neither rfl rfl
theorem fenceWriteConfirm (q : Fin 32768) (ok : Bool) : Statement (.fenceWriteConfirm q ok) := neither rfl rfl
theorem queueTimeout (q : Fin 32768) : Statement (.queueTimeout q) := neither rfl rfl
theorem bayReset (b : Fin 64) (queue : Option (Fin 32768)) : Statement (.bayReset b queue) := neither rfl rfl
theorem bayResetEnd (b : Fin 64) : Statement (.bayResetEnd b) := neither rfl rfl
theorem create (m : Master) (q : Fin 32768) : Statement (.create m q) := neither rfl rfl
theorem destroy (m : Master) (q : Fin 32768) : Statement (.destroy m q) := neither rfl rfl
theorem resume (m : Master) (q : Fin 32768) : Statement (.resume m q) := neither rfl rfl
theorem feClearCounts (m : Master) : Statement (.feClearCounts m) := neither rfl rfl
theorem hbmScrub (st : Fin 16) (pc : Fin 32) (errs : List BurstErr) : Statement (.hbmScrub st pc errs) := by simp [Statement, Instr.wf, Instr.errs, Instr.startIn, errsWf]
theorem hbmRowCopyDone (st : Fin 16) (uncorrectable : List (Nat × Nat)) : Statement (.hbmRowCopyDone st uncorrectable) := neither rfl rfl
theorem hbmTempRead (st : Fin 16) (temp : Byte) : Statement (.hbmTempRead st temp) := neither rfl rfl
theorem hbmRetAdd (m : Master) (st : Fin 16) : Statement (.hbmRetAdd m st) := neither rfl rfl
theorem hbmRetSchedule (m : Master) (st : Fin 16) : Statement (.hbmRetSchedule m st) := neither rfl rfl
theorem hbmRetDiscard (m : Master) (st : Fin 16) : Statement (.hbmRetDiscard m st) := neither rfl rfl
theorem hbmTempClear (m : Master) (st : Fin 16) : Statement (.hbmTempClear m st) := neither rfl rfl
theorem linkFlit (p : Fin 32) (flit : List Byte) (fecBad : Bool) (fecFixed : Nat) : Statement (.linkFlit p flit fecBad fecFixed) := neither rfl rfl
theorem egressStallDrop (p : Fin 32) (vc : BitVec 3) : Statement (.egressStallDrop p vc) := neither rfl rfl
theorem linkTrained (p : Fin 32) : Statement (.linkTrained p) := neither rfl rfl
theorem linkTrainTimeout (p : Fin 32) : Statement (.linkTrainTimeout p) := neither rfl rfl
theorem linkRetrainTimeout (p : Fin 32) : Statement (.linkRetrainTimeout p) := neither rfl rfl
theorem laneLockLoss (p : Fin 32) (lane : Fin 9) : Statement (.laneLockLoss p lane) := neither rfl rfl
theorem laneBerCheck (p : Fin 32) (lane : Fin 9) (above : Bool) : Statement (.laneBerCheck p lane above) := neither rfl rfl
theorem hello (p : Fin 32) (src : BitVec 16) (digest : Dword) : Statement (.hello p src digest) := neither rfl rfl
theorem membership (p : Fin 32) (src : BitVec 16) (period digest : Dword) (fenced : Bool) (hops : Byte) : Statement (.membership p src period digest fenced hops) := neither rfl rfl
theorem lnkRetrain (m : Master) (p : Fin 32) : Statement (.lnkRetrain m p) := neither rfl rfl
theorem lnkDisable (m : Master) (p : Fin 32) : Statement (.lnkDisable m p) := neither rfl rfl
theorem lnkEnable (m : Master) (p : Fin 32) : Statement (.lnkEnable m p) := neither rfl rfl
theorem snapRelease (errs : List (List BurstErr)) (confirmed : Bool) : Statement (.snapRelease errs confirmed) := by simp [Statement, Instr.wf, Instr.errs, Instr.startIn, errsWf]
theorem snapAckTimeout : Statement (.snapAckTimeout) := neither rfl rfl
theorem snapCommitTimeout : Statement (.snapCommitTimeout) := neither rfl rfl
theorem snapCommitPoll : Statement (.snapCommitPoll) := neither rfl rfl
theorem shelfIoComplete (ok : Bool) : Statement (.shelfIoComplete ok) := neither rfl rfl
theorem restore (m : Master) (src : SourceIn) : Statement (.restore m src) := neither rfl rfl
theorem restoreComplete (src : SourceIn) : Statement (.restoreComplete src) := neither rfl rfl
theorem replayCheck (m : Master) (src : SourceIn) : Statement (.replayCheck m src) := neither rfl rfl
theorem witness (m : Master) : Statement (.witness m) := neither rfl rfl
theorem snapAbandon (m : Master) : Statement (.snapAbandon m) := neither rfl rfl
theorem snapClearError (m : Master) : Statement (.snapClearError m) := neither rfl rfl
theorem engineWatchdog (t : Fin 1200) (e : Engine) : Statement (.engineWatchdog t e) := neither rfl rfl
theorem selftestDone (u : TestUnit) (pass : Bool) (words : List Nat) (bad : Option Nat) : Statement (.selftestDone u pass words bad) := neither rfl rfl
theorem safetyDegraded (b : Fin 64) : Statement (.safetyDegraded b) := neither rfl rfl
theorem pretest (m : Master) (die : BitVec 3) (row col : BitVec 4) : Statement (.pretest m die row col) := neither rfl rfl
theorem pretestDone (pass : Bool) (us : Word) : Statement (.pretestDone pass us) := neither rfl rfl
theorem markSuspect (m : Master) (die : BitVec 3) (row col : BitVec 4) : Statement (.markSuspect m die row col) := neither rfl rfl
theorem reportMismatch (m : Master) : Statement (.reportMismatch m) := neither rfl rfl
theorem safeClearCounts (m : Master) : Statement (.safeClearCounts m) := neither rfl rfl
theorem domainFault (i : Fin 30) (raw : BitVec 16) : Statement (.domainFault i raw) := neither rfl rfl
theorem dieTempSample (d : Fin 9) (raw : List (BitVec 16)) : Statement (.dieTempSample d raw) := neither rfl rfl
theorem powerSample (i : PowerIn) : Statement (.powerSample i) := neither rfl rfl
theorem sitePowerUp (d : Fin 8) : Statement (.sitePowerUp d) := neither rfl rfl
theorem mothball (m : Master) : Statement (.mothball m) := neither rfl rfl
theorem mothballEntry : Statement (.mothballEntry) := neither rfl rfl
theorem wake (m : Master) : Statement (.wake m) := neither rfl rfl
theorem wakeComplete : Statement (.wakeComplete) := neither rfl rfl
theorem ownerRegister (m : Master) : Statement (.ownerRegister m) := neither rfl rfl
theorem ownerRevoke (m : Master) : Statement (.ownerRevoke m) := neither rfl rfl
theorem deploy (m : Master) : Statement (.deploy m) := neither rfl rfl
theorem returnCmd (m : Master) (i : StartIn) : Statement (.returnCmd m i) := by simp [Statement, Instr.wf, Instr.errs, Instr.startIn, errsWf]
theorem debugUnlock (m : Master) : Statement (.debugUnlock m) := neither rfl rfl
theorem close (m : Master) : Statement (.close m) := neither rfl rfl
theorem getVersion : Statement (.getVersion) := neither rfl rfl
theorem getCapabilities : Statement (.getCapabilities) := neither rfl rfl
theorem negotiateAlgorithms : Statement (.negotiateAlgorithms) := neither rfl rfl
theorem getDigests : Statement (.getDigests) := neither rfl rfl
theorem getCertificate (slot : Byte) (offset length : BitVec 16) : Statement (.getCertificate slot offset length) := neither rfl rfl
theorem challenge (slot : Byte) (nonce : List Byte) (summary : Byte) (ctx : Dword) : Statement (.challenge slot nonce summary ctx) := neither rfl rfl
theorem getMeasurements (index : Byte) (nonce : List Byte) (ctx : Dword) (signed : Bool) : Statement (.getMeasurements index nonce ctx signed) := neither rfl rfl
theorem spdmUnsupported (code : Byte) : Statement (.spdmUnsupported code) := neither rfl rfl
theorem evtFreeze (m : Master) : Statement (.evtFreeze m) := neither rfl rfl
theorem evtThaw (m : Master) : Statement (.evtThaw m) := neither rfl rfl
theorem digCfgWrite (m : Master) (t : Fin 1200) (n : Fin 16) (size : Nat) (high : Bool) (v : Dword) : Statement (.digCfgWrite m t n size high v) := neither rfl rfl
theorem dumpArm (m : Master) : Statement (.dumpArm m) := neither rfl rfl
theorem dumpCancel (m : Master) : Statement (.dumpCancel m) := neither rfl rfl
theorem dumpCopyDone (hostOk : Bool) (errs : List BurstErr) : Statement (.dumpCopyDone hostOk errs) := by simp [Statement, Instr.wf, Instr.errs, Instr.startIn, errsWf]
theorem fwPrepare (m : Master) : Statement (.fwPrepare m) := neither rfl rfl
theorem fwPrepareDone : Statement (.fwPrepareDone) := neither rfl rfl
theorem fwStage (m : Master) (errs : List BurstErr) (ext : Option (List Byte)) : Statement (.fwStage m errs ext) := by simp [Statement, Instr.wf, Instr.errs, Instr.startIn, errsWf]
theorem fwChunkProgrammed (ok : Bool) : Statement (.fwChunkProgrammed ok) := neither rfl rfl
theorem relay (src : BitVec 16) (tile : BitVec 11) (tag : Word) (index count : Word) (id : Dword) (data : List Byte) : Statement (.relay src tile tag index count id data) := neither rfl rfl
theorem fwRelayRetry : Statement (.fwRelayRetry) := neither rfl rfl
theorem fwRelayStall : Statement (.fwRelayStall) := neither rfl rfl
theorem fwSchedule (m : Master) : Statement (.fwSchedule m) := neither rfl rfl
theorem fwDiscard (m : Master) : Statement (.fwDiscard m) := neither rfl rfl
theorem fwReject (m : Master) : Statement (.fwReject m) := neither rfl rfl
theorem fwRelayAgain (m : Master) : Statement (.fwRelayAgain m) := neither rfl rfl
theorem fwActivationDone : Statement (.fwActivationDone) := neither rfl rfl
theorem fwConfirm (diesAnswer : Bool) (probes : Bool) : Statement (.fwConfirm diesAnswer probes) := neither rfl rfl
theorem fwTrialTimeout : Statement (.fwTrialTimeout) := neither rfl rfl
theorem hostMemWrite (off : BitVec 41) (data : List Byte) (poisoned : Bool) (errs : List BurstErr) (space : HostSpace) : Statement (.hostMemWrite off data poisoned errs space) := by simp [Statement, Instr.wf, Instr.errs, Instr.startIn, errsWf]
theorem hostMemRead (off : BitVec 41) (n : Nat) (poisoned : Bool) (errs : List BurstErr) (space : HostSpace) (ext : Option (List Byte)) : Statement (.hostMemRead off n poisoned errs space ext) := by simp [Statement, Instr.wf, Instr.errs, Instr.startIn, errsWf]
theorem bar2WindowWrite (m : Master) (base : BitVec 18) : Statement (.bar2WindowWrite m base) := neither rfl rfl
theorem msixUnmask (v : Fin 2048) : Statement (.msixUnmask v) := neither rfl rfl
theorem perstAssert : Statement (.perstAssert) := neither rfl rfl
theorem perstRelease (i : StartIn) : Statement (.perstRelease i) := by simp [Statement, Instr.wf, Instr.errs, Instr.startIn, errsWf]
theorem hotReset (i : StartIn) : Statement (.hotReset i) := by simp [Statement, Instr.wf, Instr.errs, Instr.startIn, errsWf]
theorem hostD3hot : Statement (.hostD3hot) := neither rfl rfl
theorem hostD0 : Statement (.hostD0) := neither rfl rfl
theorem hostLinkDown : Statement (.hostLinkDown) := neither rfl rfl
theorem shelfAttach (m : Master) (probe : ShelfProbe) : Statement (.shelfAttach m probe) := neither rfl rfl
theorem shelfRelease (m : Master) : Statement (.shelfRelease m) := neither rfl rfl
theorem shelfInboundRequest (write : Bool) (addr : Dword) (n : Nat) (data : List Byte) (errs : List BurstErr) : Statement (.shelfInboundRequest write addr n data errs) := by simp [Statement, Instr.wf, Instr.errs, Instr.startIn, errsWf]
theorem shelfCmdTimeout : Statement (.shelfCmdTimeout) := neither rfl rfl
theorem shelfHealthPoll (wear : BitVec 16) (ok : Bool) : Statement (.shelfHealthPoll wear ok) := neither rfl rfl
theorem entdaa (a : BitVec 7) : Statement (.entdaa a) := neither rfl rfl
theorem setdasa (a : BitVec 7) (target : BitVec 7) : Statement (.setdasa a target) := neither rfl rfl
theorem rstdaa : Statement (.rstdaa) := neither rfl rfl
theorem getpid : Statement (.getpid) := neither rfl rfl
theorem getbcr : Statement (.getbcr) := neither rfl rfl
theorem getdcr : Statement (.getdcr) := neither rfl rfl
theorem getstatus : Statement (.getstatus) := neither rfl rfl
theorem getmwl : Statement (.getmwl) := neither rfl rfl
theorem setmwl (n : BitVec 16) : Statement (.setmwl n) := neither rfl rfl
theorem enec : Statement (.enec) := neither rfl rfl
theorem disec : Statement (.disec) := neither rfl rfl
theorem i3cOtherCcc (ccc : Byte) : Statement (.i3cOtherCcc ccc) := neither rfl rfl
theorem i3cPrivateWrite (bytes : List Byte) (i : StartIn) (target : Option (BitVec 7)) : Statement (.i3cPrivateWrite bytes i target) := by simp [Statement, Instr.wf, Instr.errs, Instr.startIn, errsWf]
theorem i3cPrivateRead (target : Option (BitVec 7)) : Statement (.i3cPrivateRead target) := neither rfl rfl
theorem auxPowerOff : Statement (.auxPowerOff) := neither rfl rfl
theorem hostLinkUp : Statement (.hostLinkUp) := neither rfl rfl
theorem tckEdge (rising tms tdi : Bool) : Statement (.tckEdge rising tms tdi) := neither rfl rfl
theorem pwrBudgetRead (m : Master) (off : BitVec 3) (size : Nat) : Statement (.pwrBudgetRead m off size) := neither rfl rfl
theorem oPortLockLoss (p : Fin 32) : Statement (.oPortLockLoss p) := neither rfl rfl

end Laws.WellFormed

end Sys2Proof
end

