-- ==== Sys2Proof/Laws/State.lean ====
section
/-! SUPPORT. What each update of the state leaves: one lemma per field and update. -/

namespace Sys2Proof.Machine

variable (s : State)

/-! setRegs -/
@[simp] theorem State.setRegs_pending (r : Regs) : (s.setRegs r).pending = s.pending := rfl
@[simp] theorem State.setRegs_time (r : Regs) : (s.setRegs r).time = s.time := rfl
@[simp] theorem State.setRegs_free (r : Regs) : (s.setRegs r).free = s.free := rfl
@[simp] theorem State.setRegs_log (r : Regs) : (s.setRegs r).log = s.log := rfl
@[simp] theorem State.setRegs_out (r : Regs) : (s.setRegs r).out = s.out := rfl
@[simp] theorem State.setRegs_pkg (r : Regs) : (s.setRegs r).pkg = s.pkg := rfl
@[simp] theorem State.setRegs_stow (r : Regs) : (s.setRegs r).stow = s.stow := rfl
@[simp] theorem State.setRegs_tb (r : Regs) : (s.setRegs r).tb = s.tb := rfl
@[simp] theorem State.setRegs_stop (r : Regs) : (s.setRegs r).stop = s.stop := rfl
@[simp] theorem State.setRegs_hbm (r : Regs) : (s.setRegs r).hbm = s.hbm := rfl
@[simp] theorem State.setRegs_hbmBad (r : Regs) : (s.setRegs r).hbmBad = s.hbmBad := rfl
@[simp] theorem State.setRegs_stackMap (r : Regs) : (s.setRegs r).stackMap = s.stackMap := rfl
@[simp] theorem State.setRegs_tiles (r : Regs) : (s.setRegs r).tiles = s.tiles := rfl
@[simp] theorem State.setRegs_spadGen (r : Regs) : (s.setRegs r).spadGen = s.spadGen := rfl
@[simp] theorem State.setRegs_vaults (r : Regs) : (s.setRegs r).vaults = s.vaults := rfl
@[simp] theorem State.setRegs_bays (r : Regs) : (s.setRegs r).bays = s.bays := rfl
@[simp] theorem State.setRegs_queues (r : Regs) : (s.setRegs r).queues = s.queues := rfl
@[simp] theorem State.setRegs_disp (r : Regs) : (s.setRegs r).disp = s.disp := rfl
@[simp] theorem State.setRegs_ports (r : Regs) : (s.setRegs r).ports = s.ports := rfl
@[simp] theorem State.setRegs_grp (r : Regs) : (s.setRegs r).grp = s.grp := rfl
@[simp] theorem State.setRegs_snap (r : Regs) : (s.setRegs r).snap = s.snap := rfl
@[simp] theorem State.setRegs_safe (r : Regs) : (s.setRegs r).safe = s.safe := rfl
@[simp] theorem State.setRegs_pwr (r : Regs) : (s.setRegs r).pwr = s.pwr := rfl
@[simp] theorem State.setRegs_sec (r : Regs) : (s.setRegs r).sec = s.sec := rfl
@[simp] theorem State.setRegs_dump (r : Regs) : (s.setRegs r).dump = s.dump := rfl
@[simp] theorem State.setRegs_fw (r : Regs) : (s.setRegs r).fw = s.fw := rfl
@[simp] theorem State.setRegs_pcie (r : Regs) : (s.setRegs r).pcie = s.pcie := rfl
@[simp] theorem State.setRegs_shelf (r : Regs) : (s.setRegs r).shelf = s.shelf := rfl
@[simp] theorem State.setRegs_i3c (r : Regs) : (s.setRegs r).i3c = s.i3c := rfl
@[simp] theorem State.setRegs_flying (r : Regs) : (s.setRegs r).flying = s.flying := rfl
@[simp] theorem State.setRegs_relayed (r : Regs) : (s.setRegs r).relayed = s.relayed := rfl

/-! wr -/
@[simp] theorem State.wr_pending (f : Fld) (v : Nat) : (s.wr f v).pending = s.pending := rfl
@[simp] theorem State.wr_time (f : Fld) (v : Nat) : (s.wr f v).time = s.time := rfl
@[simp] theorem State.wr_free (f : Fld) (v : Nat) : (s.wr f v).free = s.free := rfl
@[simp] theorem State.wr_log (f : Fld) (v : Nat) : (s.wr f v).log = s.log := rfl
@[simp] theorem State.wr_out (f : Fld) (v : Nat) : (s.wr f v).out = s.out := rfl
@[simp] theorem State.wr_pkg (f : Fld) (v : Nat) : (s.wr f v).pkg = s.pkg := rfl
@[simp] theorem State.wr_stow (f : Fld) (v : Nat) : (s.wr f v).stow = s.stow := rfl
@[simp] theorem State.wr_tb (f : Fld) (v : Nat) : (s.wr f v).tb = s.tb := rfl
@[simp] theorem State.wr_stop (f : Fld) (v : Nat) : (s.wr f v).stop = s.stop := rfl
@[simp] theorem State.wr_hbm (f : Fld) (v : Nat) : (s.wr f v).hbm = s.hbm := rfl
@[simp] theorem State.wr_hbmBad (f : Fld) (v : Nat) : (s.wr f v).hbmBad = s.hbmBad := rfl
@[simp] theorem State.wr_stackMap (f : Fld) (v : Nat) : (s.wr f v).stackMap = s.stackMap := rfl
@[simp] theorem State.wr_tiles (f : Fld) (v : Nat) : (s.wr f v).tiles = s.tiles := rfl
@[simp] theorem State.wr_spadGen (f : Fld) (v : Nat) : (s.wr f v).spadGen = s.spadGen := rfl
@[simp] theorem State.wr_vaults (f : Fld) (v : Nat) : (s.wr f v).vaults = s.vaults := rfl
@[simp] theorem State.wr_bays (f : Fld) (v : Nat) : (s.wr f v).bays = s.bays := rfl
@[simp] theorem State.wr_queues (f : Fld) (v : Nat) : (s.wr f v).queues = s.queues := rfl
@[simp] theorem State.wr_disp (f : Fld) (v : Nat) : (s.wr f v).disp = s.disp := rfl
@[simp] theorem State.wr_ports (f : Fld) (v : Nat) : (s.wr f v).ports = s.ports := rfl
@[simp] theorem State.wr_grp (f : Fld) (v : Nat) : (s.wr f v).grp = s.grp := rfl
@[simp] theorem State.wr_snap (f : Fld) (v : Nat) : (s.wr f v).snap = s.snap := rfl
@[simp] theorem State.wr_safe (f : Fld) (v : Nat) : (s.wr f v).safe = s.safe := rfl
@[simp] theorem State.wr_pwr (f : Fld) (v : Nat) : (s.wr f v).pwr = s.pwr := rfl
@[simp] theorem State.wr_sec (f : Fld) (v : Nat) : (s.wr f v).sec = s.sec := rfl
@[simp] theorem State.wr_dump (f : Fld) (v : Nat) : (s.wr f v).dump = s.dump := rfl
@[simp] theorem State.wr_fw (f : Fld) (v : Nat) : (s.wr f v).fw = s.fw := rfl
@[simp] theorem State.wr_pcie (f : Fld) (v : Nat) : (s.wr f v).pcie = s.pcie := rfl
@[simp] theorem State.wr_shelf (f : Fld) (v : Nat) : (s.wr f v).shelf = s.shelf := rfl
@[simp] theorem State.wr_i3c (f : Fld) (v : Nat) : (s.wr f v).i3c = s.i3c := rfl
@[simp] theorem State.wr_flying (f : Fld) (v : Nat) : (s.wr f v).flying = s.flying := rfl
@[simp] theorem State.wr_relayed (f : Fld) (v : Nat) : (s.wr f v).relayed = s.relayed := rfl

/-! wrs -/
@[simp] theorem State.wrs_pending (l : List (Fld × Nat)) : (s.wrs l).pending = s.pending := rfl
@[simp] theorem State.wrs_time (l : List (Fld × Nat)) : (s.wrs l).time = s.time := rfl
@[simp] theorem State.wrs_free (l : List (Fld × Nat)) : (s.wrs l).free = s.free := rfl
@[simp] theorem State.wrs_log (l : List (Fld × Nat)) : (s.wrs l).log = s.log := rfl
@[simp] theorem State.wrs_out (l : List (Fld × Nat)) : (s.wrs l).out = s.out := rfl
@[simp] theorem State.wrs_pkg (l : List (Fld × Nat)) : (s.wrs l).pkg = s.pkg := rfl
@[simp] theorem State.wrs_stow (l : List (Fld × Nat)) : (s.wrs l).stow = s.stow := rfl
@[simp] theorem State.wrs_tb (l : List (Fld × Nat)) : (s.wrs l).tb = s.tb := rfl
@[simp] theorem State.wrs_stop (l : List (Fld × Nat)) : (s.wrs l).stop = s.stop := rfl
@[simp] theorem State.wrs_hbm (l : List (Fld × Nat)) : (s.wrs l).hbm = s.hbm := rfl
@[simp] theorem State.wrs_hbmBad (l : List (Fld × Nat)) : (s.wrs l).hbmBad = s.hbmBad := rfl
@[simp] theorem State.wrs_stackMap (l : List (Fld × Nat)) : (s.wrs l).stackMap = s.stackMap := rfl
@[simp] theorem State.wrs_tiles (l : List (Fld × Nat)) : (s.wrs l).tiles = s.tiles := rfl
@[simp] theorem State.wrs_spadGen (l : List (Fld × Nat)) : (s.wrs l).spadGen = s.spadGen := rfl
@[simp] theorem State.wrs_vaults (l : List (Fld × Nat)) : (s.wrs l).vaults = s.vaults := rfl
@[simp] theorem State.wrs_bays (l : List (Fld × Nat)) : (s.wrs l).bays = s.bays := rfl
@[simp] theorem State.wrs_queues (l : List (Fld × Nat)) : (s.wrs l).queues = s.queues := rfl
@[simp] theorem State.wrs_disp (l : List (Fld × Nat)) : (s.wrs l).disp = s.disp := rfl
@[simp] theorem State.wrs_ports (l : List (Fld × Nat)) : (s.wrs l).ports = s.ports := rfl
@[simp] theorem State.wrs_grp (l : List (Fld × Nat)) : (s.wrs l).grp = s.grp := rfl
@[simp] theorem State.wrs_snap (l : List (Fld × Nat)) : (s.wrs l).snap = s.snap := rfl
@[simp] theorem State.wrs_safe (l : List (Fld × Nat)) : (s.wrs l).safe = s.safe := rfl
@[simp] theorem State.wrs_pwr (l : List (Fld × Nat)) : (s.wrs l).pwr = s.pwr := rfl
@[simp] theorem State.wrs_sec (l : List (Fld × Nat)) : (s.wrs l).sec = s.sec := rfl
@[simp] theorem State.wrs_dump (l : List (Fld × Nat)) : (s.wrs l).dump = s.dump := rfl
@[simp] theorem State.wrs_fw (l : List (Fld × Nat)) : (s.wrs l).fw = s.fw := rfl
@[simp] theorem State.wrs_pcie (l : List (Fld × Nat)) : (s.wrs l).pcie = s.pcie := rfl
@[simp] theorem State.wrs_shelf (l : List (Fld × Nat)) : (s.wrs l).shelf = s.shelf := rfl
@[simp] theorem State.wrs_i3c (l : List (Fld × Nat)) : (s.wrs l).i3c = s.i3c := rfl
@[simp] theorem State.wrs_flying (l : List (Fld × Nat)) : (s.wrs l).flying = s.flying := rfl
@[simp] theorem State.wrs_relayed (l : List (Fld × Nat)) : (s.wrs l).relayed = s.relayed := rfl

/-! bump -/
@[simp] theorem State.bump_pending (f : Fld) (n : Nat) : (s.bump f n).pending = s.pending := rfl
@[simp] theorem State.bump_time (f : Fld) (n : Nat) : (s.bump f n).time = s.time := rfl
@[simp] theorem State.bump_free (f : Fld) (n : Nat) : (s.bump f n).free = s.free := rfl
@[simp] theorem State.bump_log (f : Fld) (n : Nat) : (s.bump f n).log = s.log := rfl
@[simp] theorem State.bump_out (f : Fld) (n : Nat) : (s.bump f n).out = s.out := rfl
@[simp] theorem State.bump_pkg (f : Fld) (n : Nat) : (s.bump f n).pkg = s.pkg := rfl
@[simp] theorem State.bump_stow (f : Fld) (n : Nat) : (s.bump f n).stow = s.stow := rfl
@[simp] theorem State.bump_tb (f : Fld) (n : Nat) : (s.bump f n).tb = s.tb := rfl
@[simp] theorem State.bump_stop (f : Fld) (n : Nat) : (s.bump f n).stop = s.stop := rfl
@[simp] theorem State.bump_hbm (f : Fld) (n : Nat) : (s.bump f n).hbm = s.hbm := rfl
@[simp] theorem State.bump_hbmBad (f : Fld) (n : Nat) : (s.bump f n).hbmBad = s.hbmBad := rfl
@[simp] theorem State.bump_stackMap (f : Fld) (n : Nat) : (s.bump f n).stackMap = s.stackMap := rfl
@[simp] theorem State.bump_tiles (f : Fld) (n : Nat) : (s.bump f n).tiles = s.tiles := rfl
@[simp] theorem State.bump_spadGen (f : Fld) (n : Nat) : (s.bump f n).spadGen = s.spadGen := rfl
@[simp] theorem State.bump_vaults (f : Fld) (n : Nat) : (s.bump f n).vaults = s.vaults := rfl
@[simp] theorem State.bump_bays (f : Fld) (n : Nat) : (s.bump f n).bays = s.bays := rfl
@[simp] theorem State.bump_queues (f : Fld) (n : Nat) : (s.bump f n).queues = s.queues := rfl
@[simp] theorem State.bump_disp (f : Fld) (n : Nat) : (s.bump f n).disp = s.disp := rfl
@[simp] theorem State.bump_ports (f : Fld) (n : Nat) : (s.bump f n).ports = s.ports := rfl
@[simp] theorem State.bump_grp (f : Fld) (n : Nat) : (s.bump f n).grp = s.grp := rfl
@[simp] theorem State.bump_snap (f : Fld) (n : Nat) : (s.bump f n).snap = s.snap := rfl
@[simp] theorem State.bump_safe (f : Fld) (n : Nat) : (s.bump f n).safe = s.safe := rfl
@[simp] theorem State.bump_pwr (f : Fld) (n : Nat) : (s.bump f n).pwr = s.pwr := rfl
@[simp] theorem State.bump_sec (f : Fld) (n : Nat) : (s.bump f n).sec = s.sec := rfl
@[simp] theorem State.bump_dump (f : Fld) (n : Nat) : (s.bump f n).dump = s.dump := rfl
@[simp] theorem State.bump_fw (f : Fld) (n : Nat) : (s.bump f n).fw = s.fw := rfl
@[simp] theorem State.bump_pcie (f : Fld) (n : Nat) : (s.bump f n).pcie = s.pcie := rfl
@[simp] theorem State.bump_shelf (f : Fld) (n : Nat) : (s.bump f n).shelf = s.shelf := rfl
@[simp] theorem State.bump_i3c (f : Fld) (n : Nat) : (s.bump f n).i3c = s.i3c := rfl
@[simp] theorem State.bump_flying (f : Fld) (n : Nat) : (s.bump f n).flying = s.flying := rfl
@[simp] theorem State.bump_relayed (f : Fld) (n : Nat) : (s.bump f n).relayed = s.relayed := rfl

/-! logs -/
@[simp] theorem State.logs_pending (n : EvName) (a : List Nat) : (s.logs n a).pending = s.pending := rfl
@[simp] theorem State.logs_time (n : EvName) (a : List Nat) : (s.logs n a).time = s.time := rfl
@[simp] theorem State.logs_free (n : EvName) (a : List Nat) : (s.logs n a).free = s.free := rfl
@[simp] theorem State.logs_out (n : EvName) (a : List Nat) : (s.logs n a).out = s.out := rfl
@[simp] theorem State.logs_regs (n : EvName) (a : List Nat) : (s.logs n a).regs = s.regs := rfl
@[simp] theorem State.logs_pkg (n : EvName) (a : List Nat) : (s.logs n a).pkg = s.pkg := rfl
@[simp] theorem State.logs_stow (n : EvName) (a : List Nat) : (s.logs n a).stow = s.stow := rfl
@[simp] theorem State.logs_tb (n : EvName) (a : List Nat) : (s.logs n a).tb = s.tb := rfl
@[simp] theorem State.logs_stop (n : EvName) (a : List Nat) : (s.logs n a).stop = s.stop := rfl
@[simp] theorem State.logs_hbm (n : EvName) (a : List Nat) : (s.logs n a).hbm = s.hbm := rfl
@[simp] theorem State.logs_hbmBad (n : EvName) (a : List Nat) : (s.logs n a).hbmBad = s.hbmBad := rfl
@[simp] theorem State.logs_stackMap (n : EvName) (a : List Nat) : (s.logs n a).stackMap = s.stackMap := rfl
@[simp] theorem State.logs_tiles (n : EvName) (a : List Nat) : (s.logs n a).tiles = s.tiles := rfl
@[simp] theorem State.logs_spadGen (n : EvName) (a : List Nat) : (s.logs n a).spadGen = s.spadGen := rfl
@[simp] theorem State.logs_vaults (n : EvName) (a : List Nat) : (s.logs n a).vaults = s.vaults := rfl
@[simp] theorem State.logs_bays (n : EvName) (a : List Nat) : (s.logs n a).bays = s.bays := rfl
@[simp] theorem State.logs_queues (n : EvName) (a : List Nat) : (s.logs n a).queues = s.queues := rfl
@[simp] theorem State.logs_disp (n : EvName) (a : List Nat) : (s.logs n a).disp = s.disp := rfl
@[simp] theorem State.logs_ports (n : EvName) (a : List Nat) : (s.logs n a).ports = s.ports := rfl
@[simp] theorem State.logs_grp (n : EvName) (a : List Nat) : (s.logs n a).grp = s.grp := rfl
@[simp] theorem State.logs_snap (n : EvName) (a : List Nat) : (s.logs n a).snap = s.snap := rfl
@[simp] theorem State.logs_safe (n : EvName) (a : List Nat) : (s.logs n a).safe = s.safe := rfl
@[simp] theorem State.logs_pwr (n : EvName) (a : List Nat) : (s.logs n a).pwr = s.pwr := rfl
@[simp] theorem State.logs_sec (n : EvName) (a : List Nat) : (s.logs n a).sec = s.sec := rfl
@[simp] theorem State.logs_dump (n : EvName) (a : List Nat) : (s.logs n a).dump = s.dump := rfl
@[simp] theorem State.logs_fw (n : EvName) (a : List Nat) : (s.logs n a).fw = s.fw := rfl
@[simp] theorem State.logs_pcie (n : EvName) (a : List Nat) : (s.logs n a).pcie = s.pcie := rfl
@[simp] theorem State.logs_shelf (n : EvName) (a : List Nat) : (s.logs n a).shelf = s.shelf := rfl
@[simp] theorem State.logs_i3c (n : EvName) (a : List Nat) : (s.logs n a).i3c = s.i3c := rfl
@[simp] theorem State.logs_flying (n : EvName) (a : List Nat) : (s.logs n a).flying = s.flying := rfl
@[simp] theorem State.logs_relayed (n : EvName) (a : List Nat) : (s.logs n a).relayed = s.relayed := rfl

/-! sends -/
@[simp] theorem State.sends_pending (o : Out) : (s.sends o).pending = s.pending := rfl
@[simp] theorem State.sends_time (o : Out) : (s.sends o).time = s.time := rfl
@[simp] theorem State.sends_free (o : Out) : (s.sends o).free = s.free := rfl
@[simp] theorem State.sends_log (o : Out) : (s.sends o).log = s.log := rfl
@[simp] theorem State.sends_regs (o : Out) : (s.sends o).regs = s.regs := rfl
@[simp] theorem State.sends_pkg (o : Out) : (s.sends o).pkg = s.pkg := rfl
@[simp] theorem State.sends_stow (o : Out) : (s.sends o).stow = s.stow := rfl
@[simp] theorem State.sends_tb (o : Out) : (s.sends o).tb = s.tb := rfl
@[simp] theorem State.sends_stop (o : Out) : (s.sends o).stop = s.stop := rfl
@[simp] theorem State.sends_hbm (o : Out) : (s.sends o).hbm = s.hbm := rfl
@[simp] theorem State.sends_hbmBad (o : Out) : (s.sends o).hbmBad = s.hbmBad := rfl
@[simp] theorem State.sends_stackMap (o : Out) : (s.sends o).stackMap = s.stackMap := rfl
@[simp] theorem State.sends_tiles (o : Out) : (s.sends o).tiles = s.tiles := rfl
@[simp] theorem State.sends_spadGen (o : Out) : (s.sends o).spadGen = s.spadGen := rfl
@[simp] theorem State.sends_vaults (o : Out) : (s.sends o).vaults = s.vaults := rfl
@[simp] theorem State.sends_bays (o : Out) : (s.sends o).bays = s.bays := rfl
@[simp] theorem State.sends_queues (o : Out) : (s.sends o).queues = s.queues := rfl
@[simp] theorem State.sends_disp (o : Out) : (s.sends o).disp = s.disp := rfl
@[simp] theorem State.sends_ports (o : Out) : (s.sends o).ports = s.ports := rfl
@[simp] theorem State.sends_grp (o : Out) : (s.sends o).grp = s.grp := rfl
@[simp] theorem State.sends_snap (o : Out) : (s.sends o).snap = s.snap := rfl
@[simp] theorem State.sends_safe (o : Out) : (s.sends o).safe = s.safe := rfl
@[simp] theorem State.sends_pwr (o : Out) : (s.sends o).pwr = s.pwr := rfl
@[simp] theorem State.sends_sec (o : Out) : (s.sends o).sec = s.sec := rfl
@[simp] theorem State.sends_dump (o : Out) : (s.sends o).dump = s.dump := rfl
@[simp] theorem State.sends_fw (o : Out) : (s.sends o).fw = s.fw := rfl
@[simp] theorem State.sends_pcie (o : Out) : (s.sends o).pcie = s.pcie := rfl
@[simp] theorem State.sends_shelf (o : Out) : (s.sends o).shelf = s.shelf := rfl
@[simp] theorem State.sends_i3c (o : Out) : (s.sends o).i3c = s.i3c := rfl
@[simp] theorem State.sends_flying (o : Out) : (s.sends o).flying = s.flying := rfl
@[simp] theorem State.sends_relayed (o : Out) : (s.sends o).relayed = s.relayed := rfl

/-! sendAll -/
@[simp] theorem State.sendAll_pending (l : List Out) : (s.sendAll l).pending = s.pending := rfl
@[simp] theorem State.sendAll_time (l : List Out) : (s.sendAll l).time = s.time := rfl
@[simp] theorem State.sendAll_free (l : List Out) : (s.sendAll l).free = s.free := rfl
@[simp] theorem State.sendAll_log (l : List Out) : (s.sendAll l).log = s.log := rfl
@[simp] theorem State.sendAll_regs (l : List Out) : (s.sendAll l).regs = s.regs := rfl
@[simp] theorem State.sendAll_pkg (l : List Out) : (s.sendAll l).pkg = s.pkg := rfl
@[simp] theorem State.sendAll_stow (l : List Out) : (s.sendAll l).stow = s.stow := rfl
@[simp] theorem State.sendAll_tb (l : List Out) : (s.sendAll l).tb = s.tb := rfl
@[simp] theorem State.sendAll_stop (l : List Out) : (s.sendAll l).stop = s.stop := rfl
@[simp] theorem State.sendAll_hbm (l : List Out) : (s.sendAll l).hbm = s.hbm := rfl
@[simp] theorem State.sendAll_hbmBad (l : List Out) : (s.sendAll l).hbmBad = s.hbmBad := rfl
@[simp] theorem State.sendAll_stackMap (l : List Out) : (s.sendAll l).stackMap = s.stackMap := rfl
@[simp] theorem State.sendAll_tiles (l : List Out) : (s.sendAll l).tiles = s.tiles := rfl
@[simp] theorem State.sendAll_spadGen (l : List Out) : (s.sendAll l).spadGen = s.spadGen := rfl
@[simp] theorem State.sendAll_vaults (l : List Out) : (s.sendAll l).vaults = s.vaults := rfl
@[simp] theorem State.sendAll_bays (l : List Out) : (s.sendAll l).bays = s.bays := rfl
@[simp] theorem State.sendAll_queues (l : List Out) : (s.sendAll l).queues = s.queues := rfl
@[simp] theorem State.sendAll_disp (l : List Out) : (s.sendAll l).disp = s.disp := rfl
@[simp] theorem State.sendAll_ports (l : List Out) : (s.sendAll l).ports = s.ports := rfl
@[simp] theorem State.sendAll_grp (l : List Out) : (s.sendAll l).grp = s.grp := rfl
@[simp] theorem State.sendAll_snap (l : List Out) : (s.sendAll l).snap = s.snap := rfl
@[simp] theorem State.sendAll_safe (l : List Out) : (s.sendAll l).safe = s.safe := rfl
@[simp] theorem State.sendAll_pwr (l : List Out) : (s.sendAll l).pwr = s.pwr := rfl
@[simp] theorem State.sendAll_sec (l : List Out) : (s.sendAll l).sec = s.sec := rfl
@[simp] theorem State.sendAll_dump (l : List Out) : (s.sendAll l).dump = s.dump := rfl
@[simp] theorem State.sendAll_fw (l : List Out) : (s.sendAll l).fw = s.fw := rfl
@[simp] theorem State.sendAll_pcie (l : List Out) : (s.sendAll l).pcie = s.pcie := rfl
@[simp] theorem State.sendAll_shelf (l : List Out) : (s.sendAll l).shelf = s.shelf := rfl
@[simp] theorem State.sendAll_i3c (l : List Out) : (s.sendAll l).i3c = s.i3c := rfl
@[simp] theorem State.sendAll_flying (l : List Out) : (s.sendAll l).flying = s.flying := rfl
@[simp] theorem State.sendAll_relayed (l : List Out) : (s.sendAll l).relayed = s.relayed := rfl

/-! draws -/
@[simp] theorem State.draws_pending (n : Nat) : (s.draws n).pending = s.pending := rfl
@[simp] theorem State.draws_time (n : Nat) : (s.draws n).time = s.time := rfl
@[simp] theorem State.draws_log (n : Nat) : (s.draws n).log = s.log := rfl
@[simp] theorem State.draws_out (n : Nat) : (s.draws n).out = s.out := rfl
@[simp] theorem State.draws_regs (n : Nat) : (s.draws n).regs = s.regs := rfl
@[simp] theorem State.draws_pkg (n : Nat) : (s.draws n).pkg = s.pkg := rfl
@[simp] theorem State.draws_stow (n : Nat) : (s.draws n).stow = s.stow := rfl
@[simp] theorem State.draws_tb (n : Nat) : (s.draws n).tb = s.tb := rfl
@[simp] theorem State.draws_stop (n : Nat) : (s.draws n).stop = s.stop := rfl
@[simp] theorem State.draws_hbm (n : Nat) : (s.draws n).hbm = s.hbm := rfl
@[simp] theorem State.draws_hbmBad (n : Nat) : (s.draws n).hbmBad = s.hbmBad := rfl
@[simp] theorem State.draws_stackMap (n : Nat) : (s.draws n).stackMap = s.stackMap := rfl
@[simp] theorem State.draws_tiles (n : Nat) : (s.draws n).tiles = s.tiles := rfl
@[simp] theorem State.draws_spadGen (n : Nat) : (s.draws n).spadGen = s.spadGen := rfl
@[simp] theorem State.draws_vaults (n : Nat) : (s.draws n).vaults = s.vaults := rfl
@[simp] theorem State.draws_bays (n : Nat) : (s.draws n).bays = s.bays := rfl
@[simp] theorem State.draws_queues (n : Nat) : (s.draws n).queues = s.queues := rfl
@[simp] theorem State.draws_disp (n : Nat) : (s.draws n).disp = s.disp := rfl
@[simp] theorem State.draws_ports (n : Nat) : (s.draws n).ports = s.ports := rfl
@[simp] theorem State.draws_grp (n : Nat) : (s.draws n).grp = s.grp := rfl
@[simp] theorem State.draws_snap (n : Nat) : (s.draws n).snap = s.snap := rfl
@[simp] theorem State.draws_safe (n : Nat) : (s.draws n).safe = s.safe := rfl
@[simp] theorem State.draws_pwr (n : Nat) : (s.draws n).pwr = s.pwr := rfl
@[simp] theorem State.draws_sec (n : Nat) : (s.draws n).sec = s.sec := rfl
@[simp] theorem State.draws_dump (n : Nat) : (s.draws n).dump = s.dump := rfl
@[simp] theorem State.draws_fw (n : Nat) : (s.draws n).fw = s.fw := rfl
@[simp] theorem State.draws_pcie (n : Nat) : (s.draws n).pcie = s.pcie := rfl
@[simp] theorem State.draws_shelf (n : Nat) : (s.draws n).shelf = s.shelf := rfl
@[simp] theorem State.draws_i3c (n : Nat) : (s.draws n).i3c = s.i3c := rfl
@[simp] theorem State.draws_flying (n : Nat) : (s.draws n).flying = s.flying := rfl
@[simp] theorem State.draws_relayed (n : Nat) : (s.draws n).relayed = s.relayed := rfl

/-! setTile -/
@[simp] theorem State.setTile_pending (t : Nat) (x : Tile) : (s.setTile t x).pending = s.pending := rfl
@[simp] theorem State.setTile_time (t : Nat) (x : Tile) : (s.setTile t x).time = s.time := rfl
@[simp] theorem State.setTile_free (t : Nat) (x : Tile) : (s.setTile t x).free = s.free := rfl
@[simp] theorem State.setTile_log (t : Nat) (x : Tile) : (s.setTile t x).log = s.log := rfl
@[simp] theorem State.setTile_out (t : Nat) (x : Tile) : (s.setTile t x).out = s.out := rfl
@[simp] theorem State.setTile_regs (t : Nat) (x : Tile) : (s.setTile t x).regs = s.regs := rfl
@[simp] theorem State.setTile_pkg (t : Nat) (x : Tile) : (s.setTile t x).pkg = s.pkg := rfl
@[simp] theorem State.setTile_stow (t : Nat) (x : Tile) : (s.setTile t x).stow = s.stow := rfl
@[simp] theorem State.setTile_tb (t : Nat) (x : Tile) : (s.setTile t x).tb = s.tb := rfl
@[simp] theorem State.setTile_stop (t : Nat) (x : Tile) : (s.setTile t x).stop = s.stop := rfl
@[simp] theorem State.setTile_hbm (t : Nat) (x : Tile) : (s.setTile t x).hbm = s.hbm := rfl
@[simp] theorem State.setTile_hbmBad (t : Nat) (x : Tile) : (s.setTile t x).hbmBad = s.hbmBad := rfl
@[simp] theorem State.setTile_stackMap (t : Nat) (x : Tile) : (s.setTile t x).stackMap = s.stackMap := rfl
@[simp] theorem State.setTile_spadGen (t : Nat) (x : Tile) : (s.setTile t x).spadGen = s.spadGen := rfl
@[simp] theorem State.setTile_vaults (t : Nat) (x : Tile) : (s.setTile t x).vaults = s.vaults := rfl
@[simp] theorem State.setTile_bays (t : Nat) (x : Tile) : (s.setTile t x).bays = s.bays := rfl
@[simp] theorem State.setTile_queues (t : Nat) (x : Tile) : (s.setTile t x).queues = s.queues := rfl
@[simp] theorem State.setTile_disp (t : Nat) (x : Tile) : (s.setTile t x).disp = s.disp := rfl
@[simp] theorem State.setTile_ports (t : Nat) (x : Tile) : (s.setTile t x).ports = s.ports := rfl
@[simp] theorem State.setTile_grp (t : Nat) (x : Tile) : (s.setTile t x).grp = s.grp := rfl
@[simp] theorem State.setTile_snap (t : Nat) (x : Tile) : (s.setTile t x).snap = s.snap := rfl
@[simp] theorem State.setTile_safe (t : Nat) (x : Tile) : (s.setTile t x).safe = s.safe := rfl
@[simp] theorem State.setTile_pwr (t : Nat) (x : Tile) : (s.setTile t x).pwr = s.pwr := rfl
@[simp] theorem State.setTile_sec (t : Nat) (x : Tile) : (s.setTile t x).sec = s.sec := rfl
@[simp] theorem State.setTile_dump (t : Nat) (x : Tile) : (s.setTile t x).dump = s.dump := rfl
@[simp] theorem State.setTile_fw (t : Nat) (x : Tile) : (s.setTile t x).fw = s.fw := rfl
@[simp] theorem State.setTile_pcie (t : Nat) (x : Tile) : (s.setTile t x).pcie = s.pcie := rfl
@[simp] theorem State.setTile_shelf (t : Nat) (x : Tile) : (s.setTile t x).shelf = s.shelf := rfl
@[simp] theorem State.setTile_i3c (t : Nat) (x : Tile) : (s.setTile t x).i3c = s.i3c := rfl
@[simp] theorem State.setTile_flying (t : Nat) (x : Tile) : (s.setTile t x).flying = s.flying := rfl
@[simp] theorem State.setTile_relayed (t : Nat) (x : Tile) : (s.setTile t x).relayed = s.relayed := rfl

/-! setStack -/
@[simp] theorem State.setStack_pending (k : Nat) (x : Stack) : (s.setStack k x).pending = s.pending := rfl
@[simp] theorem State.setStack_time (k : Nat) (x : Stack) : (s.setStack k x).time = s.time := rfl
@[simp] theorem State.setStack_free (k : Nat) (x : Stack) : (s.setStack k x).free = s.free := rfl
@[simp] theorem State.setStack_log (k : Nat) (x : Stack) : (s.setStack k x).log = s.log := rfl
@[simp] theorem State.setStack_out (k : Nat) (x : Stack) : (s.setStack k x).out = s.out := rfl
@[simp] theorem State.setStack_regs (k : Nat) (x : Stack) : (s.setStack k x).regs = s.regs := rfl
@[simp] theorem State.setStack_pkg (k : Nat) (x : Stack) : (s.setStack k x).pkg = s.pkg := rfl
@[simp] theorem State.setStack_stow (k : Nat) (x : Stack) : (s.setStack k x).stow = s.stow := rfl
@[simp] theorem State.setStack_tb (k : Nat) (x : Stack) : (s.setStack k x).tb = s.tb := rfl
@[simp] theorem State.setStack_stop (k : Nat) (x : Stack) : (s.setStack k x).stop = s.stop := rfl
@[simp] theorem State.setStack_hbm (k : Nat) (x : Stack) : (s.setStack k x).hbm = s.hbm := rfl
@[simp] theorem State.setStack_hbmBad (k : Nat) (x : Stack) : (s.setStack k x).hbmBad = s.hbmBad := rfl
@[simp] theorem State.setStack_tiles (k : Nat) (x : Stack) : (s.setStack k x).tiles = s.tiles := rfl
@[simp] theorem State.setStack_spadGen (k : Nat) (x : Stack) : (s.setStack k x).spadGen = s.spadGen := rfl
@[simp] theorem State.setStack_vaults (k : Nat) (x : Stack) : (s.setStack k x).vaults = s.vaults := rfl
@[simp] theorem State.setStack_bays (k : Nat) (x : Stack) : (s.setStack k x).bays = s.bays := rfl
@[simp] theorem State.setStack_queues (k : Nat) (x : Stack) : (s.setStack k x).queues = s.queues := rfl
@[simp] theorem State.setStack_disp (k : Nat) (x : Stack) : (s.setStack k x).disp = s.disp := rfl
@[simp] theorem State.setStack_ports (k : Nat) (x : Stack) : (s.setStack k x).ports = s.ports := rfl
@[simp] theorem State.setStack_grp (k : Nat) (x : Stack) : (s.setStack k x).grp = s.grp := rfl
@[simp] theorem State.setStack_snap (k : Nat) (x : Stack) : (s.setStack k x).snap = s.snap := rfl
@[simp] theorem State.setStack_safe (k : Nat) (x : Stack) : (s.setStack k x).safe = s.safe := rfl
@[simp] theorem State.setStack_pwr (k : Nat) (x : Stack) : (s.setStack k x).pwr = s.pwr := rfl
@[simp] theorem State.setStack_sec (k : Nat) (x : Stack) : (s.setStack k x).sec = s.sec := rfl
@[simp] theorem State.setStack_dump (k : Nat) (x : Stack) : (s.setStack k x).dump = s.dump := rfl
@[simp] theorem State.setStack_fw (k : Nat) (x : Stack) : (s.setStack k x).fw = s.fw := rfl
@[simp] theorem State.setStack_pcie (k : Nat) (x : Stack) : (s.setStack k x).pcie = s.pcie := rfl
@[simp] theorem State.setStack_shelf (k : Nat) (x : Stack) : (s.setStack k x).shelf = s.shelf := rfl
@[simp] theorem State.setStack_i3c (k : Nat) (x : Stack) : (s.setStack k x).i3c = s.i3c := rfl
@[simp] theorem State.setStack_flying (k : Nat) (x : Stack) : (s.setStack k x).flying = s.flying := rfl
@[simp] theorem State.setStack_relayed (k : Nat) (x : Stack) : (s.setStack k x).relayed = s.relayed := rfl

/-! setQueue -/
@[simp] theorem State.setQueue_pending (q : Nat) (x : Queue) : (s.setQueue q x).pending = s.pending := rfl
@[simp] theorem State.setQueue_time (q : Nat) (x : Queue) : (s.setQueue q x).time = s.time := rfl
@[simp] theorem State.setQueue_free (q : Nat) (x : Queue) : (s.setQueue q x).free = s.free := rfl
@[simp] theorem State.setQueue_log (q : Nat) (x : Queue) : (s.setQueue q x).log = s.log := rfl
@[simp] theorem State.setQueue_out (q : Nat) (x : Queue) : (s.setQueue q x).out = s.out := rfl
@[simp] theorem State.setQueue_regs (q : Nat) (x : Queue) : (s.setQueue q x).regs = s.regs := rfl
@[simp] theorem State.setQueue_pkg (q : Nat) (x : Queue) : (s.setQueue q x).pkg = s.pkg := rfl
@[simp] theorem State.setQueue_stow (q : Nat) (x : Queue) : (s.setQueue q x).stow = s.stow := rfl
@[simp] theorem State.setQueue_tb (q : Nat) (x : Queue) : (s.setQueue q x).tb = s.tb := rfl
@[simp] theorem State.setQueue_stop (q : Nat) (x : Queue) : (s.setQueue q x).stop = s.stop := rfl
@[simp] theorem State.setQueue_hbm (q : Nat) (x : Queue) : (s.setQueue q x).hbm = s.hbm := rfl
@[simp] theorem State.setQueue_hbmBad (q : Nat) (x : Queue) : (s.setQueue q x).hbmBad = s.hbmBad := rfl
@[simp] theorem State.setQueue_stackMap (q : Nat) (x : Queue) : (s.setQueue q x).stackMap = s.stackMap := rfl
@[simp] theorem State.setQueue_tiles (q : Nat) (x : Queue) : (s.setQueue q x).tiles = s.tiles := rfl
@[simp] theorem State.setQueue_spadGen (q : Nat) (x : Queue) : (s.setQueue q x).spadGen = s.spadGen := rfl
@[simp] theorem State.setQueue_vaults (q : Nat) (x : Queue) : (s.setQueue q x).vaults = s.vaults := rfl
@[simp] theorem State.setQueue_bays (q : Nat) (x : Queue) : (s.setQueue q x).bays = s.bays := rfl
@[simp] theorem State.setQueue_disp (q : Nat) (x : Queue) : (s.setQueue q x).disp = s.disp := rfl
@[simp] theorem State.setQueue_ports (q : Nat) (x : Queue) : (s.setQueue q x).ports = s.ports := rfl
@[simp] theorem State.setQueue_grp (q : Nat) (x : Queue) : (s.setQueue q x).grp = s.grp := rfl
@[simp] theorem State.setQueue_snap (q : Nat) (x : Queue) : (s.setQueue q x).snap = s.snap := rfl
@[simp] theorem State.setQueue_safe (q : Nat) (x : Queue) : (s.setQueue q x).safe = s.safe := rfl
@[simp] theorem State.setQueue_pwr (q : Nat) (x : Queue) : (s.setQueue q x).pwr = s.pwr := rfl
@[simp] theorem State.setQueue_sec (q : Nat) (x : Queue) : (s.setQueue q x).sec = s.sec := rfl
@[simp] theorem State.setQueue_dump (q : Nat) (x : Queue) : (s.setQueue q x).dump = s.dump := rfl
@[simp] theorem State.setQueue_fw (q : Nat) (x : Queue) : (s.setQueue q x).fw = s.fw := rfl
@[simp] theorem State.setQueue_pcie (q : Nat) (x : Queue) : (s.setQueue q x).pcie = s.pcie := rfl
@[simp] theorem State.setQueue_shelf (q : Nat) (x : Queue) : (s.setQueue q x).shelf = s.shelf := rfl
@[simp] theorem State.setQueue_i3c (q : Nat) (x : Queue) : (s.setQueue q x).i3c = s.i3c := rfl
@[simp] theorem State.setQueue_flying (q : Nat) (x : Queue) : (s.setQueue q x).flying = s.flying := rfl
@[simp] theorem State.setQueue_relayed (q : Nat) (x : Queue) : (s.setQueue q x).relayed = s.relayed := rfl

/-! setPort -/
@[simp] theorem State.setPort_pending (p : Nat) (x : Port) : (s.setPort p x).pending = s.pending := rfl
@[simp] theorem State.setPort_time (p : Nat) (x : Port) : (s.setPort p x).time = s.time := rfl
@[simp] theorem State.setPort_free (p : Nat) (x : Port) : (s.setPort p x).free = s.free := rfl
@[simp] theorem State.setPort_log (p : Nat) (x : Port) : (s.setPort p x).log = s.log := rfl
@[simp] theorem State.setPort_out (p : Nat) (x : Port) : (s.setPort p x).out = s.out := rfl
@[simp] theorem State.setPort_regs (p : Nat) (x : Port) : (s.setPort p x).regs = s.regs := rfl
@[simp] theorem State.setPort_pkg (p : Nat) (x : Port) : (s.setPort p x).pkg = s.pkg := rfl
@[simp] theorem State.setPort_stow (p : Nat) (x : Port) : (s.setPort p x).stow = s.stow := rfl
@[simp] theorem State.setPort_tb (p : Nat) (x : Port) : (s.setPort p x).tb = s.tb := rfl
@[simp] theorem State.setPort_stop (p : Nat) (x : Port) : (s.setPort p x).stop = s.stop := rfl
@[simp] theorem State.setPort_hbm (p : Nat) (x : Port) : (s.setPort p x).hbm = s.hbm := rfl
@[simp] theorem State.setPort_hbmBad (p : Nat) (x : Port) : (s.setPort p x).hbmBad = s.hbmBad := rfl
@[simp] theorem State.setPort_stackMap (p : Nat) (x : Port) : (s.setPort p x).stackMap = s.stackMap := rfl
@[simp] theorem State.setPort_tiles (p : Nat) (x : Port) : (s.setPort p x).tiles = s.tiles := rfl
@[simp] theorem State.setPort_spadGen (p : Nat) (x : Port) : (s.setPort p x).spadGen = s.spadGen := rfl
@[simp] theorem State.setPort_vaults (p : Nat) (x : Port) : (s.setPort p x).vaults = s.vaults := rfl
@[simp] theorem State.setPort_bays (p : Nat) (x : Port) : (s.setPort p x).bays = s.bays := rfl
@[simp] theorem State.setPort_queues (p : Nat) (x : Port) : (s.setPort p x).queues = s.queues := rfl
@[simp] theorem State.setPort_disp (p : Nat) (x : Port) : (s.setPort p x).disp = s.disp := rfl
@[simp] theorem State.setPort_grp (p : Nat) (x : Port) : (s.setPort p x).grp = s.grp := rfl
@[simp] theorem State.setPort_snap (p : Nat) (x : Port) : (s.setPort p x).snap = s.snap := rfl
@[simp] theorem State.setPort_safe (p : Nat) (x : Port) : (s.setPort p x).safe = s.safe := rfl
@[simp] theorem State.setPort_pwr (p : Nat) (x : Port) : (s.setPort p x).pwr = s.pwr := rfl
@[simp] theorem State.setPort_sec (p : Nat) (x : Port) : (s.setPort p x).sec = s.sec := rfl
@[simp] theorem State.setPort_dump (p : Nat) (x : Port) : (s.setPort p x).dump = s.dump := rfl
@[simp] theorem State.setPort_fw (p : Nat) (x : Port) : (s.setPort p x).fw = s.fw := rfl
@[simp] theorem State.setPort_pcie (p : Nat) (x : Port) : (s.setPort p x).pcie = s.pcie := rfl
@[simp] theorem State.setPort_shelf (p : Nat) (x : Port) : (s.setPort p x).shelf = s.shelf := rfl
@[simp] theorem State.setPort_i3c (p : Nat) (x : Port) : (s.setPort p x).i3c = s.i3c := rfl
@[simp] theorem State.setPort_flying (p : Nat) (x : Port) : (s.setPort p x).flying = s.flying := rfl
@[simp] theorem State.setPort_relayed (p : Nat) (x : Port) : (s.setPort p x).relayed = s.relayed := rfl

/-! setBay -/
@[simp] theorem State.setBay_pending (b : Nat) (x : Bay) : (s.setBay b x).pending = s.pending := rfl
@[simp] theorem State.setBay_time (b : Nat) (x : Bay) : (s.setBay b x).time = s.time := rfl
@[simp] theorem State.setBay_free (b : Nat) (x : Bay) : (s.setBay b x).free = s.free := rfl
@[simp] theorem State.setBay_log (b : Nat) (x : Bay) : (s.setBay b x).log = s.log := rfl
@[simp] theorem State.setBay_out (b : Nat) (x : Bay) : (s.setBay b x).out = s.out := rfl
@[simp] theorem State.setBay_regs (b : Nat) (x : Bay) : (s.setBay b x).regs = s.regs := rfl
@[simp] theorem State.setBay_pkg (b : Nat) (x : Bay) : (s.setBay b x).pkg = s.pkg := rfl
@[simp] theorem State.setBay_stow (b : Nat) (x : Bay) : (s.setBay b x).stow = s.stow := rfl
@[simp] theorem State.setBay_tb (b : Nat) (x : Bay) : (s.setBay b x).tb = s.tb := rfl
@[simp] theorem State.setBay_stop (b : Nat) (x : Bay) : (s.setBay b x).stop = s.stop := rfl
@[simp] theorem State.setBay_hbm (b : Nat) (x : Bay) : (s.setBay b x).hbm = s.hbm := rfl
@[simp] theorem State.setBay_hbmBad (b : Nat) (x : Bay) : (s.setBay b x).hbmBad = s.hbmBad := rfl
@[simp] theorem State.setBay_stackMap (b : Nat) (x : Bay) : (s.setBay b x).stackMap = s.stackMap := rfl
@[simp] theorem State.setBay_tiles (b : Nat) (x : Bay) : (s.setBay b x).tiles = s.tiles := rfl
@[simp] theorem State.setBay_spadGen (b : Nat) (x : Bay) : (s.setBay b x).spadGen = s.spadGen := rfl
@[simp] theorem State.setBay_vaults (b : Nat) (x : Bay) : (s.setBay b x).vaults = s.vaults := rfl
@[simp] theorem State.setBay_queues (b : Nat) (x : Bay) : (s.setBay b x).queues = s.queues := rfl
@[simp] theorem State.setBay_disp (b : Nat) (x : Bay) : (s.setBay b x).disp = s.disp := rfl
@[simp] theorem State.setBay_ports (b : Nat) (x : Bay) : (s.setBay b x).ports = s.ports := rfl
@[simp] theorem State.setBay_grp (b : Nat) (x : Bay) : (s.setBay b x).grp = s.grp := rfl
@[simp] theorem State.setBay_snap (b : Nat) (x : Bay) : (s.setBay b x).snap = s.snap := rfl
@[simp] theorem State.setBay_safe (b : Nat) (x : Bay) : (s.setBay b x).safe = s.safe := rfl
@[simp] theorem State.setBay_pwr (b : Nat) (x : Bay) : (s.setBay b x).pwr = s.pwr := rfl
@[simp] theorem State.setBay_sec (b : Nat) (x : Bay) : (s.setBay b x).sec = s.sec := rfl
@[simp] theorem State.setBay_dump (b : Nat) (x : Bay) : (s.setBay b x).dump = s.dump := rfl
@[simp] theorem State.setBay_fw (b : Nat) (x : Bay) : (s.setBay b x).fw = s.fw := rfl
@[simp] theorem State.setBay_pcie (b : Nat) (x : Bay) : (s.setBay b x).pcie = s.pcie := rfl
@[simp] theorem State.setBay_shelf (b : Nat) (x : Bay) : (s.setBay b x).shelf = s.shelf := rfl
@[simp] theorem State.setBay_i3c (b : Nat) (x : Bay) : (s.setBay b x).i3c = s.i3c := rfl
@[simp] theorem State.setBay_flying (b : Nat) (x : Bay) : (s.setBay b x).flying = s.flying := rfl
@[simp] theorem State.setBay_relayed (b : Nat) (x : Bay) : (s.setBay b x).relayed = s.relayed := rfl

/-! setVault -/
@[simp] theorem State.setVault_pending (n : Nat) (x : Vault) : (s.setVault n x).pending = s.pending := rfl
@[simp] theorem State.setVault_time (n : Nat) (x : Vault) : (s.setVault n x).time = s.time := rfl
@[simp] theorem State.setVault_free (n : Nat) (x : Vault) : (s.setVault n x).free = s.free := rfl
@[simp] theorem State.setVault_log (n : Nat) (x : Vault) : (s.setVault n x).log = s.log := rfl
@[simp] theorem State.setVault_out (n : Nat) (x : Vault) : (s.setVault n x).out = s.out := rfl
@[simp] theorem State.setVault_regs (n : Nat) (x : Vault) : (s.setVault n x).regs = s.regs := rfl
@[simp] theorem State.setVault_pkg (n : Nat) (x : Vault) : (s.setVault n x).pkg = s.pkg := rfl
@[simp] theorem State.setVault_stow (n : Nat) (x : Vault) : (s.setVault n x).stow = s.stow := rfl
@[simp] theorem State.setVault_tb (n : Nat) (x : Vault) : (s.setVault n x).tb = s.tb := rfl
@[simp] theorem State.setVault_stop (n : Nat) (x : Vault) : (s.setVault n x).stop = s.stop := rfl
@[simp] theorem State.setVault_hbm (n : Nat) (x : Vault) : (s.setVault n x).hbm = s.hbm := rfl
@[simp] theorem State.setVault_hbmBad (n : Nat) (x : Vault) : (s.setVault n x).hbmBad = s.hbmBad := rfl
@[simp] theorem State.setVault_stackMap (n : Nat) (x : Vault) : (s.setVault n x).stackMap = s.stackMap := rfl
@[simp] theorem State.setVault_tiles (n : Nat) (x : Vault) : (s.setVault n x).tiles = s.tiles := rfl
@[simp] theorem State.setVault_spadGen (n : Nat) (x : Vault) : (s.setVault n x).spadGen = s.spadGen := rfl
@[simp] theorem State.setVault_bays (n : Nat) (x : Vault) : (s.setVault n x).bays = s.bays := rfl
@[simp] theorem State.setVault_queues (n : Nat) (x : Vault) : (s.setVault n x).queues = s.queues := rfl
@[simp] theorem State.setVault_disp (n : Nat) (x : Vault) : (s.setVault n x).disp = s.disp := rfl
@[simp] theorem State.setVault_ports (n : Nat) (x : Vault) : (s.setVault n x).ports = s.ports := rfl
@[simp] theorem State.setVault_grp (n : Nat) (x : Vault) : (s.setVault n x).grp = s.grp := rfl
@[simp] theorem State.setVault_snap (n : Nat) (x : Vault) : (s.setVault n x).snap = s.snap := rfl
@[simp] theorem State.setVault_safe (n : Nat) (x : Vault) : (s.setVault n x).safe = s.safe := rfl
@[simp] theorem State.setVault_pwr (n : Nat) (x : Vault) : (s.setVault n x).pwr = s.pwr := rfl
@[simp] theorem State.setVault_sec (n : Nat) (x : Vault) : (s.setVault n x).sec = s.sec := rfl
@[simp] theorem State.setVault_dump (n : Nat) (x : Vault) : (s.setVault n x).dump = s.dump := rfl
@[simp] theorem State.setVault_fw (n : Nat) (x : Vault) : (s.setVault n x).fw = s.fw := rfl
@[simp] theorem State.setVault_pcie (n : Nat) (x : Vault) : (s.setVault n x).pcie = s.pcie := rfl
@[simp] theorem State.setVault_shelf (n : Nat) (x : Vault) : (s.setVault n x).shelf = s.shelf := rfl
@[simp] theorem State.setVault_i3c (n : Nat) (x : Vault) : (s.setVault n x).i3c = s.i3c := rfl
@[simp] theorem State.setVault_flying (n : Nat) (x : Vault) : (s.setVault n x).flying = s.flying := rfl
@[simp] theorem State.setVault_relayed (n : Nat) (x : Vault) : (s.setVault n x).relayed = s.relayed := rfl

/-! setBundle -/
@[simp] theorem State.setBundle_pending (b : Nat) (x : Bundle) : (s.setBundle b x).pending = s.pending := rfl
@[simp] theorem State.setBundle_time (b : Nat) (x : Bundle) : (s.setBundle b x).time = s.time := rfl
@[simp] theorem State.setBundle_free (b : Nat) (x : Bundle) : (s.setBundle b x).free = s.free := rfl
@[simp] theorem State.setBundle_log (b : Nat) (x : Bundle) : (s.setBundle b x).log = s.log := rfl
@[simp] theorem State.setBundle_out (b : Nat) (x : Bundle) : (s.setBundle b x).out = s.out := rfl
@[simp] theorem State.setBundle_regs (b : Nat) (x : Bundle) : (s.setBundle b x).regs = s.regs := rfl
@[simp] theorem State.setBundle_stow (b : Nat) (x : Bundle) : (s.setBundle b x).stow = s.stow := rfl
@[simp] theorem State.setBundle_tb (b : Nat) (x : Bundle) : (s.setBundle b x).tb = s.tb := rfl
@[simp] theorem State.setBundle_stop (b : Nat) (x : Bundle) : (s.setBundle b x).stop = s.stop := rfl
@[simp] theorem State.setBundle_hbm (b : Nat) (x : Bundle) : (s.setBundle b x).hbm = s.hbm := rfl
@[simp] theorem State.setBundle_hbmBad (b : Nat) (x : Bundle) : (s.setBundle b x).hbmBad = s.hbmBad := rfl
@[simp] theorem State.setBundle_stackMap (b : Nat) (x : Bundle) : (s.setBundle b x).stackMap = s.stackMap := rfl
@[simp] theorem State.setBundle_tiles (b : Nat) (x : Bundle) : (s.setBundle b x).tiles = s.tiles := rfl
@[simp] theorem State.setBundle_spadGen (b : Nat) (x : Bundle) : (s.setBundle b x).spadGen = s.spadGen := rfl
@[simp] theorem State.setBundle_vaults (b : Nat) (x : Bundle) : (s.setBundle b x).vaults = s.vaults := rfl
@[simp] theorem State.setBundle_bays (b : Nat) (x : Bundle) : (s.setBundle b x).bays = s.bays := rfl
@[simp] theorem State.setBundle_queues (b : Nat) (x : Bundle) : (s.setBundle b x).queues = s.queues := rfl
@[simp] theorem State.setBundle_disp (b : Nat) (x : Bundle) : (s.setBundle b x).disp = s.disp := rfl
@[simp] theorem State.setBundle_ports (b : Nat) (x : Bundle) : (s.setBundle b x).ports = s.ports := rfl
@[simp] theorem State.setBundle_grp (b : Nat) (x : Bundle) : (s.setBundle b x).grp = s.grp := rfl
@[simp] theorem State.setBundle_snap (b : Nat) (x : Bundle) : (s.setBundle b x).snap = s.snap := rfl
@[simp] theorem State.setBundle_safe (b : Nat) (x : Bundle) : (s.setBundle b x).safe = s.safe := rfl
@[simp] theorem State.setBundle_pwr (b : Nat) (x : Bundle) : (s.setBundle b x).pwr = s.pwr := rfl
@[simp] theorem State.setBundle_sec (b : Nat) (x : Bundle) : (s.setBundle b x).sec = s.sec := rfl
@[simp] theorem State.setBundle_dump (b : Nat) (x : Bundle) : (s.setBundle b x).dump = s.dump := rfl
@[simp] theorem State.setBundle_fw (b : Nat) (x : Bundle) : (s.setBundle b x).fw = s.fw := rfl
@[simp] theorem State.setBundle_pcie (b : Nat) (x : Bundle) : (s.setBundle b x).pcie = s.pcie := rfl
@[simp] theorem State.setBundle_shelf (b : Nat) (x : Bundle) : (s.setBundle b x).shelf = s.shelf := rfl
@[simp] theorem State.setBundle_i3c (b : Nat) (x : Bundle) : (s.setBundle b x).i3c = s.i3c := rfl
@[simp] theorem State.setBundle_flying (b : Nat) (x : Bundle) : (s.setBundle b x).flying = s.flying := rfl
@[simp] theorem State.setBundle_relayed (b : Nat) (x : Bundle) : (s.setBundle b x).relayed = s.relayed := rfl

/-! What they change. -/

@[simp] theorem State.setRegs_regs (r : Regs) : (s.setRegs r).regs = r := rfl
@[simp] theorem State.wr_regs (f : Fld) (v : Nat) : (s.wr f v).regs = setFld s.regs f v := rfl
@[simp] theorem State.wrs_regs (l : List (Fld × Nat)) : (s.wrs l).regs = setFlds s.regs l := rfl
@[simp] theorem State.bump_regs (f : Fld) (n : Nat) : (s.bump f n).regs = bumpFld s.regs f n := rfl
@[simp] theorem State.logs_log (n : EvName) (a : List Nat) : (s.logs n a).log = s.log ++ [⟨n, a⟩] := rfl
@[simp] theorem State.sends_out (o : Out) : (s.sends o).out = s.out ++ [o] := rfl
@[simp] theorem State.sendAll_out (l : List Out) : (s.sendAll l).out = s.out ++ l := rfl

/-! Parts by number: a part reads as it was set, and every other part stays. -/

@[simp] theorem State.tile_setTile (t : Nat) (x : Tile) : (s.setTile t x).tile t = x := by
  simp [State.tile, State.setTile]
theorem State.tile_setTile_ne {t u : Nat} (x : Tile) (h : u ≠ t) : (s.setTile t x).tile u = s.tile u := by
  simp [State.tile, State.setTile, State.freshTile, h]
@[simp] theorem State.stack_setStack (k : Nat) (x : Stack) : (s.setStack k x).stack k = x := by
  simp [State.stack, State.setStack]
theorem State.stack_setStack_ne {k j : Nat} (x : Stack) (h : j ≠ k) : (s.setStack k x).stack j = s.stack j := by
  simp [State.stack, State.setStack, h]
@[simp] theorem State.queue_setQueue (q : Nat) (x : Queue) : (s.setQueue q x).queue q = x := by
  simp [State.queue, State.setQueue]
theorem State.queue_setQueue_ne {q j : Nat} (x : Queue) (h : j ≠ q) : (s.setQueue q x).queue j = s.queue j := by
  simp [State.queue, State.setQueue, h]
@[simp] theorem State.port_setPort (p : Nat) (x : Port) : (s.setPort p x).port p = x := by
  simp [State.port, State.setPort]
theorem State.port_setPort_ne {p j : Nat} (x : Port) (h : j ≠ p) : (s.setPort p x).port j = s.port j := by
  simp [State.port, State.setPort, h]
@[simp] theorem State.bay_setBay (b : Nat) (x : Bay) : (s.setBay b x).bay b = x := by
  simp [State.bay, State.setBay]
theorem State.bay_setBay_ne {b j : Nat} (x : Bay) (h : j ≠ b) : (s.setBay b x).bay j = s.bay j := by
  simp [State.bay, State.setBay, h]
@[simp] theorem State.vault_setVault (n : Nat) (x : Vault) : (s.setVault n x).vault n = x := by
  simp [State.vault, State.setVault]
theorem State.vault_setVault_ne {n j : Nat} (x : Vault) (h : j ≠ n) : (s.setVault n x).vault j = s.vault j := by
  simp [State.vault, State.setVault, h]
@[simp] theorem State.bundle_setBundle (b : Nat) (x : Bundle) : (s.setBundle b x).bundle b = x := by
  simp [State.bundle, State.setBundle]
theorem State.bundle_setBundle_ne {b j : Nat} (x : Bundle) (h : j ≠ b) : (s.setBundle b x).bundle j = s.bundle j := by
  simp [State.bundle, State.setBundle, h]

end Sys2Proof.Machine
end

