-- ==== Sys2Proof/Laws/Shared.lean ====
section
/-! SUPPORT. What the shared operations do, said once: the check of a request, a guarded register command, the issue of an instruction by S. -/

namespace Sys2Proof.Machine

/-- A check that permits changes nothing. -/
theorem State.check_ok {s s1 : State} {m : Master} {a n kind : Nat} {byD : Bool} {tgt : Target}
    (h : s.check m a n kind byD = (s1, .ok tgt)) : s1 = s := by
  simp only [State.check] at h
  split_ifs at h <;> simp_all

/-- A guard that lets a write through changes nothing. -/
theorem State.guard_fst {s : State} {m : Master} {off : Nat} (h : (s.guard m off).2 = true) : (s.guard m off).1 = s := by
  unfold State.guard at h ⊢
  split
  · next s1 _ he => exact State.check_ok he
  · next s1 _ hn he => simp [he] at h

/-- A register command that is let through has its effect. -/
theorem State.guarded_of_lets {s : State} {m : Master} {off : Nat} (f : State → State) (h : s.lets m off = true) :
    s.guarded m off f = f s := by
  simp only [State.lets, Bool.and_eq_true, Bool.not_eq_true'] at h
  rw [State.guarded, h.1.1]
  simp [h.1.2, h.2, State.guard_fst h.1.2]

/-- A register command that is turned away changes what its check changes: the log of refused accesses. -/
theorem State.guarded_of_not_lets {s : State} {m : Master} {off : Nat} (f : State → State) (hd : s.dark = false) (h : s.lets m off = false) :
    s.guarded m off f = (s.guard m off).1 := by
  simp only [State.lets, hd, Bool.not_false, Bool.true_and] at h
  rw [State.guarded, hd]
  simp [h]

theorem State.dark_of_lets {s : State} {m : Master} {off : Nat} (h : s.lets m off = true) : s.dark = false := by
  simp only [State.lets, Bool.and_eq_true, Bool.not_eq_true'] at h; exact h.1.1

/-- The end of an open cycle changes one tile only: TN, the cycle of the tick, the time and the device stay. -/
theorem State.sAt_tn (s : State) (i : SIssue) (op : Nat) : (s.sAt i op).tn = s.tn := by
  unfold State.sAt State.endCycle; split_ifs <;> [rfl; (split <;> rfl)]
theorem State.sAt_sinceEdge (s : State) (i : SIssue) (op : Nat) : (s.sAt i op).sinceEdge = s.sinceEdge := by
  unfold State.sAt State.endCycle; split_ifs <;> [rfl; (split <;> rfl)]
theorem State.sAt_time (s : State) (i : SIssue) (op : Nat) : (s.sAt i op).time = s.time := by
  unfold State.sAt State.endCycle; split_ifs <;> [rfl; (split <;> rfl)]

/-- The tile once S has issued, and what issuing leaves of the tile: its registers and its scratchpad. -/
theorem State.sIssued_tile (s : State) (i : SIssue) : (s.sIssued i).tile i.tile = s.issued i := by simp [State.sIssued]
theorem State.issued_gr (s : State) (i : SIssue) (n : Nat) : (s.issued i).gr n = (s.tile i.tile).gr n := rfl
theorem State.issued_index (s : State) (i : SIssue) (w : Nat) : (s.issued i).index w = (s.tile i.tile).index w := rfl
theorem State.issued_spad (s : State) (i : SIssue) : (s.issued i).spad = (s.tile i.tile).spad := rfl

/-- An instruction that S issues gets the state in which it has issued, and its PC. -/
theorem State.sRow_of_runs {s0 s : State} {i : SIssue} {op : Nat} (f : State → Nat → State) (hr : s0.sRuns i op s) :
    s0.sRow i op f = f (s.sIssued i) (s.tile i.tile).pc := by
  obtain ⟨hs, h⟩ := hr
  simp only [State.issues, Bool.and_eq_true, Bool.not_eq_true', beq_iff_eq] at h
  obtain ⟨⟨⟨⟨⟨⟨⟨⟨hf, hp⟩, hl⟩, ho⟩, hv⟩, hb⟩, hd⟩, hq⟩, he⟩ := h
  unfold State.sRow
  rw [← hs]
  split at hl
  · next l hl' =>
    rw [beq_iff_eq] at hl
    simp [hf, hp, hl', hl, ho, hv, hb, hd, hq, State.sIssued, State.issued]
  · simp at hl

/-- A fetch from the ring whose slots can be read takes them; one that cannot be read marks the queue. (Stated for any count `n`: to unfold
`fetchNext` at a count read from the registers makes Lean evaluate it.) -/
theorem State.fetchNext_of_some {s s1 : State} {q n i : Nat} {ext : Option (List Byte)} {errs : List BurstErr} {l : List Pkt}
    (h : s.fetchRing q ext errs n i 0 = (s1, some l)) : s.fetchNext q n i ext errs = (s1.takeRing q ((i + n) % 2 ^ 32) l).settle q := by
  unfold State.fetchNext; rw [h]
theorem State.fetchNext_of_none {s s1 : State} {q n i : Nat} {ext : Option (List Byte)} {errs : List BurstErr}
    (h : s.fetchRing q ext errs n i 0 = (s1, none)) : s.fetchNext q n i ext errs = s1.feCause q 0x83 := by
  unfold State.fetchNext; rw [h]

/-- `u` differs from `s` in what an error record may change alone: registers, the record ring, the log, what leaves the block, MSI-X and I3C. -/
def RecordsOnly (s u : State) : Prop :=
  ∃ regs safe log out pcie i3c, u = { s with regs := regs, safe := safe, log := log, out := out, pcie := pcie, i3c := i3c }

theorem recordsOnly_refl (s : State) : RecordsOnly s s := ⟨_, _, _, _, _, _, rfl⟩
theorem recordsOnly_regs {s u : State} (h : RecordsOnly s u) (r : Regs) : RecordsOnly s (u.setRegs r) := by
  obtain ⟨a, b, c, d, e, f, rfl⟩ := h; exact ⟨r, b, c, d, e, f, rfl⟩
theorem recordsOnly_safe {s u : State} (h : RecordsOnly s u) (r : Safe) : RecordsOnly s { u with safe := r } := by
  obtain ⟨a, b, c, d, e, f, rfl⟩ := h; exact ⟨a, r, c, d, e, f, rfl⟩
theorem recordsOnly_orderRec (s : State) (b : List Byte) : ∀ (f w q : Nat) (u : State), RecordsOnly s u → RecordsOnly s (u.orderRec b f w q) := by
  intro f
  induction f with
  | zero => intro w q u h; exact recordsOnly_regs h _
  | succ f ih =>
    intro w q u h
    unfold State.orderRec
    cases u.recAfter b w q with
    | none => exact recordsOnly_regs h _
    | some p => exact ih _ _ _ (recordsOnly_regs h _)
theorem recordsOnly_msix {s u : State} (h : RecordsOnly s u) (v : Nat) : RecordsOnly s (u.msix v) := by
  obtain ⟨a, b, c, d, e, f, rfl⟩ := h
  unfold State.msix
  split
  · exact ⟨_, _, _, _, _, _, rfl⟩
  · split <;> exact ⟨_, _, _, _, _, _, rfl⟩
theorem recordsOnly_ibi {s u : State} (h : RecordsOnly s u) (v : Nat) : RecordsOnly s (u.ibi v) := by
  obtain ⟨a, b, c, d, e, f, rfl⟩ := h
  unfold State.ibi
  split <;> exact ⟨_, _, _, _, _, _, rfl⟩
theorem recordsOnly_logs {s u : State} (h : RecordsOnly s u) (e : EvName) (l : List Nat) : RecordsOnly s (u.logs e l) := by
  obtain ⟨a, b, c, d, e, f, rfl⟩ := h; exact ⟨_, _, _, _, _, _, rfl⟩
theorem recordsOnly_placeRec {s u : State} (h : RecordsOnly s u) (r : Rec) : RecordsOnly s (u.placeRec r) := by
  have hn : ∀ v : State, RecordsOnly s v → ∀ n, RecordsOnly s (v.newestRec n) := fun v h n => recordsOnly_safe h _
  unfold State.placeRec
  simp only []
  split
  · exact recordsOnly_safe (hn _ (recordsOnly_regs (recordsOnly_orderRec _ _ _ _ _ _ (recordsOnly_safe h _)) _) _) _
  · split
    · exact recordsOnly_regs h _
    · split
      · exact recordsOnly_regs (hn _ (recordsOnly_regs (recordsOnly_orderRec _ _ _ _ _ _ (recordsOnly_safe h _)) _) _) _
      · exact hn _ (recordsOnly_regs (recordsOnly_orderRec _ _ _ _ _ _ (recordsOnly_safe h _)) _) _

/-- An error record (17 R383) changes no tile, queue, port, bay or memory. -/
theorem recordsOnly_record {s u : State} (h : RecordsOnly s u) (r : Rec) : RecordsOnly s (u.record r) := by
  have hc : RecordsOnly s (u.countRec r.sev) := by unfold State.countRec; split; exact recordsOnly_regs h _; split <;> exact recordsOnly_regs h _
  unfold State.record
  simp only []
  split
  · exact recordsOnly_regs hc _
  · have h2 := recordsOnly_logs (recordsOnly_placeRec hc r) .ERROR_RECORD [r.sev, r.cls, r.kind]
    split
    · exact h2
    · apply recordsOnly_ibi
      split
      · apply recordsOnly_regs; split
        · exact recordsOnly_msix h2 _
        · exact h2
      · split
        · exact recordsOnly_msix h2 _
        · exact h2

theorem State.record_frame (s : State) (r : Rec) : RecordsOnly s (s.record r) := recordsOnly_record (recordsOnly_refl s) r
theorem State.record_tiles (s : State) (r : Rec) : (s.record r).tiles = s.tiles := by
  obtain ⟨a, b, c, d, e, f, h⟩ := s.record_frame r; rw [h]
theorem State.record_ports (s : State) (r : Rec) : (s.record r).ports = s.ports := by
  obtain ⟨a, b, c, d, e, f, h⟩ := s.record_frame r; rw [h]
theorem State.record_queues (s : State) (r : Rec) : (s.record r).queues = s.queues := by
  obtain ⟨a, b, c, d, e, f, h⟩ := s.record_frame r; rw [h]
theorem State.record_pkg (s : State) (r : Rec) : (s.record r).pkg = s.pkg := by
  obtain ⟨a, b, c, d, e, f, h⟩ := s.record_frame r; rw [h]

end Sys2Proof.Machine
end

