-- ==== Sys2Proof/Tests/Slice0.lean ====
section
/-! SUPPORT. Tests. `test_…` checks one step, or one operation, against the spec's words; `wit_…` shows states and operands that meet the
hypotheses of an obligation's clauses, at the ends of their ranges. -/

namespace Sys2Proof.Tests

open Sys2Proof Sys2Proof.Machine

set_option Elab.async false

/-! Ill-formed commands are refused, one for each check. -/

def iReq : Req := { master := .cpc, eng := none, exec := false, src := 0, tile := 0, tag := 0, epoch := 0, addr := 0, via := none }
def iErr : List BurstErr := [{ burst := 0, syms := [(36, 1)] }]
def iStart : StartIn :=
  { domainFail := none, caps := [], bundleFail := [], hbmTrainFail := false, hbmBad := [], bistFail := [], stepUs := [],
    shelf := {} }
def iCaps : StartIn := { iStart with caps := List.replicate 11 0, trims := List.replicate 92 0 }
theorem test_errors_wf : (BurstErr.wf ⟨0, [(36, 1)], 0, 0⟩ || BurstErr.wf ⟨0, [(3, 0)], 0, 0⟩ || BurstErr.wf ⟨0, [(3, 1), (3, 2)], 0, 0⟩ ||
    BurstErr.wf ⟨0, [], 3, 0⟩) = false ∧ BurstErr.wf ⟨0, [(35, 1)], 2, 1⟩ = true := by decide
theorem test_start_wf : (iStart.wf || { iCaps with bundleFail := [376] }.wf || { iCaps with bistFail := [1280] }.wf || { iCaps with trims := [] }.wf) = false ∧
    iCaps.wf = true := by decide
theorem test_flits_wf : (Instr.wf (.bridgeFlit 0 []) || Instr.wf (.linkFlit 0 [] false)) = false := by decide
theorem test_temps_wf : (Instr.wf (.dieTempSample 8 [0, 0, 0]) || Instr.wf (.dieTempSample 7 [0, 0, 0, 0])) = false ∧
    Instr.wf (.dieTempSample 8 [0, 0, 0, 0]) = true := by decide
theorem test_oe_wf : (Instr.wf (.oeRequest false false 0 0 []) || Instr.wf (.oeRequest false false 0 257 []) || Instr.wf (.oeRequest false true 0 4 [])) = false := by decide
theorem test_starts_wf : ([.auxPowerOn iStart, .vinReturn iStart, .warmStart .cpc iStart, .coldStart .cpc iStart, .startRetry iStart, .perstRelease iStart,
    .hotReset iStart, .returnCmd .cpc iStart,
    .i3cPrivateWrite [] iStart].any Instr.wf) = false := by decide
theorem test_requests_wf : ([.write iReq [] 0 [], .write iReq [1] 0 iErr, .read iReq 4097 [], .read iReq 4 iErr,
    .readResp 0 0 0 .ok (List.replicate 257 0) false false].any Instr.wf) = false := by decide +kernel
theorem test_engines_wf : ([.mDrain 0 .ok [(128, 0)], .chainRow 0 0 0 [] false, .vaultRow 0 0 0 0 (.x40 []) .ok false, .vaultRow 0 0 0 0 (.raw []) .ok false,
    .reduce 0 3 0 0 0 0 (List.replicate 320 0) .ok false, .reduce 0 0 4 0 0 0 (List.replicate 320 0) .ok false,
    .reduce 0 0 0 0 0 64 (List.replicate 320 0) .ok false, .reduce 0 0 0 0 0 0 [] .ok false].any Instr.wf) = false := by decide +kernel
/-- A word of another row's opcode is refused by every row of S. -/
theorem test_s_wf : (sOpcodes.any (fun op => SIssue.has ⟨0, BitVec.ofNat 32 (if op = 1 then 2 else 1), false, .ok, false⟩ op)) = false ∧
    SIssue.has ⟨0, 0, false, .ok, false⟩ 1 = true ∧ Instr.wf (.halt ⟨0, 1, false, .ok, false⟩) = false := by decide +kernel
theorem test_memory_wf : ([.hbmScrub 0 0 iErr, .fwStage .cpc iErr, .copyUnitDone 0 none iErr, .ringFetch 0 none iErr, .fenceWait 0 none iErr,
    .fencePoll 0 none iErr, .dumpCopyDone true iErr, .stowCopyComplete [] none iErr, .snapRelease [[], iErr] true, .selftestDone (.tile 0) true [4],
    .selftestDone (.tile 0) true [0x300000], .selftestDone (.tile 0) true [] (some 4), .selftestDone (.station 0) true [] (some 0), .selftestDone (.station 0) true [0]].any Instr.wf) = false := by decide +kernel
theorem test_host_wf : ([.hostMemWrite 0 [] false [], .hostMemWrite 0 [1] false iErr, .hostMemRead 0 0 false [], .hostMemRead 0 1 false iErr,
    .shelfInboundRequest true 0 0 [] [], .shelfInboundRequest true 0 2 [1] [], .shelfInboundRequest false 0 1 [] iErr].any Instr.wf) = false := by decide +kernel
theorem test_security_wf : ([.challenge 0 [], .getMeasurements 0 [], .relay 0 0 0 0 0 0 []].any Instr.wf) = false := by decide

/-! The whole block. -/

/-- A device with both supplies, ON, that holds an image: device 1 of a group of two, bay 0 with tiles 5 and 6, one HBM region. -/
def wImage : Image :=
  { deviceId := 1, bays := [⟨0, 0, [5, 6]⟩], spadBase := 0x10000000000, loftBase := 0x20000000000, loftSize := 4096,
    regions := [⟨0, 0x1000000, 16, 0, 0, 0⟩], members := [1, 2], ports := [(3, 2)] }
def wOn (l : List (Fld × Nat) := []) : State :=
  { (State.reset.wrs ((F.PWR_STATUS_state, 1) :: l)) with pwr := { aux := true, v48 := true, off := false }, stow := { inForce := some wImage } }

theorem test_step_idle : (after State.reset (step State.reset)).time = 1 := by decide +kernel
theorem test_step_front : (after State.reset (step { State.reset with pending := [.enec, .disec] })).pending = [.disec] := by decide +kernel
theorem wit_memories : State.reset.memsWf = true ∧ (wOn []).memsWf = true := by decide +kernel
theorem wit_scratchpad : ((wOn []).tile 5).spad.wf = true ∧ Mem.wf ⟨[(3, 1), (3145727, 9)], none⟩ = true := by decide +kernel
theorem test_memory_form : Mem.wf ⟨[(3, 1), (3, 2)], none⟩ = false ∧ Mem.wf ⟨[(3, 0)], none⟩ = false := by decide +kernel
theorem wit_tiles : (wImage.row 7 9).absent = false ∧ wImage.site 1199 = 7 * 160 + 9 * 16 + 14 := by decide +kernel
theorem wit_binary16 : (0x3C00#16).toNat / 1024 % 32 < 31 ∧ (0x7BFF#16).toNat / 1024 % 32 ≤ 30 ∧
    ((0x7C01#16).toNat / 1024 % 32 = 31 ∧ (0x7C01#16).toNat % 1024 ≠ 0) ∧ (0x7C00#16).toNat / 1024 % 32 = 31 := by decide +kernel

/-! S. Words are laid out field by field from 08 R167: op [6:0], rd [11:7], ra [16:12], rb [21:17], fn [31:22]. -/

/-- A tile RUNNING at PC 0 whose instruction cache holds one line beginning with `w`; g2 and g3 hold 7 and 5. -/
def sTile (w : Nat) : Tile :=
  { ({ regs := [] } : Tile).wr F.TILE_S_STATUS_state 1 with
    icache := [⟨0, leBytes 4 w ++ List.replicate 60 0⟩], g := [(2, 7), (3, 5)] }
/-- Tile 5 so, on a device that holds an image with bay 0. -/
def sSt (w : Nat) (f : Tile → Tile := id) : State :=
  { State.reset with
    tiles := [(5, f (sTile w))]
    stow := { inForce := some { bays := [⟨0, 0, [5, 6]⟩], spadBase := 0x10000000000 } } }
/-- The instruction of tile 5. -/
def sI (w : Nat) : SIssue := ⟨5, BitVec.ofNat 32 w, false, .ok, false⟩
/-- S of tile 5 issues the word in row `op`: `sRuns` holds of the machine as it then stands. -/
def runs (s : State) (i : SIssue) (op : Nat) : Bool := (s.sAt i op).issues i op
theorem sRuns_of_runs {s : State} {i : SIssue} {op : Nat} (h : runs s i op = true) : s.sRuns i op (s.sAt i op) := ⟨rfl, h⟩
/-- Format R: op, rd, ra, rb, fn. -/
def wR (op rd ra rb fn : Nat) : Nat := op + 2 ^ 7 * rd + 2 ^ 12 * ra + 2 ^ 17 * rb + 2 ^ 22 * fn
/-- Formats I and B: op, rd, ra, the 15-bit immediate. -/
def wI (op rd ra imm : Nat) : Nat := op + 2 ^ 7 * rd + 2 ^ 12 * ra + 2 ^ 17 * imm
/-- Format Y: op, counter, ra, rb. -/
def wY (op ctr ra rb : Nat) : Nat := op + 2 ^ 7 * ctr + 2 ^ 15 * ra + 2 ^ 20 * rb
/-- Tile 5 after a meaning. -/
def t5 (r : Res) : Tile := (after State.reset r).tile 5

theorem test_alu_sub : runs (sSt (wR 1 4 2 3 1)) (sI (wR 1 4 2 3 1)) 1 = true ∧ (t5 (exec (.alu (sI (wR 1 4 2 3 1))) (sSt (wR 1 4 2 3 1)))).gr 4 = 2 := by decide +kernel
theorem test_addi : runs (sSt (wI 2 4 2 0x7FFF)) (sI (wI 2 4 2 0x7FFF)) 2 = true ∧ (t5 (exec (.addi (sI (wI 2 4 2 0x7FFF))) (sSt (wI 2 4 2 0x7FFF)))).gr 4 = 6 := by decide +kernel
theorem test_andi : runs (sSt (wI 3 4 2 3)) (sI (wI 3 4 2 3)) 3 = true ∧ (t5 (exec (.andi (sI (wI 3 4 2 3))) (sSt (wI 3 4 2 3)))).gr 4 = 3 := by decide +kernel
theorem test_ori : runs (sSt (wI 4 4 2 8)) (sI (wI 4 4 2 8)) 4 = true ∧ (t5 (exec (.ori (sI (wI 4 4 2 8))) (sSt (wI 4 4 2 8)))).gr 4 = 15 := by decide +kernel
theorem test_xori : runs (sSt (wI 5 4 2 2)) (sI (wI 5 4 2 2)) 5 = true ∧ (t5 (exec (.xori (sI (wI 5 4 2 2))) (sSt (wI 5 4 2 2)))).gr 4 = 5 := by decide +kernel
theorem test_shi : runs (sSt (wI 6 4 2 1)) (sI (wI 6 4 2 1)) 6 = true ∧ (t5 (exec (.shi (sI (wI 6 4 2 1))) (sSt (wI 6 4 2 1)))).gr 4 = 14 := by decide +kernel
theorem test_lui : (t5 (exec (.lui (sI (7 + 2 ^ 7 * 4 + 2 ^ 12))) (sSt (7 + 2 ^ 7 * 4 + 2 ^ 12)))).gr 4 = 4096 := by decide +kernel
theorem wit_lui : runs (sSt (7 + 2 ^ 7 * 4 + 2 ^ 12)) (sI (7 + 2 ^ 7 * 4 + 2 ^ 12)) 7 = true := by decide +kernel
theorem wit_setG : KMap.wf (sTile 0).g = true := by decide +kernel
theorem test_beq : runs (sSt (wI 0x11 2 2 4)) (sI (wI 0x11 2 2 4)) 0x11 = true ∧ (t5 (exec (.beq (sI (wI 0x11 2 2 4))) (sSt (wI 0x11 2 2 4)))).pc = 16 := by decide +kernel
theorem test_bne : runs (sSt (wI 0x12 2 2 4)) (sI (wI 0x12 2 2 4)) 0x12 = true ∧ (t5 (exec (.bne (sI (wI 0x12 2 2 4))) (sSt (wI 0x12 2 2 4)))).pc = 4 := by decide +kernel
theorem test_blt : runs (sSt (wI 0x13 3 2 4)) (sI (wI 0x13 3 2 4)) 0x13 = true ∧ (t5 (exec (.blt (sI (wI 0x13 3 2 4))) (sSt (wI 0x13 3 2 4)))).pc = 16 := by decide +kernel
theorem test_bge : runs (sSt (wI 0x14 3 2 4)) (sI (wI 0x14 3 2 4)) 0x14 = true ∧ (t5 (exec (.bge (sI (wI 0x14 3 2 4))) (sSt (wI 0x14 3 2 4)))).pc = 4 := by decide +kernel
theorem test_bltu : runs (sSt (wI 0x15 3 2 4)) (sI (wI 0x15 3 2 4)) 0x15 = true ∧ (t5 (exec (.bltu (sI (wI 0x15 3 2 4))) (sSt (wI 0x15 3 2 4)))).pc = 16 := by decide +kernel
theorem test_bgeu : runs (sSt (wI 0x16 2 3 4)) (sI (wI 0x16 2 3 4)) 0x16 = true ∧ (t5 (exec (.bgeu (sI (wI 0x16 2 3 4))) (sSt (wI 0x16 2 3 4)))).pc = 16 := by decide +kernel
theorem test_jal : runs (sSt (0x17 + 2 ^ 7 * 1 + 2 ^ 12 * 8)) (sI (0x17 + 2 ^ 7 * 1 + 2 ^ 12 * 8)) 0x17 = true ∧
    (t5 (exec (.jal (sI (0x17 + 2 ^ 7 * 1 + 2 ^ 12 * 8))) (sSt (0x17 + 2 ^ 7 * 1 + 2 ^ 12 * 8)))).pc = 32 := by decide +kernel
theorem test_jalr : runs (sSt (wI 0x18 1 2 10)) (sI (wI 0x18 1 2 10)) 0x18 = true ∧ (t5 (exec (.jalr (sI (wI 0x18 1 2 10))) (sSt (wI 0x18 1 2 10)))).pc = 16 := by decide +kernel
theorem test_ldW : runs (sSt (wI 8 4 0 0)) (sI (wI 8 4 0 0)) 8 = true ∧
    (t5 (exec (.ldW (sI (wI 8 4 0 0))) (sSt (wI 8 4 0 0) (fun x => { x with spad := ⟨[(0, 9)], none⟩ })))).gr 4 = 9 := by decide +kernel
theorem test_ldW_misaligned : ((sTile 0).index (wI 8 4 2 0)) % 4 ≠ 0 ∧ (t5 (exec (.ldW (sI (wI 8 4 2 0))) (sSt (wI 8 4 2 0)))).rd F.TILE_S_ABORT_cause = 2 := by decide +kernel
theorem test_stW : runs (sSt (wI 9 2 0 4)) (sI (wI 9 2 0 4)) 9 = true ∧ (t5 (exec (.stW (sI (wI 9 2 0 4))) (sSt (wI 9 2 0 4)))).spad.get 4 = 7 := by decide +kernel
theorem test_stW_high : spadSize < (sTile 0).index (wI 9 3 2 0x3FFD) + 4 ∨ (sTile 0).index (wI 9 3 2 0x3FFD) % 4 = 0 := by decide +kernel
/-- g2, g3 as an address whose low word is 8. -/
def gAl (x : Tile) : Tile := { x with g := [(2, 8), (3, 5)] }
theorem test_ldG : runs (sSt (wI 0x0A 4 2 0) gAl) (sI (wI 0x0A 4 2 0)) 0x0A = true ∧
    (t5 (exec (.ldG (sI (wI 0x0A 4 2 0))) (sSt (wI 0x0A 4 2 0) gAl))).loads.length = 1 := by decide +kernel
theorem test_ldGc : runs (sSt (wI 0x0B 4 2 0) gAl) (sI (wI 0x0B 4 2 0)) 0x0B = true ∧
    (t5 (exec (.ldGc (sI (wI 0x0B 4 2 0))) (sSt (wI 0x0B 4 2 0) gAl))).loads.map (·.kind) = [1] := by decide +kernel
theorem test_ldGc_hit : (t5 (exec (.ldGc (sI (wI 0x0B 4 2 0)))
    (sSt (wI 0x0B 4 2 0) (fun x => { gAl x with dcache := [⟨0x500000000, List.replicate 64 1⟩] })))).gr 4 = 0x01010101 := by decide +kernel
theorem test_stG : runs (sSt (0x0C + 2 ^ 7 * 3 + 2 ^ 12 * 2 + 2 ^ 17 * 9) gAl) (sI (0x0C + 2 ^ 7 * 3 + 2 ^ 12 * 2 + 2 ^ 17 * 9)) 0x0C = true ∧
    (t5 (exec (.stG (sI (0x0C + 2 ^ 7 * 3 + 2 ^ 12 * 2 + 2 ^ 17 * 9))) (sSt (0x0C + 2 ^ 7 * 3 + 2 ^ 12 * 2 + 2 ^ 17 * 9) gAl))).rd F.TILE_MM_ISSUED_bytes = 4 := by decide +kernel
theorem test_regR : runs (sSt (wI 0x0D 4 0 0x1208)) (sI (wI 0x0D 4 0 0x1208)) 0x0D = true ∧ regOk 0x1208 4 = true ∧
    (t5 (exec (.regR (sI (wI 0x0D 4 0 0x1208))) (sSt (wI 0x0D 4 0 0x1208)))).gr 4 = 4 := by decide +kernel
theorem test_regR_bad : regOk 0x1201 4 = false ∧ (t5 (exec (.regR (sI (wI 0x0D 4 0 0x1201))) (sSt (wI 0x0D 4 0 0x1201)))).rd F.TILE_S_ABORT_cause = 3 := by decide +kernel
theorem test_regW : runs (sSt (wI 0x0E 2 0 0x1110)) (sI (wI 0x0E 2 0 0x1110)) 0x0E = true ∧ regOk 0x1110 4 = true := by decide +kernel
theorem test_regR64 : runs (sSt (wI 0x0F 4 0 0x1208)) (sI (wI 0x0F 4 0 0x1208)) 0x0F = true ∧ regOk 0x1208 8 = true := by decide +kernel
theorem test_regW64 : runs (sSt (wI 0x10 2 0 0x1110)) (sI (wI 0x10 2 0 0x1110)) 0x10 = true ∧
    (t5 (exec (.regW64 (sI (wI 0x10 2 0 0x1110))) (sSt (wI 0x10 2 0 0x1110)))).rd F.TILE_V_STEP_step = 0x500000007 := by decide +kernel
theorem test_cw : runs (sSt (0x20 + 2 ^ 11 * 2 + 2 ^ 15 * 2)) (sI (0x20 + 2 ^ 11 * 2 + 2 ^ 15 * 2)) 0x20 = true ∧
    (t5 (exec (.cw (sI (0x20 + 2 ^ 11 * 2 + 2 ^ 15 * 2))) (sSt (0x20 + 2 ^ 11 * 2 + 2 ^ 15 * 2)))).stage = [(2, 7)] := by decide +kernel
theorem test_enq : runs (sSt (0x21 + 2 ^ 7)) (sI (0x21 + 2 ^ 7)) 0x21 = true ∧
    ((t5 (exec (.enq (sI (0x21 + 2 ^ 7))) (sSt (0x21 + 2 ^ 7)))).vq.map (·.rel)) = [true] := by decide +kernel
theorem test_enqs : runs (sSt (0x22 + 2 ^ 8)) (sI (0x22 + 2 ^ 8)) 0x22 = true ∧ ((t5 (exec (.enqs (sI (0x22 + 2 ^ 8))) (sSt (0x22 + 2 ^ 8)))).dq.length) = 1 := by decide +kernel
theorem test_signal : runs (sSt (wY 0x28 9 2 0)) (sI (wY 0x28 9 2 0)) 0x28 = true ∧ (t5 (exec (.signal (sI (wY 0x28 9 2 0))) (sSt (wY 0x28 9 2 0)))).ctr 9 = 7 := by decide +kernel
theorem test_signalR : runs (sSt (wY 0x29 9 3 2)) (sI (wY 0x29 9 3 2)) 0x29 = true ∧
    (t5 (exec (.signalR (sI (wY 0x29 9 3 2))) (sSt (wY 0x29 9 3 2)))).stores.map (·.signal) = [true] := by decide +kernel
theorem test_wait : runs (sSt (wY 0x2A 9 2 0)) (sI (wY 0x2A 9 2 0)) 0x2A = true ∧ (t5 (exec (.wait (sI (wY 0x2A 9 2 0))) (sSt (wY 0x2A 9 2 0)))).rd F.TILE_S_STATUS_stall = 2 := by decide +kernel
theorem test_waitAcq : runs (sSt (wY 0x2B 9 0 0)) (sI (wY 0x2B 9 0 0)) 0x2B = true ∧ (t5 (exec (.waitAcq (sI (wY 0x2B 9 0 0))) (sSt (wY 0x2B 9 0 0)))).pc = 4 := by decide +kernel
theorem test_take_stalls : runs (sSt (wY 0x2C 9 2 0)) (sI (wY 0x2C 9 2 0)) 0x2C = true ∧ (t5 (exec (.take (sI (wY 0x2C 9 2 0))) (sSt (wY 0x2C 9 2 0)))).rd F.TILE_S_STATUS_stall = 2 := by decide +kernel
theorem test_take : (t5 (exec (.take (sI (wY 0x2C 9 3 0))) (sSt (wY 0x2C 9 3 0) (fun x => x.setCtr 0 9 8)))).ctr 9 = 3 := by decide +kernel
theorem test_take_big : (t5 (exec (.take (sI (wY 0x2C 9 2 0))) (sSt (wY 0x2C 9 2 0) (fun x => { x with g := [(2, 0x80000000)] })))).rd F.TILE_S_ABORT_cause = 1 := by decide +kernel
theorem test_set : runs (sSt (wY 0x2D 9 2 0)) (sI (wY 0x2D 9 2 0)) 0x2D = true ∧ (t5 (exec (.set (sI (wY 0x2D 9 2 0))) (sSt (wY 0x2D 9 2 0)))).ctr 9 = 7 := by decide +kernel
theorem test_lwait : runs (sSt (wY 0x2E 9 2 0)) (sI (wY 0x2E 9 2 0)) 0x2E = true ∧ (t5 (exec (.lwait (sI (wY 0x2E 9 2 0))) (sSt (wY 0x2E 9 2 0)))).rd F.TILE_S_STATUS_stall = 3 := by decide +kernel
theorem test_lwaitAcq : runs (sSt (wY 0x2F 9 0 0)) (sI (wY 0x2F 9 0 0)) 0x2F = true := by decide +kernel
theorem test_fenceLocal : runs (sSt 0x30) (sI 0x30) 0x30 = true ∧ (t5 (exec (.fenceLocal (sI 0x30)) (sSt 0x30))).swait = .none := by decide +kernel
theorem test_fenceRemote : runs (sSt 0x31) (sI 0x31) 0x31 = true ∧ (t5 (exec (.fenceRemote (sI 0x31)) (sSt 0x31))).swait = .none := by decide +kernel
theorem test_cinv : runs (sSt 0x32) (sI 0x32) 0x32 = true ∧ runs (sSt 0x33) (sI 0x33) 0x33 = true ∧ (t5 (exec (.cinvAll (sI 0x33)) (sSt 0x33))).icache = [] := by decide +kernel
theorem test_time : runs (sSt (0x38 + 2 ^ 7 * 4)) (sI (0x38 + 2 ^ 7 * 4)) 0x38 = true := by decide +kernel
theorem test_evt : runs (sSt (0x39 + 2 ^ 12 * 6)) (sI (0x39 + 2 ^ 12 * 6)) 0x39 = true ∧
    rget (t5 (exec (.evt (sI (0x39 + 2 ^ 12 * 6))) (sSt (0x39 + 2 ^ 12 * 6)))).regs 0x6008 = 0x60006 := by decide +kernel
theorem test_trap : runs (sSt (0x3A + 2 ^ 12 * 6)) (sI (0x3A + 2 ^ 12 * 6)) 0x3A = true ∧
    (t5 (exec (.trap (sI (0x3A + 2 ^ 12 * 6))) (sSt (0x3A + 2 ^ 12 * 6)))).rd F.TILE_S_ABORT_INFO_trap_code = 6 := by decide +kernel
theorem test_halt : runs (sSt 0x3F) (sI 0x3F) 0x3F = true ∧ (t5 (exec (.halt (sI 0x3F)) (sSt 0x3F))).state = 2 := by decide +kernel
theorem wit_fences : (sTile 0).accessesDone = true ∧ (sTile 0).idleEngines = true ∧ ({ sTile 0 with swait := .fenceLocal } : Tile).swait = .fenceLocal ∧
    ({ sTile 0 with swait := .fenceRemote 0 0 } : Tile).fails = [] ∧ ({ sTile 0 with swait := .fenceRemote 0 8, fails := [7] } : Tile).fails = [7] := by decide +kernel
/-- A store of S to the location of the load is outstanding. -/
def gSt (x : Tile) : Tile := { gAl x with stores := [⟨3, 2, 0, 0x500000008, 0xFF, 4, 0, false, false, false, [], []⟩], nextTag := 4 }
theorem wit_load_waits : runs (sSt (wI 0x0A 4 2 0) gSt) (sI (wI 0x0A 4 2 0)) 0x0A = true ∧ (gSt (sTile 0)).loadsFull = false ∧
    (gSt (sTile 0)).storesAt 0 0x500000008 = [3] ∧ (gSt (sTile 0)).storesAt 1 0x500000000 = [3] ∧
    runs (sSt (wI 0x0B 4 2 0) gSt) (sI (wI 0x0B 4 2 0)) 0x0B = true ∧
    (t5 (exec (.ldG (sI (wI 0x0A 4 2 0))) (sSt (wI 0x0A 4 2 0) gSt))).loads.map (·.wait) = [[3]] := by decide +kernel

/-! The engines: tile 5 with one command at the head of a queue. -/

/-- A command's 64 bytes from fields (offset, bytes, value). -/
def cBytes (l : List (Nat × Nat × Nat)) : List Byte :=
  l.foldl (fun b f => b.take f.1 ++ leBytes f.2.1 f.2.2 ++ b.drop (f.1 + f.2.1)) (List.replicate 64 0)
def cmdOf (l : List (Nat × Nat × Nat)) : Cmd := { bytes := cBytes l, rel := true, pc := 8 }
/-- Tile 5 RUNNING with the command at engine `e`'s queue. -/
def eSt (e : Nat) (l : List (Nat × Nat × Nat)) (f : Tile → Tile := id) : State :=
  let s := wOn
  s.setTile 5 (f ((({ regs := [] } : Tile).wr F.TILE_S_STATUS_state 1).setQ e [cmdOf l]))
/-- Its array clocked and seeded. -/
def mOn (x : Tile) : Tile := x.wrs [(F.TILE_M_STATUS_array_on, 1), (F.TILE_M_STATUS_seeded, 1)]
/-- An M.MMA of one step. -/
def wMma : List (Nat × Nat × Nat) := [(0, 1, 3), (18, 2, 2), (20, 2, 2), (22, 2, 2), (24, 2, 1)]
def wDrain : List (Nat × Nat × Nat) := [(0, 1, 4), (17, 1, 0), (20, 1, 0), (32, 8, 0)]

/-- With no cycle of the counters open, the end of one changes nothing: the state and the one after `endCycle` are the same. -/
theorem endCycle_closed (s : State) (t : Nat) (h : (s.tile t).opened = none) : s.endCycle t = s := by simp [State.endCycle, h]
theorem wit_closed : ((eSt 0 wMma mOn).tile 5).opened = none ∧ ((eSt 0 wDrain mOn).tile 5).opened = none ∧ ((eSt 1 []).tile 5).opened = none ∧
    ((eSt 3 []).tile 5).opened = none := by decide +kernel
theorem wit_mNop : (eSt 0 []).headReady 5 0 = some (cmdOf []) ∧ (eSt 0 []).mCheck 5 (cmdOf []) = 0 ∧
    ((t5 (exec (.mNop 5) (eSt 0 []))).mRun.length = 1) := by decide +kernel
theorem wit_mCfg : let l := [(0, 1, 1), (16, 1, 2)]
    (eSt 0 l).headReady 5 0 = some (cmdOf l) ∧ (eSt 0 l).mCheck 5 (cmdOf l) = 0 ∧ (cmdOf l).op = 1 ∧
    (t5 (exec (.mCfg 5) (eSt 0 l mOn))).rd F.TILE_M_STATUS_mode = 2 ∧ (t5 (exec (.mCfg 5) (eSt 0 l mOn))).rd F.TILE_M_STATUS_seeded = 0 := by decide +kernel
theorem wit_mSeed : let l := [(0, 1, 2)]
    (eSt 0 l).headReady 5 0 = some (cmdOf l) ∧ (eSt 0 l).mCheck 5 (cmdOf l) = 0 ∧ (cmdOf l).op = 2 ∧ (cmdOf l).f1 16 = 0 ∧
    (t5 (exec (.mSeed 5 .ok) (eSt 0 l))).rd F.TILE_M_STATUS_seeded = 1 := by decide +kernel
theorem wit_mSeed_block : let l := [(0, 1, 2), (16, 1, 1), (17, 1, 2), (20, 2, 2)]
    (eSt 0 l).headReady 5 0 = some (cmdOf l) ∧ (eSt 0 l).mCheck 5 (cmdOf l) = 0 ∧ (cmdOf l).op = 2 ∧ (cmdOf l).f1 16 ≠ 0 := by decide +kernel
theorem wit_mMma : (eSt 0 wMma mOn).headReady 5 0 = some (cmdOf wMma) ∧ (eSt 0 wMma mOn).mCheck 5 (cmdOf wMma) = 0 ∧ (cmdOf wMma).op = 3 ∧
    ((eSt 0 wMma mOn).tile 5).rd F.TILE_M_STATUS_array_on = 1 := by decide +kernel
theorem wit_mDrain : (eSt 0 wDrain mOn).headReady 5 0 = some (cmdOf wDrain) ∧ (eSt 0 wDrain mOn).mCheck 5 (cmdOf wDrain) = 0 ∧
    (cmdOf wDrain).op = 4 ∧ ((eSt 0 wDrain mOn).tile 5).drain = none := by decide +kernel
theorem wit_m_faults : (eSt 0 wMma).mCheck 5 (cmdOf wMma) = 4 ∧ (eSt 0 [(16, 1, 1)]).mCheck 5 (cmdOf [(16, 1, 1)]) = 1 ∧
    (eSt 0 [(0, 1, 1), (16, 1, 3)]).mCheck 5 (cmdOf [(0, 1, 1), (16, 1, 3)]) = 2 ∧
    (eSt 0 [(0, 1, 2), (16, 1, 2)]).mCheck 5 (cmdOf [(0, 1, 2), (16, 1, 2)]) = 2 ∧
    (eSt 0 wDrain).mCheck 5 (cmdOf wDrain) = 4 ∧ (eSt 0 [(0, 1, 5)]).headReady 5 0 = some (cmdOf [(0, 1, 5)]) := by decide +kernel
/-- 06 R114: 2 × 3 + 4 × 5 on an accumulator of 1 is 27, in H16. -/
theorem test_cell : (Fmt.h16.rne (cellRun 0 (Val.decode .h16 0x3C00) [(Val.decode .h16 0x4000, Val.decode .h16 0x4200, 0),
    (Val.decode .h16 0x4400, Val.decode .h16 0x4500, 0)]).val).val = 0x4EC0 := by decide +kernel
theorem wit_gate : (((eSt 0 wMma).tile 5).mRun.any (fun c => c.op == 3)) = false := by decide +kernel
/-- Die 0 with no grant free. -/
def noGrant (s : State) : State := { s with pwr := { s.pwr with grants := [(0, 0)], grantAt := [(0, s.time)] } }
def seeded (x : Tile) : Tile := x.wr F.TILE_M_STATUS_seeded 1
theorem wit_gated : (noGrant (eSt 0 wMma seeded)).headReady 5 0 = some (cmdOf wMma) ∧ (noGrant (eSt 0 wMma seeded)).mCheck 5 (cmdOf wMma) = 0 ∧
    ((noGrant (eSt 0 wMma seeded)).tile 5).rd F.TILE_M_STATUS_array_on ≠ 1 ∧ (noGrant (eSt 0 wMma seeded)).grantsFree (5 / 150) = 0 := by decide +kernel
theorem wit_grant : let s := (eSt 0 wMma seeded).setWaiters 0 [(0, 5)]
    s.waiters 0 = [(0, 5)] ∧ (∀ e ∈ ([] : List (Nat × Nat)), e.1 ≠ 2) ∧ 0 < s.grantsFree 0 ∧
    (t5 (exec (.powerGrant 0) s)).rd F.TILE_M_STATUS_array_on = 1 := by decide +kernel
theorem wit_complete : let x := ((eSt 0 [] (fun x => { x with mRun := [cmdOf []], vRun := [cmdOf []], dRun := [⟨0, cmdOf [], [], 0, 0, [], [], none, 0, false, none, [], .ok⟩] })).tile 5)
    x.live = true ∧ x.mRun = [cmdOf []] ∧ x.drain.map (·.cmd) ≠ some (cmdOf []) ∧ x.vRun = [cmdOf []] ∧ (x.dRun.find? (fun d => x.dDone d)).isSome = true := by decide +kernel
theorem test_complete_signal : let c := cmdOf [(1, 1, 1), (2, 1, 9), (4, 2, 3)]
    (t5 (exec (.engineCommandComplete 5 .m) (eSt 0 [] (fun x => { x with mRun := [c] })))).ctr 9 = 3 := by decide +kernel

/-- A V.RUN of one iteration of one word that adds register 1 to itself into register 2, H16. -/
def wVrun : List (Nat × Nat × Nat) := [(0, 1, 1), (16, 2, 1), (18, 1, 1), (32, 8, 0x10 + 2 ^ 8 * 2 + 2 ^ 14 * 1 + 2 ^ 20 * 1 + 2 ^ 32 * 2)]
def wVmv : List (Nat × Nat × Nat) := [(0, 1, 2), (18, 2, 2), (20, 2, 1), (22, 1, 1), (23, 1, 4)]
theorem wit_vNop : (eSt 1 []).headReady 5 1 = some (cmdOf []) ∧ (vCheck (cmdOf [])).1 = 0 := by decide +kernel
theorem wit_vRun : (eSt 1 wVrun).headReady 5 1 = some (cmdOf wVrun) ∧ (vCheck (cmdOf wVrun)).1 = 0 ∧ (cmdOf wVrun).op = 1 := by decide +kernel
theorem wit_vRun_stop : (VRun.iters { st := (eSt 1 wVrun).vBegin 5 (cmdOf wVrun), ecc := .ok } 5 (cmdOf wVrun).words ⟨0, 0, 0, 0⟩ 8 1 0).stop = none := by decide +kernel
theorem wit_vMv : (eSt 1 wVmv).headReady 5 1 = some (cmdOf wVmv) ∧ (vCheck (cmdOf wVmv)).1 = 0 ∧ (cmdOf wVmv).op = 2 := by decide +kernel
theorem wit_v_faults : (vCheck (cmdOf [(16, 1, 1)])).1 = 1 ∧ (vCheck (cmdOf [(0, 1, 1)])).1 = 2 ∧ (vCheck (cmdOf [(0, 1, 2)])).1 = 2 ∧
    (vCheck (cmdOf (wVmv ++ [(16, 2, 0xC000)]))).1 = 3 := by decide +kernel
theorem wit_probe : wOn.lets .cpc (tileOff 5 0x1118) = true := by decide +kernel

/-- A D.COPY of 64 bytes in the scratchpad. -/
def wCopy (flags slot : Nat) : List (Nat × Nat × Nat) :=
  [(0, 1, 1), (16, 8, 0), (24, 8, 128), (32, 3, 64), (36, 2, 1), (38, 2, 1), (56, 1, flags), (58, 1, slot)]
def dArmed (x : Tile) : Tile := { x with streams := [(0, cBytes (wCopy 0 0))] }
theorem wit_dCopy : (eSt 3 (wCopy 0 0)).headReady 5 3 = some (cmdOf (wCopy 0 0)) ∧ ((eSt 3 (wCopy 0 0)).tile 5).dCheck (cmdOf (wCopy 0 0)) = none ∧
    (cmdOf (wCopy 0 0)).op = 1 ∧ dKeep (cmdOf (wCopy 0 0)).bytes = false ∧ ((eSt 3 (wCopy 0 0)).tile 5).dRun.length < 8 := by decide +kernel
theorem wit_dCopy_keep : ((eSt 3 (wCopy 8 15)).tile 5).dCheck (cmdOf (wCopy 8 15)) = none ∧ dKeep (cmdOf (wCopy 8 15)).bytes = true := by decide +kernel
theorem wit_dRun : let l := [(0, 1, 2), (24, 8, 256)]
    (eSt 3 l dArmed).headReady 5 3 = some (cmdOf l) ∧ ((eSt 3 l dArmed).tile 5).dCheck (cmdOf l) = none ∧ (((eSt 3 l dArmed).tile 5).dPattern (cmdOf l)).isSome = true := by decide +kernel
theorem wit_dDrop : let l := [(0, 1, 3)]
    (eSt 3 l dArmed).headReady 5 3 = some (cmdOf l) ∧ ((eSt 3 l dArmed).tile 5).dCheck (cmdOf l) = none ∧ (cmdOf l).op = 3 ∧
    (t5 (exec (.dDrop 5) (eSt 3 l dArmed))).streams = [] := by decide +kernel
theorem wit_dNop : ((eSt 3 []).tile 5).dCheck (cmdOf []) = none ∧ (eSt 3 []).headReady 5 3 = some (cmdOf []) := by decide +kernel
theorem wit_d_faults : ((eSt 3 []).tile 5).dCheck (cmdOf [(16, 1, 1)]) = some (1, none) ∧ ((eSt 3 []).tile 5).dCheck (cmdOf [(0, 1, 1)]) = some (2, none) ∧
    ((eSt 3 []).tile 5).dCheck (cmdOf [(0, 1, 2)]) = some (9, none) ∧ ((eSt 3 []).tile 5).dCheck (cmdOf [(0, 1, 3), (58, 1, 16)]) = some (2, none) := by decide +kernel
theorem wit_row : dRow (cBytes (wCopy 0 0)) ≠ 0 ∧ dSpan (cBytes (wCopy 0 0)) 0 224 = 32 := by decide +kernel
theorem wit_fetch : let x := (eSt 3 (wCopy 1 0)).tile 5
    dSrcGlobal (cBytes (wCopy 1 0)) = true ∧ x.bufferFull = false ∧ x.tableFull = false := by decide +kernel
theorem wit_timeouts : let x := (eSt 3 [] (fun x => { x with reqs := [⟨7, 0, 0, 64, 64, 0, 0⟩], stores := [⟨8, 3, 0, 0x10000000000, 3, 64, 0, false, false, false, [], []⟩] })).tile 5
    x.live = true ∧ (x.reqs.find? (fun r => r.tag % 2 ^ 24 == 7 % 2 ^ 24)).isSome = true ∧
    (x.stores.find? (fun w => sameTag w.tag 8 && !w.signal && !w.own)).isSome = true ∧ (wOn).isLoft 0x10000000000 = false ∧ x.fails = [] := by decide +kernel
theorem wit_dAbort : let x := (eSt 3 [] (fun x => x.wr F.TILE_S_STATUS_state 3)).tile 5
    x.state = 3 ∧ x.rd F.TILE_D_STATUS_quiescent = 0 := by decide +kernel

/-! Tiles ending, chains and vault stations. -/

/-- Bay 0 held by queue 0, tiles 5 and 6 as given. -/
def bSt (x : Tile) (l : List (Fld × Nat) := []) (b : Bay := { holder := some 0 }) : State :=
  { wOn l with tiles := [(5, x), (6, x)], bays := [(0, b)] }
def tAt (n : Nat) : Tile := ({ regs := [] } : Tile).wr F.TILE_S_STATUS_state n
/-- A queue whose first packet is a LAUNCH that waits for bay 0. -/
def wLaunched : Queue := { Queue.reset with pkts := [{ bytes := cBytes [(0, 1, 2)], started := true, stage := 2, bay := some 0 }] }
theorem wit_finish : (wOn).bayOf 5 = some 0 ∧ (tAt 2).mayFinish = true ∧ (wOn).stopped = false ∧
    ((wOn).bayTiles 0).all (fun u => [5].contains u) = false ∧ ((wOn).bayTiles 0).all (fun u => [6, 5].contains u) = true := by decide +kernel
theorem wit_finish_last : let s := { bSt (tAt 2) [] { holder := some 0, finished := [6] } with queues := [(0, wLaunched)] }
    (s.bay 0).holder = some 0 ∧ (s.queue 0).busyPkt (fun p => p.type == 2 && p.stage == 2 && p.bay == some 0) = some 0 ∧
    ((after s (exec (.tileFinish 5) s)).bay 0).holder = none := by decide +kernel
theorem wit_finish_free : ((bSt (tAt 2) [] {}).bay 0).holder = none ∧ ((bSt (tAt 2)).queue 0).busyPkt (fun p => p.type == 2) = none := by decide +kernel
theorem wit_quiescent : let x := (tAt 3).wr F.TILE_D_STATUS_quiescent 1
    x.state = 3 ∧ x.rd F.TILE_D_STATUS_quiescent = 1 ∧ ((bSt x).queue 0).state ≠ 4 ∧ (Queue.reset.wr F.FE_Q_STATE_state 4).state = 4 ∧
    (t5 (exec (.tileQuiescent 5) (bSt x))).state = 4 := by decide +kernel
theorem wit_bayAbort : let x := (tAt 3).wr F.TILE_S_ABORT_cause 0x3F
    x.aborting = true ∧ x.rd F.TILE_S_ABORT_cause < 0x40 ∧ (wOn).bayOf 5 = some 0 ∧ ((bSt x).bay 0).aborted = false ∧ ((bSt x).bay 0).holder = some 0 ∧
    ((bSt x [] {}).bay 0).holder = none ∧ ((bSt x [] { aborted := true }).bay 0).aborted = true ∧
    ((after State.reset (exec (.bayAbort 5) (bSt x))).bay 0).aborted = true := by decide +kernel
theorem wit_release : let b : Bay := { holder := some 0, aborted := true }
    ((bSt (tAt 4) [] b).bayTiles 0).all (fun t => ((bSt (tAt 4) [] b).tile t).state == 0 || ((bSt (tAt 4) [] b).tile t).state == 4) = true ∧
    b.resetAt = none ∧ (bSt (tAt 4) [] b).stopped = false ∧ ({ b with resetAt := some 0 } : Bay).resetAt.isSome = true := by decide +kernel
theorem test_bayReset : let s := bSt (tAt 3) [] { holder := some 0, aborted := true }
    ((after s (exec (.bayReset 0) s)).bay 0).resetAt = some 0 ∧ (after s (exec (.bayReset 0) s)).rd F.FE_COUNTS_bay_resets = 1 := by decide +kernel

/-- The image with a chain from tile 6 to tile 5, one from device 2, and a station of bay 0. -/
def rImage : Image := { wImage with
  chains := [⟨3, 0, [⟨6, 0⟩, ⟨5, 0⟩]⟩, ⟨4, 0, [⟨2, 1⟩, ⟨5, 0⟩]⟩], vaults := [{ bay := 0, contributors := 1 }] }
def rSt (v : Vault) : State := { bSt (tAt 1) with stow := { inForce := some rImage }, vaults := [(0, v)] }
def wRow : List (BitVec 40) := List.replicate 64 0
theorem wit_chain : rImage.chain? 3 = some ⟨3, 0, [⟨6, 0⟩, ⟨5, 0⟩]⟩ ∧ (⟨3, 0, [⟨6, 0⟩, ⟨5, 0⟩]⟩ : ChainDef).place? 5 = some 1 ∧
    ((rSt {}).tile 5).aborting = false ∧ wRow.length = 64 ∧ ((rSt {}).tile 5).rowIn 3 63 = none ∧ ((rSt {}).tile 5).chainIn.length < 4 := by decide +kernel
theorem test_chain_held : (t5 (exec (.chainRow 5 3 63 wRow false) (rSt {}))).chainIn.map (·.1) = [3] := by decide +kernel
theorem wit_vault : rowFull (.x40 wRow) = true ∧ ((rSt {}).vaultDef 1).bay = 0xFF ∧ ((rSt {}).vault 0).live = false ∧ ((rSt {}).vaultDef 0).bay ≠ 0xFF ∧
    kget ({ live := true, rows := [(0, 64)] } : Vault).rows 0 0 = 64 ∧ (rSt { live := true }).rd (F.HUB_VST_STATUS_round 0) = 0 ∧
    (1 : Nat) < 2 ∧ kget ({ live := true } : Vault).rows 1 0 < 64 ∧ kget ({ live := true } : Vault).fwd 1 [] = [] ∧ (rSt {}).devId = 1 := by decide +kernel
theorem test_vault_excess : let s := rSt { live := true, rows := [(0, 64)] }
    (after s (exec (.vaultRow 0 1 0 0 (.x40 wRow) .ok false) s)).rd (F.HUB_VST_STATUS_excess 0) = 1 := by decide +kernel
theorem test_vault_next : let s := rSt { live := true }
    kget ((after s (exec (.vaultRow 0 1 1 63 (.x40 wRow) .ok false) s)).vault 0).rows 1 0 = 1 := by decide +kernel
theorem wit_reduce : (rSt {}).shuns 2 = false ∧ rImage.chain? 4 = some ⟨4, 0, [⟨2, 1⟩, ⟨5, 0⟩]⟩ ∧ rImage.chain? 9 = none := by decide +kernel
theorem wit_vault_added : let s := rSt { live := true, fwd := [(1, [2])] }
    let v := s.vault 0
    (s.vaultDef 0).bay ≠ 0xFF ∧ v.live = true ∧ s.rd (F.HUB_VST_STATUS_round 0) = 0 ∧ kget v.rows 1 0 < 64 * (s.vaultDef 0).contributors ∧
    joinForwarder (kget v.fwd 1 []) 2 = some [2] ∧ joinForwarder [] 2 = some [2] ∧ eccBad .ok = false ∧ rowFull (.raw (List.replicate 64 0)) = true := by decide +kernel
/-- The row of a REDUCE that has come from device 2 to station 0. -/
def redSt (v : Vault) (l : List (Fld × Nat) := []) : State := ((rSt v).wrs l).carry .hub (stationNode 0) 5 (List.replicate 320 0) 320
theorem wit_reduce_added : let s := redSt { live := true }
    (rSt { live := true }).shuns 2 = false ∧ (s.vault 0).live = true ∧ (s.vaultDef 0).bay = 0 ∧ (s.vaultDef 0).contributors = 1 ∧
    s.rd (F.HUB_VST_STATUS_round 0) = 0 ∧ kget (s.vault 0).rows 0 0 = 0 ∧ joinForwarder (kget (s.vault 0).fwd 0 []) 2 = some [2] ∧
    rowFull (dataVals 0 (List.replicate 320 0)) = true := by decide +kernel
theorem test_reduce_added : let s := rSt { live := true }
    kget ((after s (exec (.reduce 2 1 0 0 0 5 (List.replicate 320 0) .ok false) s)).vault 0).rows 0 0 = 1 := by decide +kernel
/-- A station that forwards to device 2 and awaits what it returns. -/
def fwdSt : State :=
  { rSt { live := true } with stow := { inForce := some { rImage with vaults := [{ bay := 0, contributors := 1, forwardTo := 2 }] } } }
theorem wit_reduce_returned : let s := (fwdSt.wrs [(F.HUB_VST_STATUS_state 0, 3)]).carry .hub (stationNode 0) 5 (List.replicate 320 0) 320
    (s.vault 0).live = true ∧ (s.vaultDef 0).forwardTo = 2 ∧ s.rd (F.HUB_VST_STATUS_state 0) = 3 ∧ s.rd (F.HUB_VST_STATUS_round 0) = 0 ∧
    (kput (s.vault 0).rets 63 (List.replicate 320 0)).length < 64 := by decide +kernel
theorem wit_vault_dropped : ((rSt {}).vaultDef 0).bay ≠ 0xFF ∧ ((rSt {}).vault 0).live = false ∧ ((2 : Nat) + 65536 - 0) % 65536 < 32768 ∧
    32768 ≤ ((0xFFFF : Nat) + 65536 - 0) % 65536 ∧ eccBad (.uncorrectable 0) = true := by decide +kernel
/-- Four chains' blocks held; a drain of chain 3 whose next row has met a mismatch. -/
def cFull (x : Tile) : Tile := { x with chainIn := [(0, []), (1, []), (2, []), (9, [])] }
def cBad (x : Tile) : Tile := { x with chainIn := [(3, [(0, wRow, true)])], drain := some { cmd := {}, chain := 3, rows := [wRow] } }
theorem wit_chain_held : 4 ≤ (cFull (tAt 1)).chainIn.length ∧ (cFull (tAt 1)).chainIn.any (·.1 == 3) = false ∧
    (cBad (tAt 1)).rowIn 3 0 = some (wRow, true) ∧ (cBad (tAt 1)).drain = some { cmd := {}, chain := 3, rows := [wRow] } := by decide +kernel

/-! Requests, register writes and answers. -/

/-- A request of bay 0, or of another master, to a local address. -/
def wReq (m : Master) (a : Nat) : Req :=
  { master := m, eng := some .s, exec := false, src := 1, tile := 5, tag := 9, epoch := 0, addr := BitVec.ofNat 64 (2 ^ 48 + a), via := none }
def aOn : State := bSt (tAt 1)
theorem wit_write : aOn.dark = false ∧ (aOn.arrivalOf (wReq (.bay 0) 0) = .take (.bay 0)) ∧ devOf (wReq (.bay 0) 0).addr.toNat = aOn.devId := by decide +kernel
theorem wit_write_spad : aOn.target (0x10000000000 + 5 * 0x400000 + 0x2FFFFE) 2 = .spad 5 0x2FFFFE ∧ aOn.permits (.bay 0) (.spad 5 0x2FFFFE) 2 false = true ∧
    aOn.pwrMb = false ∧ (aOn.tile 5).aborting = false := by decide +kernel
theorem wit_write_check : aOn.check (.bay 0) (0x10000000000 + 5 * 0x400000) 256 2 false = (aOn, .ok (.spad 5 0)) := by decide +kernel
theorem test_write_lands : let s := after aOn (exec (.write (wReq (.bay 0) (0x10000000000 + 5 * 0x400000)) [7, 8] 63 []) aOn)
    (s.tile 5).spad.get 1 = 8 ∧ (s.tile 5).rd (F.TILE_LC_count 63) = 2 := by decide +kernel
theorem wit_write_wrong : aOn.target 0xFFFFFBFFFFFF 2 = .unmapped ∧ aOn.target (0x10000000000 + 5 * 0x400000 + 0x2FFFFF) 2 = .unmapped ∧
    aOn.permits (.bay 1) (.spad 5 0) 2 false = false ∧ aOn.permits (.bay 1) (.spad 5 0) 1 false = false := by decide +kernel
theorem test_write_denied : let s := after aOn (exec (.write (wReq (.bay 1) (0x10000000000 + 5 * 0x400000)) [7] 0xFF []) aOn)
    (s.tile 5).spad = (aOn.tile 5).spad ∧ s.rd F.HUB_ACC_COUNTS_denied = 1 := by decide +kernel
theorem wit_read : aOn.check (.bay 0) (0x10000000000 + 5 * 0x400000) 64 1 false = (aOn, .ok (.spad 5 0)) ∧
    aOn.permits (.bay 0) (.spad 5 0) 1 false = true := by decide +kernel
theorem wit_bar2 : let s := wOn [(F.HUB_PCIE_STATUS_link_up, 1)]
    s.bar2Open (64 * 2 ^ 30 - 1) = true ∧ s.dark = false := by decide +kernel
theorem wit_shelf : 2 ^ 63 ≤ (0x80000000003FFFFF#64).toNat ∧ (0x80000000003FFFFF#64).toNat + 1 ≤ 2 ^ 63 + 0x400000 ∧ (0#64).toNat + 1 ≤ 2 ^ 48 := by decide +kernel
theorem wit_answer : let x := { tAt 1 with stores := [⟨9, 2, 0, 0x10000000000, 3, 64, 0, false, false, false, [], []⟩] }
    x.live = true ∧ x.rd F.TILE_D_STATUS_epoch = (0 : Byte).toNat ∧ x.rd F.TILE_D_STATUS_epoch ≠ (1 : Byte).toNat ∧
    x.stores.find? (fun w => sameTag w.tag 9 && !w.signal) = some ⟨9, 2, 0, 0x10000000000, 3, 64, 0, false, false, false, [], []⟩ ∧
    (t5 (exec (.landAck 5 9 0 .ok 3 64) (bSt x))).rd F.TILE_MM_ACKED_bytes = 64 ∧ (t5 (exec (.landAck 5 9 1 .ok 3 64) (bSt x))).rd F.TILE_D_STATUS_stale = 1 := by
  decide +kernel
theorem wit_signal : let r := wReq (.bay 0) (0x10000000000 + 5 * 0x400000)
    aOn.arrivalOf r = .take (.bay 0) ∧ aOn.signalTile (r.addr.toNat % 2 ^ 48) = some 5 ∧ aOn.permits (.bay 0) (.spad 5 0) 2 false = true := by decide +kernel
theorem test_signal_packet : (t5 (exec (.signalPacket (wReq (.bay 0) (0x10000000000 + 5 * 0x400000)) 255 4) aOn)).ctr 255 = 4 := by decide +kernel
theorem wit_manual : aOn.lets .cpc (tileOff 5 0x1A08) = true ∧ aOn.lets .cpc (tileOff 5 0x1A10) = true ∧ aOn.lets .cpc 0x50100 = true ∧ aOn.present 5 = true ∧
    aOn.lets .cpc (tileOff 5 0x3F00) = true ∧ (findRow tileRows 0x3F00).isSome = true := by decide +kernel
theorem test_manual : (t5 (exec (.tileSyncSet .cpc 5 8 9 7) aOn)).ctr 9 = 7 ∧ (t5 (exec (.tileSyncSet (.bay 0) 5 8 9 7) aOn)).ctr 9 = 0 := by decide +kernel
theorem wit_regWrite : wOn.check .cpc (0xFFFFFC000000 + queueOff 32767 8) 4 2 false = (wOn, .ok (.reg (queueOff 32767 8))) ∧
    regPlace (queueOff 32767 8) = .queue 32767 8 ∧ ((Place.queue 32767 8).row?.map (fun r => widthOk r 4)) = some true ∧
    (wOn.queue 32767).state = 0 := by decide +kernel
theorem wit_regCmds : wOn.lets .cpc 0x1018 = true ∧ wOn.lets .cpc 0x800 = true ∧ wOn.lets .debug 0x1018 = false := by decide +kernel
theorem wit_budget : wOn.check .cpc 0xFFFFFC03001C 4 1 false = (wOn, .ok (.reg 0x3001C)) ∧ wOn.check .cpc 0xFFFFFC030018 8 1 false = (wOn, .ok (.reg 0x30018)) := by
  decide +kernel
theorem wit_denied : wOn.target 0xFFFFFC001018 8 ≠ .unmapped ∧ wOn.permits (.bay 0) (wOn.target 0xFFFFFC001018 8) 2 false = false ∧ 0x1018 % 8 = 0 := by decide +kernel
theorem test_regWrite : (after wOn (exec (.regWrite .cpc 0x1018 8 0) wOn)).regs = wOn.regs ∧
    rget (after wOn (exec (.regWrite .cpc 0x10030 4 5) wOn)).regs 0x10030 = rget wOn.regs 0x10030 := by decide +kernel
/-- The device once a write of two bytes for bay 0 has crossed its mesh. -/
def wCarried (a : Nat) : State := aOn.carryIn (wReq (.bay 0) a) 2 1 (writePacket 1 1 (wReq (.bay 0) a) 63 [7, 8]) 2
theorem wit_write_carried : aOn.stopsAt (wReq (.bay 0) 0x10001400000) = none ∧
    (wCarried 0x10001400000).target 0x10001400000 2 = .spad 5 0 ∧ (wCarried 0x10001400000).permits (.bay 0) (.spad 5 0) 2 false = true ∧
    (wCarried 0x10001400000).pwrMb = false ∧ ((wCarried 0x10001400000).tile 5).aborting = false ∧
    (wCarried 0xFFFFFBFFFFFF).target 0xFFFFFBFFFFFF 2 = .unmapped ∧
    (wCarried 0x10001400000).permits (.bay 1) (.spad 5 0) 2 false = false := by decide +kernel
theorem wit_poisoned : let s := bSt { tAt 1 with reqs := [⟨9, 0, 0, 0x1020000000000, 64, 0, 0⟩] }
    s.loftWaits 5 9 = true ∧ s.loftWaits 5 8 = false ∧ (after s (exec (.readResp 5 9 0 .ok [] false true) s)).rd F.HUB_PCIE_ERR_poisoned_rx = 1 := by decide +kernel

/-! The command front end. -/

/-- Queue 0 ACTIVE with one packet. -/
def qSt (l : List (Nat × Nat × Nat)) (f : Queue → Queue := id) (b : List (Fld × Nat) := []) : State :=
  (wOn b).setQueue 0 (f { Queue.reset.wr F.FE_Q_STATE_state 1 with pkts := [{ bytes := cBytes l }] })
def q0 (r : Res) : Queue := (after State.reset r).queue 0
/-- The packet is next, starts, and passes its check. -/
def pktOk (l : List (Nat × Nat × Nat)) : Bool :=
  (qSt l).served 0 && ((qSt l).queue 0).next? == some (0, { bytes := cBytes l }) && ({ bytes := cBytes l } : Pkt).ok
theorem wit_packets : pktOk [(0, 1, 1)] = true ∧ pktOk [(0, 1, 2), (8, 1, 63)] = true ∧ pktOk [(0, 1, 3), (8, 1, 3), (32, 4, 1)] = true ∧
    pktOk [(0, 1, 4), (8, 1, 1), (16, 8, 8)] = true ∧ pktOk [(0, 1, 5)] = true ∧ pktOk [(0, 1, 6), (16, 8, 1)] = true ∧
    pktOk [(0, 1, 7), (16, 8, 50), (24, 4, 1)] = true ∧ pktOk [(0, 1, 8)] = true ∧ pktOk [(0, 1, 9), (24, 4, 1)] = true := by decide +kernel
theorem wit_packets_bad : (([1, 2, 3, 4, 5, 6, 7, 8, 9, 10].map (fun n => ({ bytes := cBytes [(0, 1, n), (63, 1, 1)] } : Pkt).ok)).all (fun b => !b)) = true ∧
    (qSt [(0, 1, 10)]).served 0 = true := by decide +kernel
theorem wit_launch : let a := (qSt [(0, 1, 2)]).startPkt 0 0 { bytes := cBytes [(0, 1, 2)] }
    a.image? ≠ none ∧ a.image.bay? 0 ≠ none ∧ a.bayTiles 0 ≠ [] ∧ (a.bay 0).waiting = [] ∧ a.launchable 0 = true ∧ a.image.bay? 63 = none ∧
    (a.setBay 0 { holder := some 1 }).launchable 0 = false := by decide +kernel
theorem test_launch : let s := after State.reset (exec (.launch 0) (qSt [(0, 1, 2), (24, 4, 64)]))
    (s.bay 0).holder = some 0 ∧ (s.tile 6).state = 1 ∧ (s.tile 6).pc = 64 := by decide +kernel
theorem test_tickWait : (q0 (exec (.tickWait 0) (qSt [(0, 1, 6), (16, 8, 1)]))).pkts.map (·.done) = [false] ∧
    (q0 (exec (.tickWait 0) (qSt [(0, 1, 6)]))).retired = 1 := by decide +kernel
theorem test_bad_packet : (q0 (exec (.nop 0) (qSt [(0, 1, 10)]))).state = 2 ∧ (q0 (exec (.nop 0) (qSt [(0, 1, 1)]))).retired = 1 := by decide +kernel
/-- The packet started and waiting at its stage 1. -/
def waiting (x : Queue) : Queue := { x with pkts := x.pkts.map (fun p => { p with started := true, stage := 1 }) }
theorem wit_waits : (qSt []).feReady = true ∧ ((qSt [(0, 1, 5)] waiting).queue 0).busyPkt (fun p => p.type == 5 && p.stage == 1) = some 0 ∧
    ((qSt [(0, 1, 6)] waiting).queue 0).busyPkt (fun p => p.type == 6 && p.stage == 1 && le p.bytes 16 8 ≤ 0) = some 0 ∧ (qSt []).stopped = false ∧
    ((qSt [(0, 1, 8)] waiting).queue 0).busyPkt (fun p => p.type == 4 || p.type == 8) = some 0 ∧ (qSt [(0, 1, 3), (32, 4, 1)] waiting).timerRuns 0 = true := by decide +kernel
theorem wit_confirm : (([0, 1, 2, 3, 4, 5].map (fun c => ((qSt [(0, 1, 4)] (fun x => { waiting x with confirm := [c] })).queue 0).confirm)) =
    [[0], [1], [2], [3], [4], [5]]) ∧ (Queue.reset.wr F.FE_Q_STATE_state 2).state = 2 ∧ (Queue.reset.wr F.FE_Q_STATE_state 5).state = 5 := by decide +kernel
/-- The copy unit at work on one byte from the HBM region to the host. -/
def cSt (space : Nat) : State := { qSt [(0, 1, 3), (8, 1, 2), (32, 4, 1)] waiting [(F.HUB_PCIE_STATUS_link_up, 1)] with disp := [(0, ⟨some 0, 2 ^ 48, 64, 1, space⟩)] }
theorem wit_copy : kget (cSt 2).disp 0 {} = ⟨some 0, 2 ^ 48, 64, 1, 2⟩ ∧ (cSt 2).linkUp = true ∧ (q0 (exec (.copyUnitDone 0 (some []) [] true) (cSt 2))).retired = 1 ∧
    ((cSt 3).copyRead 1 (2 ^ 48) none [] (cut256 2 (2 ^ 48) 1)).2.2 = false := by decide +kernel
theorem wit_doorbell : wOn.lets .host (doorbellOff 0) = true ∧ ((qSt [] (fun x => x.wr F.FE_Q_CFG_log2_size 12)).queue 0).entries = 64 ∧
    (q0 (exec (.doorbell .host 0 64) (qSt [] (fun x => x.wr F.FE_Q_CFG_log2_size 12)))).tail = 64 ∧
    (q0 (exec (.doorbell .host 0 65) (qSt [] (fun x => x.wr F.FE_Q_CFG_log2_size 12)))).state = 2 ∧ ((wOn).queue 0).state ≠ 1 := by decide +kernel
theorem wit_queue_ops : wOn.lets .host (queueOff 0 0x28) = true ∧ (Queue.reset.wr F.FE_Q_CFG_log2_size 12).cfgOk = true ∧ Queue.reset.cfgOk = false ∧
    ((Queue.reset.wrs [(F.FE_Q_STATE_state, 2), (F.FE_Q_STATE_reset_done, 1)]).rd F.FE_Q_STATE_reset_done = 1) ∧ wOn.lets .host 0x800010 = true := by decide +kernel
theorem test_create : let s := (wOn).setQueue 0 (Queue.reset.wr F.FE_Q_CFG_log2_size 12)
    (q0 (exec (.create .host 0) s)).state = 1 ∧ (after s (exec (.create .host 0) s)).rd F.FE_STATUS_active = 1 := by decide +kernel
theorem test_destroy : 3 ≤ (q0 (exec (.destroy .host 0) (qSt []))).state ∧ (after State.reset (exec (.destroy .host 1) (qSt []))).log = [⟨.FE_Q_BUSY, [1]⟩] := by decide +kernel
/-- A ring of 64 packets at the HBM region, one packet in it, nothing fetched. -/
def ring (base : Nat) (x : Queue) : Queue :=
  { x.wrs [(F.FE_Q_CFG_log2_size, 12), (F.FE_Q_BASE_base, base), (F.FE_Q_PTR_tail, 1)] with pkts := [] }
theorem wit_ring : ((qSt [] (ring (2 ^ 36))).queue 0).jump = none ∧
    ((qSt [] (ring (2 ^ 36))).fetchRing 0 none [] 1 0 0).2.isSome = true ∧ ((qSt [] (ring 0)).fetchRing 0 none [] 1 0 0).2 = none := by decide +kernel
theorem wit_fencePoll : let x := (qSt [(0, 1, 5)] waiting).queue 0
    nthIdx (fun p => p.started && !p.done && p.type == 5 && p.stage == 1) x.pkts 0 = some 0 ∧
    nthIdx (fun p => p.started && !p.done && p.type == 5 && p.stage == 1) (x.pkts ++ x.pkts) 1 = some 1 := by decide +kernel
theorem wit_copy_unconfirmed : ((cSt 2).copyWrite 1 64 [0] (cut256 2 64 1)).2 = 1 := by decide +kernel

/-! HBM. -/

/-- Stack 15 with registers set. -/
def hSt (l : List (Fld × Nat)) : State := (wOn).setStack 15 (Stack.reset.wrs l)
theorem wit_scrub : ((hSt [(F.HBM_STATUS_state, 1)]).stack 15).rd F.HBM_STATUS_state = 1 ∧
    kget ((after State.reset (exec (.hbmScrub 15 31 []) (hSt [(F.HBM_STATUS_state, 1)]))).stack 15).scrub 31 0 = 1 := by decide +kernel
theorem test_temp : let s := after State.reset (exec (.hbmTempRead 15 106) (hSt []))
    (s.stack 15).rd F.HBM_STATUS_refresh = 2 ∧ (s.stack 15).rd F.HBM_STATUS_throttled = 1 ∧ (s.stack 15).rd F.HBM_TEMP_max = 106 := by decide +kernel
theorem test_temp_below : let s := after State.reset (exec (.hbmTempRead 15 105) (hSt []))
    (s.stack 15).rd F.HBM_STATUS_throttled = 0 := by decide +kernel
theorem wit_hbm_cmds : wOn.lets .cpc (stackOff 15 8) = true ∧ wOn.lets .cpc (stackOff 15 0x20) = true ∧
    ((hSt [(F.HBM_RET_STATUS_state, 1)]).stack 15).rd F.HBM_RET_STATUS_state = 1 ∧ ((hSt [(F.HBM_RET_ADD_row, 49151)]).stack 15).rd F.HBM_RET_ADD_row ≤ 49151 ∧
    49151 < ((hSt [(F.HBM_RET_ADD_row, 49152)]).stack 15).rd F.HBM_RET_ADD_row := by decide +kernel
theorem test_retAdd : ((after State.reset (exec (.hbmRetAdd .cpc 15) (hSt [(F.HBM_STATUS_state, 1), (F.HBM_RET_ADD_row, 49119)]))).stack 15).build.map (·.row) = [49119] := by
  decide +kernel
theorem wit_retSchedule : let s := hSt [(F.HBM_RET_STATUS_state, 2), (F.HBM_RET_SWAP_TN_tn, 50)]
    (s.enterAct 50 4 (1 + 256 * 15) 3).2.1 = 0 ∧ (s.enterAct 0 4 (1 + 256 * 15) 3).2.1 = 1 := by decide +kernel
/-- A device with one action due, of bank 3. -/
def due (type arg : Nat) (s : State) : State := { s with tb := { s.tb with due := [⟨0, 1, type, arg, 3⟩] } }
theorem wit_retSwap : let s := due 4 (1 + 256 * 15) (hSt [(F.HBM_RET_STATUS_state, 3)])
    (s.takeDue 4 (fun a => a.arg % 256 == 1)).isSome = true ∧ (1 + 256 * 15) / 256 % 256 = 15 ∧
    ((after State.reset (exec .hbmTableSwap s)).stack 15).rd F.HBM_RET_STATUS_generation = 1 := by decide +kernel

/-! Device links. -/

/-- Port 3, whose peer is device 2, in the state `n`. -/
def pSt (n : Nat) (f : Port → Port := id) : State := (wOn).setPort 3 (f (Port.reset.wr F.LNK_STATUS_state n))
/-- Bytes closed by their CRC-32. -/
def closed (b : List Byte) : List Byte := b ++ leBytes 4 (crc32 b).toNat
theorem wit_crc (b : List Byte) (h : b.length = 252) : (closed b).length = 256 ∧ le (closed b) 252 4 = (crc32 ((closed b).take 252)).toNat := by
  have hn := (crc32 b).isLt
  refine ⟨by simp [closed, h], ?_⟩
  simp only [closed, le, sub, List.drop_left' h, List.take_left' h]
  rw [List.take_of_length_le (by simp), leNat_leBytes]
  omega
/-- A flit of number 0 and a kind, with nothing in it. -/
def wFlit (kind : Nat) : List Byte := mkFlit 0 kind 0 0 0 0 []
theorem wit_flit (kind : Nat) : (wFlit kind).length = 256 ∧ le (wFlit kind) 252 4 = (crc32 ((wFlit kind).take 252)).toNat :=
  wit_crc _ (by simp only [List.length_append, leBytes_length, List.length_replicate, List.length_nil])
theorem wit_flit_kinds : le (wFlit 1) 0 2 / 4096 = 1 ∧ le (wFlit 1) 0 2 % 4096 = 0 ∧ le (wFlit 2) 0 2 / 4096 = 2 ∧ le (wFlit 3) 0 2 / 4096 = 3 ∧
    le (wFlit 0) 0 2 / 4096 = 0 ∧ (pSt 2).rd F.PWR_STATUS_state = 1 ∧ ((pSt 2).port 3).rd F.LNK_STATUS_state = 2 := by decide +kernel
theorem wit_flit_places : ((pSt 3).port 3).rd F.LNK_STATUS_state = 3 ∧ ((pSt 3).port 3).expect = 0 ∧ ((pSt 3).port 3).failSeq = none ∧
    (0 + 4096 - ((pSt 3 (fun x => { x with expect := 4095 })).port 3).expect) % 4096 < 2048 ∧
    2048 ≤ (0 + 4096 - ((pSt 3 (fun x => { x with expect := 1 })).port 3).expect) % 4096 := by decide +kernel
theorem wit_flit_bad : ¬ (List.length (α := Byte) [1] = 256 ∧ le [1] 252 4 = (crc32 (List.take 252 [1])).toNat) := by simp
theorem test_flit_bad : ((after State.reset (exec (.linkFlit 3 [1] false) (pSt 3))).port 3).rd F.LNK_ERRS_crc_fail = 1 := by decide +kernel
theorem wit_ports : ((pSt 1).port 3).rd F.LNK_STATUS_state = 1 ∧ ((pSt 4).port 3).rd F.LNK_STATUS_state = 4 ∧ wOn.lets .cpc (lnkCtrlOff 3) = true ∧
    (wOn).stopped = false ∧ 16 ≤ (16 : Fin 32).val := by decide +kernel
theorem test_trained : let s := after State.reset (exec (.linkTrained 3) (pSt 1))
    (s.port 3).rd F.LNK_STATUS_state = 2 ∧ s.out.length = 1 := by decide +kernel
theorem test_retrained : ((after State.reset (exec (.linkTrained 3) (pSt 4))).port 3).rd F.LNK_STATUS_state = 3 := by decide +kernel
theorem test_lane : ((after State.reset (exec (.laneLockLoss 3 8) (pSt 3))).port 3).rd F.LNK_STATUS_bad_lanes = 256 := by decide +kernel
theorem wit_stall : ((pSt 3 (fun x => { x with egress := [(0, [4, 0x0D])] })).port 3).egress.find? (fun e => pktVc e.2 == (5 : BitVec 3).toNat) = some (0, [4, 0x0D]) := by
  decide +kernel
theorem wit_hello : (pSt 2).peer? 3 = some (2 : BitVec 16).toNat ∧ (pSt 2).peer? 3 ≠ some (3 : BitVec 16).toNat ∧ (0 : Dword).toNat = (pSt 2).groupDigest ∧
    (1 : Dword).toNat ≠ (pSt 2).groupDigest := by decide +kernel
theorem test_hello : ((after State.reset (exec (.hello 3 2 0) (pSt 2))).port 3).rd F.LNK_STATUS_state = 3 ∧
    ((after State.reset (exec (.hello 3 3 0) (pSt 2))).port 3).rd F.LNK_EVENT_peer_mismatch = 1 := by decide +kernel
theorem wit_member : (wOn).image.members.contains 2 = true ∧ (wOn).image.members.contains 3 = false ∧ 2 ≠ (wOn).devId ∧ (wOn).grp.heard.contains (2, 7) = false ∧
    (after State.reset (exec (.membership 3 2 7 0 false 0) (wOn))).grp.heard = [(2, 7)] := by decide +kernel
theorem test_hello_bad : ((after State.reset (exec (.linkFlit 3 [1] true 2) (pSt 2))).port 3).rd F.LNK_ERRS_crc_fail = 1 ∧
    ((after State.reset (exec (.linkFlit 3 [1] true 2) (pSt 2))).port 3).rd F.LNK_FEC_corrected = 2 := by decide +kernel
theorem wit_width : (Port.reset).widthLost = false ∧ (Port.reset.wr F.LNK_STATUS_bad_lanes 0x11).widthLost = true := by decide +kernel

/-! Snapshots. -/

/-- The snapshot unit in state `n`. -/
def nSt (n : Nat) (f : Snap → Snap := id) (l : List (Fld × Nat) := []) : State :=
  let s := wOn ((F.HUB_SNAP_STATUS_state, n) :: l)
  { s with snap := f s.snap }
/-- A plan's header without tensors: holder 2, and a loss of 4 bytes at the HBM region's start. -/
def wPlan : List Byte := leBytes 16 0 ++ leBytes 4 0 ++ leBytes 2 2 ++ leBytes 2 1 ++ leBytes 8 0 ++ leBytes 8 (2 ^ 48) ++ leBytes 1 4 ++ leBytes 23 0
theorem wit_cut : ((due 2 7 (nSt 0)).takeDue 2).isSome = true ∧ (after State.reset (exec .snapshotCut (due 2 7 (nSt 0)))).rd F.HUB_SNAP_STATUS_error = 5 := by
  decide +kernel
theorem wit_snapRelease : (nSt 2).snapState = 2 ∧ (nSt 2).rd F.HUB_SNAP_STATUS_released = 0 ∧ ((nSt 2).moveAll [] (nSt 2).snap.tensors 0x400000 []).2 = some [] ∧ planFence (nSt 2).snap.plan = 0 ∧
    ((nSt 2).moveAll [] [⟨2 ^ 48 + 2 ^ 47, 16, 0⟩] 0x400000 []).2 = none := by decide +kernel
/-- A release fence at host address 0x1000, with the host link up, or down. -/
def fenceSt (up : Nat) : State := nSt 2 (fun n => { n with plan := wPlan.take 24 ++ leBytes 8 0x1001 ++ wPlan.drop 32 }) [(F.HUB_PCIE_STATUS_link_up, up)]
theorem wit_releaseFence : planFence (fenceSt 1).snap.plan ≠ 0 ∧ ((fenceSt 1).hubWrite 1 0x1000 (leBytes 8 7)).2 = 1 ∧
    ((fenceSt 0).hubWrite 1 0x1000 (leBytes 8 7)).2 = 2 := by decide +kernel
theorem wit_snapAck : (nSt 2 (fun n => { n with issued := 1 })).snap.acked < (nSt 2 (fun n => { n with issued := 1 })).snap.issued ∧
    (nSt 2 (fun n => { n with coord := some (3, 0) })).snap.coord = some (3, 0) := by decide +kernel
/-- The commit word of snapshot 7 in HELD: outcome `k`, in the buddy region. -/
def heldSt (n k : Nat) : State :=
  let i : Image := { wImage with regions := [⟨0, 0x1000000, 16, 0, 0, 1⟩] }
  let s := nSt 3 id [(F.HUB_GRP_STATUS_state, 1), (F.HUB_SNAP_STATUS_snapshot, 7)]
  let s1 := { s with stow := { inForce := some i } }
  (s1.hbmWrite ⟨0, 0x1000000, 16, 0, 0, 1⟩ 0x20000 (2 ^ 48 + 0x20000) (leBytes 4 n ++ leBytes 4 k) []).1
theorem wit_poll : (heldSt 7 1).snapState = 3 ∧ (heldSt 7 1).member = true ∧
    ((heldSt 7 1).hubRead 0 (devAddr (heldSt 7 1).devId ((heldSt 7 1).buddyBase + 0x20000)) 8 none []).2 = some [7, 0, 0, 0, 1, 0, 0, 0] ∧
    (heldSt 7 1).snapN = 7 := by decide +kernel
theorem test_poll : (after State.reset (exec .snapCommitPoll (heldSt 7 2))).rd F.HUB_SNAP_STATUS_error = 7 ∧
    (after State.reset (exec .snapCommitPoll (heldSt 6 2))).snapState = 3 := by decide +kernel
theorem wit_snap_cmds : (nSt 2).lets .cpc snapCtrl = true ∧ (nSt 3).snapState = 3 := by decide +kernel
theorem wit_shelfJob : let s := { nSt 0 (fun n => { n with job := some ⟨3, 1, 0, 0, 0, 1, [], 0, 2, 0⟩ }) with shelf := { cmdAt := some 0, owned := true } }
    s.snap.job.isSome = true ∧ s.shelf.cmdAt = some 0 ∧ (after s (exec (.shelfIoComplete false) s)).rd F.SHELF_ERRS_resets = 1 := by decide +kernel
/-- A manifest of snapshot 7, step 9, with no tensor, stream or cursor, and a loss of 4 bytes. -/
def wManifest : List Byte :=
  let b := leBytes 4 0x50414E53 ++ leBytes 2 1 ++ leBytes 2 1 ++ leBytes 4 7 ++ leBytes 4 0 ++ leBytes 8 9 ++ leBytes 52 0 ++ leBytes 1 4 ++ leBytes 3 0 ++
    leBytes 8 (2 ^ 48) ++ leBytes 40 0
  b ++ sha384 b
def wWitness : List Byte :=
  let b := leBytes 4 7 ++ leBytes 1 4 ++ leBytes 3 0 ++ leBytes 8 10 ++ leBytes 64 0
  b ++ sha384 b
def wSrc : SourceIn := { reachable := true, shelfHeader := [], witness := wWitness, manifest := wManifest, tensors := [] }
theorem wit_restore : (nSt 0 id [(F.HUB_SNAP_SRC_snapshot, 7)]).restoreCheck wSrc = none ∧ (nSt 0).noBayHeld = true ∧
    (bSt (tAt 1)).noBayHeld = false := by decide +kernel
theorem wit_restore_wrong : (nSt 0).restoreCheck wSrc = some 0x10 ∧ (nSt 0).rd F.HUB_SNAP_RESULT_restored = 0 := by decide +kernel
theorem wit_replay : let s := nSt 0 (fun n => { n with manifest := wManifest }) [(F.HUB_SNAP_RESULT_restored, 1)]
    s.rd F.HUB_SNAP_RESULT_restored = 1 ∧ witnessOk wWitness 7 = true ∧ le wWitness 8 8 = le wManifest 16 8 + 1 ∧ le wWitness 4 1 = le wManifest 76 1 ∧
    (after s (exec (.replayCheck .cpc { wSrc with reachable := false }) s)).rd F.HUB_SNAP_RESULT_replay = 3 := by decide +kernel
theorem test_replay : let s := nSt 0 (fun n => { n with manifest := wManifest }) [(F.HUB_SNAP_RESULT_restored, 1)]
    (after s (exec (.replayCheck .cpc wSrc) s)).rd F.HUB_SNAP_RESULT_replay = 1 := by decide +kernel
theorem wit_restoreComplete : let s := nSt 4 (fun n => { n with manifest := wManifest })
    s.snapState = 4 ∧ ((s.snapSet 0).restoreTensors wManifest []).2 = none ∧ ((s.snapSet 0).restoreTensors (wManifest.set 12 1) []).2.isSome = true := by decide +kernel
theorem wit_witness : let s := nSt 0 (fun n => { n with plan := wPlan }) [(F.HUB_SNAP_LAST_valid, 1)]
    (s.on F.HUB_SNAP_LAST_valid && s.rd F.HUB_SNAP_LAST_snapshot == s.snapN && planLossLen s.snap.plan != 0 && s.rd F.HUB_SNAP_LAST_witness == 0) = true ∧
    (nSt 0).on F.HUB_SNAP_LAST_valid = false := by decide +kernel

/-! The timebase. -/

/-- Source `src`, in the timebase's state `n`. -/
def tSt (src n : Nat) (l : List (Fld × Nat) := []) : State := wOn ([(F.TB_STATUS_source, src), (F.TB_STATUS_state, n)] ++ l)
theorem test_edge : (after State.reset (exec .tickEdge (tSt 0 2))).tn = 1 := by decide +kernel
theorem wit_source : (tSt 0 1).tbSource = 0 ∧ (tSt 0 1).tbState ≠ 0 ∧ (tSt 1 2).tbSource = 1 ∧ (tSt 1 2).tbState = 2 ∧ (0 : Fin 32).val = (tSt 1 2).image.sourcePort ∧
    (tSt 0 5).tbState = 5 ∧ (tSt 0 2).lets .cpc tbCtrl = true ∧ (tSt 0 2).lets .cpc actCmd = true ∧ bankOfMaster .cpc = some 1 := by decide +kernel
/-- 03 R49: header 0xA5, TN 0, CRC-8 of zeros. -/
theorem wit_frame : frameOk 0xA5 = true ∧ frameOk 0xA4 = false ∧ (tSt 0 1).tb.badFrame = 0 ∧
    ({ tSt 0 1 with tb := { badFrame := 1 } } : State).tb.badFrame ≠ 0 := by decide +kernel
theorem wit_tick : ((((tSt 1 2).wr F.TB_STATUS_depth (min 255 ((255 : Byte).toNat + 1))).sourceTn 0).tbState = 2) ∧
    (((tSt 1 2).wr F.TB_STATUS_depth 1).sourceTn 9).tbState ≠ 2 := by decide +kernel
theorem test_missing : let s := { tSt 0 2 with tb := { (tSt 0 2).tb with missing := 2 } }
    (after s (exec .tickEdgeMissing s)).tbState = 3 ∧ (after s (exec .tickEdgeMissing (tSt 0 2))).tbState = 2 := by decide +kernel
theorem wit_lockTimeout : (tSt 0 1).tbState = 1 ∧ (((tSt 0 1).tbSet 0).tbRaise F.TB_EVENT_lock_fail .TICK_LOCK_FAIL).rd F.PWR_STATUS_state ≠ 0 := by decide +kernel
theorem wit_lockTimeout_start : let s := (((tSt 0 1 [(F.PWR_STATUS_state, 0), (F.PWR_STATUS_step, 11)]).tbSet 0).tbRaise F.TB_EVENT_lock_fail .TICK_LOCK_FAIL)
    s.rd F.PWR_STATUS_state = 0 ∧ s.rd F.PWR_STATUS_step = 11 ∧ s.rd F.PWR_STATUS_failed = 0 := by decide +kernel
theorem wit_delay : (pSt 3).portUp 3 = true ∧ (after State.reset (exec (.delayResp 3 0 10 20 40) (pSt 3))).rd (F.TB_LINK_DELAY_measured 3) ≠ 0 := by decide +kernel
/-- One action pending. -/
def acting (tn type : Nat) (s : State) : State := { s with tb := { s.tb with pend := [⟨7, tn, type, 0, 1⟩] } }
theorem wit_cancel : ((acting 9 2 (tSt 0 2)).tb.pend.find? (fun x => x.slot == (7 : BitVec 10).toNat)) = some ⟨7, 9, 2, 0, 1⟩ ∧
    ((acting 9 2 (tSt 0 2)).tb.pend.find? (fun x => x.slot == (8 : BitVec 10).toNat)) = none ∧ (acting 1 2 (tSt 0 2)).committed ⟨7, 1, 2, 0, 1⟩ = true ∧
    (after State.reset (exec (.tbActCancel .cpc 7) (acting 2 2 (tSt 0 2)))).tb.pend = [] := by decide +kernel
theorem test_actAdd : let s := tSt 0 2 [(F.TB_ACT_TN_tn.bank 1, 2)]
    (after s (exec (.tbActAdd .cpc 2) s)).tb.pend.map (·.tn) = [2] := by decide +kernel
theorem wit_stop : ((due 1 0 (tSt 0 2)).takeDue 1).isSome = true ∧ (tSt 2 2).tbSource = 2 ∧ (tSt 0 2).tbSource ≠ 2 ∧
    ((due 3 0 (tSt 0 2)).takeDue 3).isSome = true := by decide +kernel
/-- Stopped, with the ports of a mask open. -/
def stopped (open_ : Nat) : State := wOn [(F.TB_STOP_STATUS_stopped, 1), (F.TB_STOP_STATUS_open_ports, open_)]
theorem wit_stopped : (stopped 8).stopped = true ∧ (stopped 8).stop.sent = false ∧ (stopped 8).enabledPorts.all (fun p => ((stopped 8).port p).egress.isEmpty) = true ∧
    bitOf ((stopped 8).rd F.TB_STOP_STATUS_open_ports) (3 : Fin 32) = true ∧ (stopped 8).rd F.TB_STOP_STATUS_open_ports ≠ (stopped 8).stop.gaveUp ∧
    (stopped 0).quiescent = true ∧ (stopped 8).quiescent = false ∧ (stopped 8).stopNow = stopped 8 := by decide +kernel
theorem test_stopDone : (after State.reset (exec (.stopDone 3) (stopped 8))).rd F.TB_STOP_STATUS_open_ports = 0 := by decide +kernel
theorem test_resume : (after State.reset (exec (.resumeReplay .cpc) (stopped 8))).stopped = true := by decide +kernel
theorem test_phaseStart : (t5 (exec .phaseStart (due 3 (9 * 256 + 4 * 65536) (bSt (tAt 1))))).ctr 9 = 4 := by decide +kernel
theorem test_stopDone_early : (after State.reset (exec (.stopDone 3) wOn)).stop.early = [3] ∧ (wOn).stopped = false := by decide +kernel
theorem test_tick_source : let s := tSt 1 1 [(F.TB_LINK_DELAY_measured 0, 5)]
    (after s (exec (.tick 0 9 3 0 false 10) s)).rd F.TB_STATUS_depth = 1 := by decide +kernel

/-! The safety monitor and observation. -/

theorem wit_watchdog : let s := bSt { tAt 1 with mRun := [cmdOf []] }
    s.bayOf 5 = some 0 ∧ (s.tile 5).live = true ∧ s.stopped = false ∧ (s.tile 5).engineBusy .m = true ∧ (s.tile 5).engineBusy .v = false ∧
    s.rd (F.PWR_DIE_halted (5 / 150)) = 0 ∧ (s.tile 5).opened = none := by decide +kernel
theorem wit_selftest : ((due 6 1 wOn).takeDue 6).isSome = true ∧ (wOn).image.bay? 0 ≠ none ∧ (wOn).rd (F.SAFE_ST_AGE_degraded 0) = 0 ∧ (wOn).pwrMb = false := by
  decide +kernel
/-- Half a second and a cycle after the start, with no test passed. -/
def lateSt : State := { wOn with time := 500 * msCycles + 1 }
theorem test_degraded : (after State.reset (exec (.safetyDegraded 0) lateSt)).rd F.SAFE_STATUS_degraded = 1 ∧
    500 * msCycles < lateSt.bayAge 0 ∧ lateSt.image.bay? 0 ≠ none := by decide +kernel
/-- Tile 5 in test. -/
def testSt : State := bSt (tAt 0) [] { testing := [5] }
theorem wit_testing : testSt.testingTile 5 = true ∧ (wOn).testingTile 5 = false := by decide +kernel
theorem test_corrected : (after State.reset (exec (.selftestDone (.tile 5) true [8]) testSt)).rd F.SAFE_COUNTS_corrected = 1 := by decide +kernel
theorem wit_pretest : (wOn).lets .cpc safeRepair = true ∧ (wOn).lets .cpc safeCtrl = true ∧ ((wOn).repairSite 7 9 15).safe.pretest = none ∧ (9 : BitVec 4).toNat < 10 ∧
    (((wOn).repairSite 7 9 15).image?.bind (·.tileAt (siteNo 7 9 15))).isSome = false ∧ (wOn).pwrOn = true ∧
    (((wOn).repairSite 7 9 14).image?.bind (·.tileAt (siteNo 7 9 14))).isSome = true ∧ ({ wOn with safe := { pretest := some (15, 1) } } : State).safe.pretest = some (15, 1) := by
  decide +kernel
theorem test_pretestDone : let s := { wOn with safe := { pretest := some (15, 1) } }
    (after s (exec (.pretestDone false 3) s)).siteState 15 = 2 ∧ (after s (exec (.pretestDone true 3) s)).rd F.SAFE_REPAIR_STATUS_elapsed_us = 3 := by decide +kernel
theorem test_mismatch : (after State.reset (exec (.reportMismatch .cpc) wOn)).rd F.SAFE_STATUS_untrusted = 1 := by decide +kernel
/-- A dump's range: the region's first 256 bytes, to address 0 of the host, watching tile 5. -/
def dumpSt (n : Nat) (l : List (Fld × Nat) := []) : State :=
  wOn ([(F.HUB_DUMP_STATUS_state, n), (F.HUB_DUMP_SRC_addr, 2 ^ 48), (F.HUB_DUMP_LEN_length, 256), (F.HUB_DUMP_CTRL_tile, 5)] ++ l)
theorem wit_dump : (dumpSt 0).lets .cpc dumpCtrl = true ∧ (dumpSt 0).lets .cpc evtFreezeOff = true ∧ (dumpSt 1).dumpState = 1 ∧ (dumpSt 3).dumpState = 3 ∧
    (dumpSt 4).dumpState = 4 ∧ (dumpSt 0).dumpOk = true ∧ (wOn).dumpOk = false := by decide +kernel
theorem wit_dumpCopy : let s := dumpSt 3 [(F.HUB_DUMP_DST_addr, 2 ^ 48 + 256)]
    let r := s.copyRead 0 (2 ^ 48) none [] (cut256 2 (2 ^ 48) 256)
    r.2.2 = true ∧ (r.1.copyWrite 0 (2 ^ 48 + 256) r.2.1 (cut256 2 (2 ^ 48 + 256) 256)).2 = 0 ∧
    ((dumpSt 3).copyRead 0 (2 ^ 48 + 2 ^ 47) none [] (cut256 2 (2 ^ 48 + 2 ^ 47) 256)).2.2 = false := by decide +kernel
theorem test_dumpArm : (after State.reset (exec (.dumpArm .cpc) (dumpSt 5))).dumpState = 1 ∧ (after State.reset (exec (.dumpArm .cpc) (dumpSt 2))).rd F.HUB_DUMP_STATUS_error = 3 := by
  decide +kernel
theorem wit_sample : ((due 7 256 wOn).takeDue 7).isSome = true := by decide +kernel

/-! Power and starts. -/

/-- A start's inputs: nothing fails. -/
def wStart : StartIn :=
  { domainFail := none, caps := List.replicate 11 0, bundleFail := [], hbmTrainFail := false, hbmBad := [], bistFail := [], stepUs := [],
    shelf := {} }
theorem wit_supplies : State.reset.pwr.aux = false ∧ (wOn).pwr.aux = true ∧ ({ wOn with pwr := { (wOn).pwr with off := true } } : State).pwr.off = true ∧
    (wOn).lets .cpc pwrCtrl = true ∧ (wOn).powered = true ∧ (wOn).pwrSt ≠ 3 ∧ (wOn [(F.PWR_STATUS_state, 3)]).pwrSt = 3 := by decide +kernel
theorem wit_retry : let s := wOn [(F.PWR_STATUS_state, 0), (F.PWR_STATUS_failed, 1), (F.PWR_STATUS_fail_code, 8)]
    s.pwrSt = 0 ∧ s.rd F.PWR_STATUS_failed = 1 ∧ s.pwr.resetHeld = false ∧ s.powered = true ∧ s.rd F.PWR_STATUS_fail_code ≠ 2 ∧ s.rd F.PWR_STATUS_fail_code ≠ 6 := by
  decide +kernel
/-- A start at step `n`. -/
def startSt (n : Nat) : State :=
  let s := wOn [(F.PWR_STATUS_state, 0), (F.PWR_STATUS_step, n)]
  { s with pwr := { s.pwr with inputs := some wStart } }
theorem wit_timeout : (startSt 5).starting = true ∧ (startSt 5).rd F.PWR_STATUS_step ≠ 11 ∧ (startSt 5).rd F.PWR_STATUS_step ≠ 8 ∧
    (startSt 8).rd F.PWR_STATUS_step = 8 ∧ (after State.reset (exec .stepTimeout (startSt 5))).rd F.PWR_STATUS_failed = 1 := by decide +kernel
theorem wit_perst : (wOn).pwr.off = false ∧ (wOn).dark = false ∧ (wOn).pcie.perst = false ∧
    (let s : State := { wOn with pcie := { perst := true }, pwr := { (wOn).pwr with resetHeld := true } }; s.pcie.perst = true ∧ s.pwr.resetHeld = true ∧ s.dark = true) := by
  decide +kernel
theorem wit_domain : (wOn [(F.PWR_DOMAIN_on 23, 1)]).rd (F.PWR_DOMAIN_on 23) ≠ 0 ∧ (23 : Fin 30).val < 24 ∧ (wOn).domainVolts 23 1400 < (domainLimits 23).1 ∧ (wOn).domainVolts 26 1800 = 1800 ∧
    (after State.reset (exec (.domainFault 23 1400) (wOn [(F.PWR_DOMAIN_on 23, 1)]))).rd (F.PWR_DOMAIN_fault 23) = 1 := by decide +kernel
/-- The hottest threshold holds at die 0. -/
def hotSt : State := { wOn with pwr := { (wOn).pwr with thermal := [(0, 64)] } }
theorem wit_hot : hotSt.hot 0 ≠ 0 ∧ bitOf (hotSt.hot 0) 6 = true ∧ min (hotSt.hottest 0 [114 * 16 + 15, 0, 0] / 16) 255 < 115 := by decide +kernel
theorem test_trip : (after State.reset (exec (.dieTempSample 0 [115 * 16, 0, 0]) wOn)).pwr.off = true := by decide +kernel
theorem wit_ramp : ((due 8 1 wOn).takeDue 8).isSome = true ∧ kget ({ siteQ := [(0, [7])] } : Pwr).siteQ 0 [] = [7] ∧ (wOn).safe.pretest = none := by decide +kernel
theorem wit_mothball : (wOn).pwrSt = 1 ∧ (wOn [(F.HUB_PCIE_STATUS_link_up, 1)]).linkUp = true ∧ (wOn [(F.PWR_STATUS_state, 4)]).pwrSt = 4 ∧ (wOn).noBayHeld = true ∧
    (wOn).snapState = 0 ∧ (List.range 16).all (fun k => ((wOn).stack k).rd F.HBM_RET_STATUS_state == 0) = true ∧ (wOn [(F.PWR_STATUS_state, 5)]).pwrSt = 5 := by
  decide +kernel
theorem test_mothball : (after State.reset (exec (.mothball .cpc) wOn)).pwrSt = 4 ∧ (after State.reset (exec .mothballEntry (wOn [(F.PWR_STATUS_state, 4)]))).pwrSt = 2 := by
  decide +kernel
theorem test_wake : (after State.reset (exec .wakeComplete (wOn [(F.PWR_STATUS_state, 5)]))).pwrSt = 1 := by decide +kernel

/-! Signed commands, attestation and firmware. The key pair is the private key 1; the vendor and owner 1 hold its hash. -/

/-- A signature by the private key 1 with the scalar 1: r is the base point's x, s the digest plus r. -/
def wSig (m : List Byte) : List Byte := beBytes 48 (g384.1 % n384) ++ beBytes 48 ((beNat (sha384 m) + g384.1) % n384)
def wKey : List Byte := [4] ++ beBytes 48 g384.1 ++ beBytes 48 g384.2
/-- A signed command: code, slot, the key's kind. -/
def wSigned (code slot kind : Nat) : List Byte :=
  let b := leBytes 4 0x444D4353 ++ leBytes 2 code ++ leBytes 2 slot ++ leBytes 16 0 ++ leBytes 8 (if code = 1 then 7 else 0) ++ leBytes 96 0
  b ++ leBytes 2 kind ++ leBytes 6 0 ++ wKey ++ leBytes 7 0 ++ wSig b
/-- Lifecycle `lc`, with the command in the CPC's buffer. -/
def secSt (lc code slot kind : Nat) : State :=
  let s := wOn [(F.SEC_STATUS_lifecycle, lc), (F.SEC_OWNER_registered 1, 1)]
  { s with regs := rputBytes s.regs (secBuf 1) (wSigned code slot kind) 42, stow := {},
           sec := { vendorKey := beNat (sha384 wKey), owners := [(1, beNat (sha384 wKey))], bootDone := true } }
theorem wit_sec : bankOfMaster .cpc = some 1 ∧ (secSt 1 3 0 1).lets .cpc (secCtrl 1) = true ∧ (secSt 1 3 0 1).secReady = true ∧
    (secSt 1 3 0 1).secBytes 1 = wSigned 3 0 1 ∧ le (wSigned 3 0 1) 4 2 = 3 ∧ (secSt 0 1 2 0).secCheck 1 (wSigned 1 2 0) = some (4, 0) := by decide +kernel
theorem wit_sec_register : (secSt 1 1 2 1).secCheck 1 ((secSt 1 1 2 1).secBytes 1) = none := by decide +kernel
theorem wit_sec_revoke : (secSt 2 2 4 1).secCheck 1 ((secSt 2 2 4 1).secBytes 1) = none := by decide +kernel
theorem wit_sec_deploy : (secSt 1 3 0 1).secCheck 1 ((secSt 1 3 0 1).secBytes 1) = none := by decide +kernel
theorem wit_sec_return : (secSt 2 4 0 1).secCheck 1 ((secSt 2 4 0 1).secBytes 1) = none := by decide +kernel
theorem wit_sec_unlock : (secSt 3 5 0 0).secCheck 1 ((secSt 3 5 0 0).secBytes 1) = none := by decide +kernel
theorem test_sec_bad_nonce : let s := (secSt 1 3 0 1).wr (F.SEC_NONCE_nonce 1) 1
    s.secCheck 1 (s.secBytes 1) = some (3, 0) := by decide +kernel
theorem wit_spdm : let s := { wOn [(F.HUB_PCIE_STATUS_link_up, 1)] with sec := { bootDone := true } }
    s.linkUp = true ∧ s.dark = false ∧ s.secReady = true ∧ (wOn).secReady = false ∧
    (after s (exec .getVersion s)).out = [.spdm [0x10, 0x04, 0, 0, 0, 1, 0, 0x13]] := by decide +kernel

/-- A device whose firmware store is in state `n`. -/
def fwSt (n : Nat) (f : Fw → Fw := id) (l : List (Fld × Nat) := []) : State :=
  let s := wOn ((F.HUB_FW_STATUS_state, n) :: l)
  { s with fw := f s.fw }
theorem wit_fw : (fwSt 0).lets .cpc fwCtrl = true ∧ ([0, 1, 2, 3, 4, 5, 6, 7].map (fun n => (fwSt n).fwState)) = [0, 1, 2, 3, 4, 5, 6, 7] ∧
    (fwSt 3).rd F.PWR_STATUS_state ≠ 3 ∧ (after State.reset (exec (.fwPrepare .cpc) (fwSt 7))).fw.preparing = true := by decide +kernel
theorem wit_fw_stage : let s := fwSt 1 id [(F.HUB_FW_LEN_length, 464), (F.HUB_FW_SRC_addr, 2 ^ 48 + 0x10000000000 + 5 * 0x400000)]
    (s.hubRead 0 (s.rd F.HUB_FW_SRC_addr) 464 none []).2.isSome = true ∧ ((fwSt 1).hubRead 0 (2 ^ 48 + 2 ^ 47) 464 none []).2 = none := by decide +kernel
theorem wit_fw_chunk : let s := fwSt 2 (fun f => { f with chunks := [(0, [7], none)] })
    s.fw.chunks = [(0, [7], none)] ∧ s.fwState = 2 ∧ s.fwInactive = 1 := by decide +kernel
theorem wit_relay : let s := fwSt 2 (fun f => { f with id := 5, count := 2, done := [0] }) [(F.HUB_FW_RELAY_prev, 2)]
    s.dark = false ∧ s.shuns 2 = false ∧ s.image.members.contains 2 = true ∧ s.rd F.HUB_FW_RELAY_prev = 2 ∧ s.fw.count = 2 ∧ s.fw.id = 5 ∧
    s.fw.done.contains 0 = true ∧ s.fw.done.contains 1 = false ∧
    (after s (exec (.relay 2 5 9 1 2 5 [1]) s)).fw.chunks = [(1, [1], some (2, 5, 9))] ∧ (fwSt 2).rd F.HUB_FW_RELAY_prev ≠ 1 := by decide +kernel
theorem wit_relayRetry : (fwSt 2 (fun f => { f with sent := [(0, 8, 0)] })).fw.sent = [(0, 8, 0)] ∧
    (fwSt 2 (fun f => { f with sent := [(0, 7, 0)] })).fw.sent = [(0, 7, 0)] := by decide +kernel
/-- A boot image with nothing but its header and its signature. -/
def wBoot : List Byte :=
  let b := leBytes 4 0x4D524946 ++ leBytes 2 1 ++ [1, 255] ++ leBytes 8 0 ++ leBytes 4 464 ++ leBytes 236 0
  b ++ leBytes 8 0 ++ wKey ++ leBytes 7 0 ++ wSig b
def wBank : Mem := { cells := ((List.range 464).zip wBoot).filter (fun c => c.2 != 0) }
theorem wit_boot : ({ wOn with sec := { vendorKey := beNat (sha384 wKey) } } : State).bootFit wBank = true := by decide +kernel
theorem wit_boot_bad : (wOn).bootFit {} = false := by decide +kernel
theorem wit_schedule : ((fwSt 3 id [(F.HUB_FW_ACT_TN_tn, 50)]).enterAct 50 5 1 3).2.1 = 0 ∧ ((fwSt 3).enterAct 0 5 1 3).2.1 ≠ 0 := by decide +kernel
theorem wit_activate : let s := due 5 1 (fwSt 4)
    (s.takeDue 5).isSome = true ∧ s.fwState = 4 ∧ s.snapState = 0 ∧ s.dumpState = 0 ∧ (after s (exec .fwActivate s)).fwState = 5 ∧
    (after s (exec .fwActivate (s.wr F.HUB_SNAP_STATUS_state 1))).fwState = 3 := by decide +kernel
theorem wit_fallback : (fwSt 5 (fun f => { f with active := true })).fw.active = true ∧ (fwSt 6 (fun f => { f with active := true })).fwState ≠ 5 := by decide +kernel
theorem wit_confirm_fw : let s := fwSt 6 id [(F.TB_STATUS_state, 2), (F.SEC_FUSE_image_svn, 3)]
    s.fwState = 6 ∧ s.rd F.TB_STATUS_state = 2 ∧ (after s (exec (.fwConfirm true) s)).rd F.SEC_FUSE_svn = 3 := by decide +kernel
theorem wit_sec_checking : (secSt 1 3 0 1).secChecking 1 = false ∧ ({ secSt 1 3 0 1 with sec := { (secSt 1 3 0 1).sec with checking := some (0, 5) } } : State).secChecking 1 = true ∧
    ({ secSt 1 3 0 1 with sec := { (secSt 1 3 0 1).sec with checking := some (1, 5) } } : State).secChecking 1 = false := by decide +kernel

/-! The host link, the shelf port and the I3C target. -/

def linked : State := wOn [(F.HUB_PCIE_STATUS_link_up, 1)]
theorem wit_msix : linked.linkUp = true ∧ linked.dark = false ∧ linked.pcie.waiting.contains 2047 = false ∧ linked.fw.active = false ∧
    ({ linked with pcie := { waiting := [2047] } } : State).pcie.waiting.contains (2047 : Fin 2048).val = true := by decide +kernel
theorem test_msix : let s : State := { linked with pcie := { waiting := [2047] } }
    (after s (exec (.msixUnmask 2047) s)).out = [.msix 2047] := by decide +kernel
theorem wit_link : (wOn).linkUp = false ∧ (wOn).dark = false ∧ (wOn).pcie.perst = false ∧ (after State.reset (exec .hostLinkDown linked)).linkUp = false := by decide +kernel
/-- The shelf engine in state `n`. -/
def shSt (n : Nat) : State := { wOn [(F.SHELF_STATUS_state, n)] with shelf := { owned := true } }
theorem wit_shelfCmds : (shSt 2).lets .cpc shelfCtrl = true ∧ (shSt 2).snap.job = none ∧ (shSt 2).rd F.SHELF_STATUS_state = 2 ∧ (shSt 3).rd F.SHELF_STATUS_state ≠ 2 ∧
    (shSt 2).shelf.owned = true ∧ (after State.reset (exec (.shelfRelease .cpc) (shSt 2))).rd F.SHELF_STATUS_state = 3 := by decide +kernel
theorem wit_i3c : (wOn).pwr.aux = true ∧ (wOn).i3c.addr = none ∧ ({ wOn with i3c := { addr := some 8 } } : State).i3c.addr ≠ none ∧ 9 ≤ (wOn).i3c.mwl ∧
    i3cItem 0xFF = none ∧ (i3cItem 3).isSome = true ∧ (wOn).pwr.off = false := by decide +kernel
theorem test_i3c : (after State.reset (exec (.i3cPrivateWrite [3] wStart) wOn)).i3c.index = 3 ∧
    (after State.reset (exec .getmwl wOn)).out = [.i3c [0, 16]] := by decide +kernel

/-! The stowage block and the package. -/

/-- The stowage block in state `n`. -/
def wSt (n : Nat) (l : List (Fld × Nat) := []) : State := wOn ([(F.HUB_STOW_STATUS_state, n)] ++ l)
theorem wit_stow : (wSt 0).lets .cpc stowCtrl = true ∧ ([0, 1, 2, 3, 5].map (fun n => (wSt n).stowState)) = [0, 1, 2, 3, 5] ∧
    (wSt 3).rd F.HUB_STOW_SWAP_TN_tn < (wSt 3).tn + 2 ∧ (wSt 3 [(F.HUB_STOW_SWAP_TN_tn, 2)]).tn + 2 ≤ 2 ∧ (wSt 3).on F.HUB_STOW_STATUS_warm_only = false ∧
    (wSt 3 [(F.HUB_STOW_STATUS_warm_only, 1)]).on F.HUB_STOW_STATUS_warm_only = true ∧ ((wSt 3).enterAct 2 4 0 3).2.1 = 0 := by decide +kernel
theorem test_stow : (after State.reset (exec (.stowLoad .cpc) (wSt 0))).stowState = 1 ∧
    (after State.reset (exec (.stowSchedule .cpc) (wSt 3 [(F.HUB_STOW_SWAP_TN_tn, 2)]))).stowState = 4 := by decide +kernel
/-- A copy of 8 bytes from the host is due. -/
def copySt : State := { wSt 1 [(F.HUB_STOW_LEN_length, 8), (F.HUB_PCIE_STATUS_link_up, 1)] with stow := { copyOp := some 2 } }
theorem wit_stowCopy : copySt.stow.copyOp = some 2 ∧
    (match (({ copySt with stow := { copySt.stow with copyOp := none } } : State).stowBytes (List.replicate 8 1) none []).2 with
     | .ok b => b == List.replicate 8 1
     | .error _ => false) = true ∧
    (match (({ copySt with stow := { copySt.stow with copyOp := none } } : State).stowBytes [] (some 5) []).2 with
     | .ok _ => false
     | .error o => o == 0) = true := by decide +kernel
theorem test_stowCopy_short : (after State.reset (exec (.stowCopyComplete (List.replicate 8 1) none []) copySt)).rd F.HUB_STOW_STATUS_error = 1 := by decide +kernel
/-- A swap due, an image staged that moves nothing. -/
def swapSt : State := { due 4 0 (wSt 4) with stow := { inForce := some wImage, staged := some { wImage with generation := 1 } } }
theorem wit_swap : (swapSt.takeDue 4 (fun a => a.arg % 256 == 0)).isSome = true ∧ swapSt.stowState = 4 ∧ swapSt.stow.staged.isSome = true ∧
    ((wImage.bays ++ wImage.bays).any (fun d => wImage.affected { wImage with generation := 1 } d.id && (swapSt.bay d.id).holder.isSome)) = false ∧
    (wImage.affected { wImage with bays := [] } 0 && ({ holder := some 0 } : Bay).holder.isSome) = true := by decide +kernel
theorem test_swap : (after State.reset (exec .tableSwap swapSt)).stowState = 2 ∧ (after State.reset (exec .tableSwap swapSt)).image.generation = 1 := by decide +kernel
/-- The sections of a stowage image: no skipped site, bay 0 with tile 5, one region, no access record, this device alone, source 2; no signature. -/
def wStow : List Byte :=
  let dir := fun (t o l : Nat) => leBytes 2 t ++ leBytes 2 0 ++ leBytes 4 o ++ leBytes 4 l ++ leBytes 4 0
  leBytes 4 0x574F5453 ++ leBytes 2 2 ++ leBytes 2 6 ++ leBytes 4 8968 ++ leBytes 2 1 ++ leBytes 2 1200 ++ leBytes 8 0 ++ leBytes 8 1 ++ leBytes 4 0 ++
  leBytes 28 0 ++ dir 1 160 160 ++ dir 2 320 160 ++ dir 5 480 64 ++ dir 6 544 0 ++ dir 8 544 8200 ++ dir 9 8744 16 ++
  (List.replicate 80 (leBytes 2 0xFF)).flatten ++ leBytes 8 0 ++ leBytes 152 0x20 ++
  leBytes 8 0x10000000000 ++ leBytes 16 0 ++ leBytes 8 1 ++ leBytes 8 0 ++ leBytes 8 (2 ^ 30) ++ leBytes 16 0 ++
  leBytes 2 1 ++ leBytes 2 1 ++ leBytes 4 0 ++ leBytes 8192 2 ++ leBytes 8 2 ++ leBytes 8 1000 ++ List.replicate 208 0
/-- 02 R26 to R36, R39: the checks of its form and of its sections pass. -/
theorem test_stow_checks : (stowForm wStow 8968).isNone = true ∧ (stowDir wStow).isNone = true ∧ (stowSections wStow (imageOf wStow)).isNone = true ∧
    (stowCross wStow (imageOf wStow)).isNone = true := by decide +kernel
/-- A sound bridge flit of number 0 and kind `k`, and its fields. -/
def wBridge (k : Nat) : List Byte := closed (leBytes 2 0 ++ leBytes 1 k ++ leBytes 249 0)
theorem wit_bridge (k : Nat) : (wBridge k).length = 256 ∧ le (wBridge k) 252 4 = (crc32 ((wBridge k).take 252)).toNat :=
  wit_crc _ (by simp only [List.length_append, leBytes_length])
theorem wit_bundle : (wOn).bundleDown 375 = false ∧ (wOn).bundleTraining 375 = false ∧ ((wOn).bundle 375).expect = 0 ∧ le (wBridge 0) 2 1 % 16 ≠ 3 ∧
    le (wBridge 3) 2 1 % 16 = 3 ∧ le (wBridge 0) 0 1 = 0 ∧ ((wOn).bundle 375).failing = none ∧ ({ training := true } : Bundle).training = true := by decide +kernel
theorem test_retrainEnd : let s := (wOn).setBundle 375 { training := true, retrains := 2 }
    ((after s (exec (.bridgeRetrainEnd 375 false) s)).bundle 375).down = true ∧ ((after s (exec (.bridgeRetrainEnd 375 true) s)).bundle 375).training = false := by
  decide +kernel
theorem wit_oe : ((wOn).oe true).isolated = false ∧ devOf (2 ^ 48 + apertureBase true) = (wOn).devId ∧
    (wOn).check (.oe true) (apertureBase true + 0xFFF8) 8 2 false = (wOn, .ok (.reg (apertureBase true + 0xFFF8 - 0xFFFFFC000000))) ∧
    (wOn).check (.oe true) (apertureBase true) 4 1 false = (wOn, .ok (.reg (apertureBase true - 0xFFFFFC000000))) ∧
    apertureBase true + 0x10000 < apertureBase true + 0xFFFC + 8 := by decide +kernel
theorem test_oe : let s := after wOn (exec (.oeRequest true true (BitVec.ofNat 64 (2 ^ 48 + apertureBase true)) 4 [1, 2, 3, 4]) wOn)
    (s.oe true).aperture.get 3 = 4 := by decide +kernel
theorem wit_chain_port : (wOn).chainEnable = false ∧ (wOn [(F.SEC_STATUS_debug, 1)]).chainEnable = true ∧
    (after State.reset (exec (.tckEdge true true false) (wOn [(F.SEC_STATUS_debug, 1)]))).pkg.tap.st = .reset := by decide +kernel
theorem wit_isolated : ((after State.reset (.next ((wOn).isolate true))).oe true).isolated = true := by decide +kernel
theorem test_isolated : let s := (wOn).isolate true
    ((after s (exec (.ucieTrained true true) s)).oe true).trained = false := by decide +kernel

/-! S, M and V: the rest of the clauses. -/

theorem wit_global_misaligned : runs (sSt (wI 0x0A 4 2 0)) (sI (wI 0x0A 4 2 0)) 0x0A = true ∧ runs (sSt (wI 0x0B 4 2 0)) (sI (wI 0x0B 4 2 0)) 0x0B = true ∧
    runs (sSt (0x0C + 2 ^ 7 * 3 + 2 ^ 12 * 2)) (sI (0x0C + 2 ^ 7 * 3 + 2 ^ 12 * 2)) 0x0C = true ∧
    (t5 (exec (.ldG (sI (wI 0x0A 4 2 0))) (sSt (wI 0x0A 4 2 0)))).rd F.TILE_S_ABORT_cause = 2 ∧
    (t5 (exec (.stG (sI (0x0C + 2 ^ 7 * 3 + 2 ^ 12 * 2))) (sSt (0x0C + 2 ^ 7 * 3 + 2 ^ 12 * 2)))).rd F.TILE_S_ABORT_cause = 2 := by decide +kernel
/-- Eight loads and 16 stores of S are outstanding. -/
def tabSt (x : Tile) : Tile :=
  { gAl x with
    loads := (List.range 8).map (fun k => ⟨k, 0, 0, 9, 0x700000000 + 64 * k, true, []⟩)
    stores := (List.range 16).map (fun k => ⟨k, 2, 0, 0x800000000 + 64 * k, 0xFF, 4, 0, false, false, false, [], []⟩) }
theorem wit_tables_full : (tabSt (sTile 0)).loadsFull = true ∧ (tabSt (sTile 0)).storesFull = true ∧
    runs (sSt (wI 0x0A 4 2 0) tabSt) (sI (wI 0x0A 4 2 0)) 0x0A = true ∧
    (t5 (exec (.ldG (sI (wI 0x0A 4 2 0))) (sSt (wI 0x0A 4 2 0) tabSt))).rd F.TILE_S_STATUS_stall = 7 ∧
    (t5 (exec (.stG (sI (0x0C + 2 ^ 7 * 3 + 2 ^ 12 * 2))) (sSt (0x0C + 2 ^ 7 * 3 + 2 ^ 12 * 2) tabSt))).rd F.TILE_S_STATUS_stall = 7 ∧
    runs (sSt (wY 0x29 9 3 2) tabSt) (sI (wY 0x29 9 3 2)) 0x29 = true := by decide +kernel
/-- A load of S for the same location that itself waits. -/
def hSt' (x : Tile) : Tile := { gAl x with loads := [⟨2, 1, 0, 9, 0x500000008, true, [1]⟩], nextTag := 3 }
theorem wit_load_waits_for_load : (hSt' (sTile 0)).storesAt 0 0x500000008 = [] ∧ (hSt' (sTile 0)).loadsHeld 0x500000008 ≠ [] := by decide +kernel
theorem wit_signalR_own : let s := sSt (wY 0x29 9 3 2) (fun x => { x with g := [(2, 0x01400000), (3, 0x100)] })
    runs s (sI (wY 0x29 9 3 2)) 0x29 = true ∧ devOf ((s.tile 5).pair 2) = s.devId ∧ s.signalTile ((s.tile 5).pair 2 % 2 ^ 48) = some 5 := by decide +kernel
theorem wit_halt_failed : runs (sSt 0x3F (fun x => { x with fails := [0] })) (sI 0x3F) 0x3F = true ∧
    (t5 (exec (.halt (sI 0x3F)) (sSt 0x3F (fun x => { x with fails := [0] })))).rd F.TILE_S_ABORT_cause = 10 := by decide +kernel
theorem wit_fence_remote : ({ sTile 0 with swait := .fenceRemote 4 2, stores := [⟨2, 3, 0, 0, 0, 4, 0, false, false, false, [], []⟩] } : Tile).stores.all
    (fun e => e.own || e.signal || decide (2 ≤ e.tag)) = true := by decide +kernel
/-- S stalled on counter 9, which holds 8, in a cycle that a signal has opened. -/
def pollT (w : SWait) : Tile := { (sTile 0).setCtr 0 9 8 with swait := w, opened := some ⟨7, 0, 3, 1, true⟩ }
theorem wit_s_polls : satisfies ((pollT .none).ctr 9) 8 = true ∧ satisfies ((pollT .none).ctr 9) 9 = false ∧
    (pollT (.counter 9 8 true true)).endCycle.ctr 9 = 0 ∧ (pollT (.counter 9 8 false false)).endCycle.swait = .none ∧
    (pollT (.counter 9 9 false false)).endCycle.swait = .counter 9 9 false false ∧ (pollT (.landing 2 0 false)).endCycle.swait = .none ∧
    satisfies ((pollT .none).rd (F.TILE_LC_count 2)) 1 = false := by decide +kernel
/-- A header that waits for counter 9 to reach `n`. -/
def headT (n : Nat) (seen rel : Bool) : Tile :=
  (sTile 0).setCtr 0 9 8 |>.setQ 1 [{ cmdOf [(1, 1, 2), (3, 1, 9), (8, 4, n)] with seen := seen, rel := rel }]
theorem wit_poll_head : let h : Cmd := { cmdOf [(1, 1, 2), (3, 1, 9), (8, 4, 8)] with seen := true, rel := false }
    (headT 8 true false).q 1 = [h] ∧ h.waitCtr = 9 ∧ h.waitThr = 8 ∧ satisfies ((headT 8 true false).ctr 9) 8 = true ∧
    (((headT 8 true false).pollHead 0 0 1).q 1).map (·.rel) = [true] ∧ satisfies ((headT 9 true false).ctr 9) 9 = false ∧
    (((headT 8 false false).pollHead 0 0 1).q 1).map (·.rel) = [false] := by decide +kernel
theorem wit_head_ready : ((eSt 0 []).tile 5).q 0 = [cmdOf []] ∧ ((eSt 0 []).tile 5).rd F.TILE_MM_STATUS_pk1 ≠ 1 := by decide +kernel

theorem wit_mSeed_ecc : let l := [(0, 1, 2), (16, 1, 1), (17, 1, 2), (20, 2, 2)]
    (t5 (exec (.mSeed 5 (.uncorrectable 128)) (eSt 0 l))).rd F.TILE_S_ABORT_cause = 0x15 ∧
    (t5 (exec (.mMma 5 (.uncorrectable 128)) (eSt 0 wMma mOn))).state = 3 := by decide +kernel
theorem wit_mDrain_ecc : (cmdOf wDrain).mDigest = false ∧ ((eSt 0 wDrain (fun x => { mOn x with drain := some { cmd := {}, chain := 3 } })).tile 5).drain.isSome = true := by decide +kernel
theorem wit_mmaEnd : ((after State.reset (exec (.mMma 5 .ok) (eSt 0 wMma mOn))).tile 5).mmaRun.isSome = true := by decide +kernel
theorem wit_mDone : let x : Tile := { mRun := [cmdOf [], cmdOf wDrain, cmdOf wMma] }
    x.mDone = [cmdOf [], cmdOf wDrain, cmdOf wMma] ∨ x.mDone[0]? = some (cmdOf []) := by decide +kernel
theorem wit_cell_run : ([] : List (Val × Val × Int)).length % 2 = 0 ∧ (Val.decode .h16 0x3C00).isNan = false ∧ (Val.decode .h16 0x3C00).isZero = false ∧
    (Val.nan).isNan = true ∧ (Val.zero).isZero = true ∧ (Val.decode .h16 0x3C00).isNum = true := by decide +kernel
theorem wit_vRun_bounds : let l := [(0, 1, 1), (16, 2, 1), (18, 1, 1), (32, 8, 2 + 2 ^ 8 * 2 + 2 ^ 20 * 0x3FFFFF)]
    (vCheck (cmdOf l)).1 = 0 ∧ (cmdOf l).op = 1 := by decide +kernel
theorem wit_vMv_ecc : (t5 (exec (.vMv 5 (.uncorrectable 0)) (eSt 1 wVmv))).state = 3 := by decide +kernel

/-! V's faults, tiles ending, chains, requests and register writes: the rest of the clauses. -/

theorem wit_vRun_word : let w := 1 + 2 ^ 8 * 2 + 2 ^ 14 * 49151
    wMem w = true ∧ wMem (w + 1) = true ∧ (spadSize : Int) < memAddr w 0 + memSize w ∧ memAddr (1 + 2 ^ 30 * 65535) 1 < 0 ∧
    0 ≤ memAddr 1 0 ∧ memAddr 1 0 + memSize 1 ≤ (spadSize : Int) ∧ wOp 1 ≠ 2 ∧ eccHits (.uncorrectable 8) 0 (memSize 1) = true ∧
    wMem 0x10 = false ∧ ({ st := State.reset, ecc := .ok, stop := some (3, 0, 0) } : VRun).stop.isSome = true := by decide +kernel
theorem wit_tileFault : (tAt 1).live = true ∧ (tAt 3).live = false ∧
    KMap.wf (tAt 1).endCycle.abortClear.clearWaiting.regs = true := by decide +kernel
theorem test_tileFault : let x := ((bSt (tAt 1)).tileFault 5 .d 0x25 9 0).tile 5
    x.state = 3 ∧ x.rd F.TILE_S_ABORT_cause = 0x25 ∧ x.rd F.TILE_S_ABORT_INFO_pc = 9 ∧
    (((bSt (tAt 3)).tileFault 5 .d 0x25 9 0).tile 5).rd F.TILE_S_ABORT_cause = 0 := by decide +kernel
/-- Queue 0 in FENCING. -/
def fencing : State := let s := bSt (tAt 4) [] {}; s.setQueue 0 ((s.queue 0).wr F.FE_Q_STATE_state 5)
theorem wit_bayReset_queue : (fencing.queue 0).state = 5 ∧ fencing.baysOf 0 = [] ∧ fencing.stopped = false ∧
    ((after State.reset (exec (.bayReset 0 (some 0)) fencing)).queue 0).rd F.FE_Q_DESTROY_escalated = 1 := by decide +kernel
theorem wit_bayResetEnd : ((bSt (tAt 4) [] { resetAt := some 0 }).bay 0).resetAt.isSome = true ∧ ((bSt (tAt 4) [] { resetAt := some 0 }).bay 0).holder = none ∧
    ((bSt (tAt 4) [] { resetAt := some 0, holder := some 0 }).bay 0).holder = some 0 := by decide +kernel
theorem wit_quiescent_destroy : let s := bSt ((tAt 3).wr F.TILE_D_STATUS_quiescent 1)
    let s1 := s.setQueue 0 ((s.queue 0).wr F.FE_Q_STATE_state 4)
    (s1.queue 0).state = 4 ∧ (s1.bay 0).holder = some 0 := by decide +kernel
/-- Tile 5 drains chain 3, whose last hop it is, tile 6 its first. -/
def chSt (l : List (Nat × KMap (List (BitVec 40) × Bool))) : State :=
  let d : Tile := { tAt 1 with drain := some { cmd := {}, chain := 3, rows := [wRow] }, chainIn := l }
  { (rSt {}) with tiles := [(5, d), (6, d)] }
theorem wit_chainRun : let s := chSt [(3, [(0, wRow, false)])]
    (s.tile 5).drain = some { cmd := {}, chain := 3, rows := [wRow] } ∧ s.image.chain? 3 = some ⟨3, 0, [⟨6, 0⟩, ⟨5, 0⟩]⟩ ∧
    (⟨3, 0, [⟨6, 0⟩, ⟨5, 0⟩]⟩ : ChainDef).place? 6 = some 0 ∧ (s.tile 5).rowIn 3 0 = some (wRow, false) ∧ ((chSt []).tile 5).rowIn 3 0 = none := by decide +kernel
theorem wit_passRow : (⟨3, 0, [⟨6, 0⟩, ⟨5, 0⟩, ⟨2, 2⟩]⟩ : ChainDef).hops[1]? = some ⟨5, 0⟩ ∧ (⟨3, 0, [⟨6, 0⟩, ⟨5, 0⟩, ⟨2, 2⟩]⟩ : ChainDef).hops[2]? = some ⟨2, 2⟩ ∧
    (⟨3, 0, [⟨6, 0⟩, ⟨5, 0⟩, ⟨2, 2⟩]⟩ : ChainDef).hops[3]? = none ∧ bits (BitVec.ofNat 64 (2 ^ 47)) 47 1 = 1 := by decide +kernel
theorem wit_chain_arrives : (chSt []).arrived (.chainRow 5 3 63 wRow) = chSt [] ∧ wRow.length = 64 := by decide +kernel
theorem wit_forwarders : let v : Vault := { live := true, fwd := [(0, List.range 32)] }
    (40 : Nat) ∉ kget v.fwd 0 [] ∧ 32 ≤ (kget v.fwd 0 []).length ∧ (40 : Nat) ≠ (rSt v).devId ∧ eccBad .ok = false := by decide +kernel
theorem wit_returned_all : let l : KMap (List Byte) := (List.range 63).map (fun k => (k, []))
    64 ≤ (kput l 63 (List.replicate 320 0)).length := by decide +kernel
theorem wit_chain_mismatch : ∀ e h l, (⟨4, 0, [⟨2, 1⟩]⟩ : ChainDef).hops = e :: h :: l → ¬ (e.kind = 1 ∧ e.id = 2 ∧ h.kind = 0) := by intro e h l q; simp at q
theorem wit_write_aborting : let s := bSt (tAt 3)
    (s.tile 5).aborting = true ∧ namesLc (.bay 1) = true ∧ s.bayOf 5 ≠ some 1 ∧ namesLc .cpc = false ∧
    reqTooLong (wReq (.bay 0) 0) 256 = false := by decide +kernel
theorem wit_asleep : let s := wOn [(F.PWR_STATUS_state, 2)]
    s.pwrMb = true ∧ s.permits .cpc (.spad 5 0) 2 false = true ∧ s.target 0 1 = .hbm ⟨0, 0x1000000, 16, 0, 0, 0⟩ ∧ (wOn [(F.PWR_STATUS_state, 2)]).dark = false := by decide +kernel
theorem wit_read_ecc : let e : BurstErr := ⟨0, [(3, 3)], 0, 0⟩
    e.burst < (0 % 8 + 8 + 7) / 8 ∧ 1 < flips e ∧ flips ⟨0, [(3, 1)], 0, 0⟩ = 1 ∧ [e].find? (fun e => 1 < flips e) = some e ∧ aOn.bayOf 5 = some 0 := by decide +kernel
/-- Snapshot 3 in COPYING, all its issued bytes acknowledged but 64. -/
def ackSt (l : List (Fld × Nat)) : State :=
  { (wOn [(F.HUB_SNAP_STATUS_state, 2), (F.HUB_SNAP_STATUS_snapshot, 3)]).wrs l with snap := { State.reset.snap with issued := 64 } }
theorem wit_hub_answer : (ackSt []).snapState = 2 ∧ (ackSt []).fenced = false ∧ copyTag < 2 ^ 23 ∧
    (BitVec.ofNat 32 (2 ^ 23 + 5) : Word).toNat % 2 ^ 24 - 2 ^ 23 = 5 := by decide +kernel
theorem wit_regWrite_merge : (7 : Nat) < 64 ∧ (0x1018 : Nat) % 8 = 0 ∧ (0x101C : Nat) % 8 = 4 := by decide +kernel
theorem wit_regPlaces : (regPlace 0x1018).row?.isSome = true ∧ (match regPlace 0x1018 with | .hub _ => true | _ => false) = true ∧
    (regPlace (tileOff 5 0x1110)).row?.isSome = true ∧ regPlace (tileOff 5 0x1110) = .tile 5 0x1110 ∧
    (Place.tile 5 0x1110).row?.map (fun r => widthOk r 2) = some false ∧ (Place.tile 5 0x1110).row?.map (fun r => widthOk r 8) = some true ∧
    (regPlace (queueOff 5 0)).row?.map (fun r => widthOk r 2) = some false ∧ (trimLimit 0x1018).isNone = true := by decide +kernel
theorem wit_control : wOn.controlOf (.regWrite .cpc 0x1018 2 0) = some (.cpc, 0x1018, 2) ∧ wOn.controlOf (.regWrite .debug 0x1018 8 0) = some (.debug, 0x1018, 8) ∧
    wOn.permits .debug (wOn.target (0xFFFFFC000000 + 0x1018) 8) 2 false = false ∧ wOn.stop.replay = none ∧
    wOn.target (0xFFFFFC000000 + 0x3FFFFF8) 8 = .unmapped := by decide +kernel

/-! The front end, HBM, links, the timebase, the image and the package: the rest of the clauses. -/

theorem wit_launch_tile : KMap.wf (tAt 0).regs = true ∧ (1199 : Nat) < 2 ^ 32 ∧ (255 : Nat) < 256 ∧
    ((tAt 0).launch ⟨0, 9, 2, 0, 64, 2 ^ 33, 0, false⟩ 5 0 0 0).gr 5 = 0 ∨ ((tAt 0).launch ⟨0, 9, 2, 0, 64, 2 ^ 33, 0, false⟩ 5 0 0 0).gr 1 = 5 := by decide +kernel
theorem wit_confirms : (([0, 3, 4, 5, 6].map (fun c => ((qSt [(0, 1, 4)] (fun x => { waiting x with confirm := [c] })).queue 0).confirm)) =
    [[0], [3], [4], [5], [6]]) := by decide +kernel
theorem wit_copy_in_doubt : ((cSt 2).copyWrite 1 64 [0] (cut256 2 64 1)).2 = 1 := by decide +kernel

/-- The region of the image, its first burst. -/
def wRegion : Region := ⟨0, 0x1000000, 16, 0, 0, 0⟩
theorem wit_hbm_place : (wOn.image.place wRegion 0).2 % 32 = 0 % 32 ∧ (wOn.image.place wRegion 0xFFFFE1).2 % 32 = 0xFFFFE1 % 32 ∧ wOn.hbm.wf = true ∧
    wOn.hbmBad.contains 0 = false ∧ 0xFFFFE1 % 32 + 31 ≤ 32 := by decide +kernel
theorem test_hbm_reads_back : let w := wOn.hbmWrite wRegion 64 64 (List.replicate 32 7) []
    (w.1.hbmRead wRegion 64 32 0 []).2 = some (List.replicate 32 7) ∧ (w.1.hbmRead wRegion 96 32 0 []).2 ≠ some (List.replicate 32 7) := by decide +kernel
theorem wit_rs : rsDecode [] [] = some [] ∧ (∀ b ∈ syndromes [], b = 0) ∧
    (chooseUpTo 2 [5, 6]).length = 4 := by decide +kernel

theorem wit_lane : (3 : Fin 32).val < 16 ∧ ((pSt 3).port 3).laneBad 8 = false ∧ 2 ≤ ((pSt 2).port 3).rd F.LNK_STATUS_state ∧
    ((pSt 0).port 3).rd F.LNK_STATUS_state = 0 ∧ ((wOn).isolate true).oe (decide (24 ≤ 31)) = ((wOn).isolate true).oe true := by decide +kernel
theorem test_lane_both : let s := pSt 3 (fun x => x.wrs [(F.LNK_STATUS_bad_lanes, 0x10), (F.LNK_CFG_spare_en, 0)])
    ((s.markLane 3 0).port 3).rd F.LNK_STATUS_state = 0 ∧ ((s.markLane 3 5).port 3).rd F.LNK_STATUS_state = 4 := by decide +kernel
theorem wit_width_trained : let s := pSt 1 (fun x => x.wr F.LNK_STATUS_bad_lanes 0x11)
    (s.port 3).widthLost = true ∧ ((after State.reset (exec (.linkTrained 3) s)).port 3).rd F.LNK_STATUS_state = 0 := by decide +kernel
theorem wit_membership_hops : let s := wOn
    s.grp.heard.contains (2, 8) = false ∧ 32 ≤ (31 : Byte).toNat + 1 ∧
    ((after State.reset (exec (.membership 3 2 8 0 false 31) s)).port 3).rd F.LNK_DROPS_hop_limit = 1 := by decide +kernel
theorem wit_heartbeat : 2 ≤ (wOn).image.members.length ∧ (wOn).pwrMb = false ∧ (wOn).grp.resume = 0 ∧
    ((List.range 32).filter (pSt 3).portUp) = [3] := by decide +kernel
theorem wit_present : let s := { wOn with grp := { wOn.grp with latest := [(2, 5)] } }
    (2 : Nat) ≠ s.devId ∧ s.grpPresent 7 2 = true ∧ s.grpPresent 8 2 = false ∧ s.grpPresent 8 1 = true := by decide +kernel
/-- Two members, the anchor 1: this device alone holds half with the anchor; device 2 fenced it. -/
def gSt' (anchor n : Nat) : State :=
  { wOn [(F.HUB_GRP_STATUS_state, n)] with stow := { inForce := some { wImage with anchor := anchor } } }
theorem wit_evaluate : wImage.members.map ((gSt' 1 0).grpPresent 9) = [true, false] ∧ (gSt' 1 0).grpPresent 9 1 = true ∧ (gSt' 2 0).grpPresent 9 2 = false ∧
    (gSt' 2 1).rd F.HUB_GRP_STATUS_state = 1 ∧ (gSt' 1 2).rd F.HUB_GRP_STATUS_state = 2 := by decide +kernel
theorem test_fenced_guilty : ((({ gSt' 2 1 with queues := (qSt []).queues } : State).evaluate 9).queue 0).state = 2 := by decide +kernel
theorem wit_fenced_drop : let s := wOn [(F.HUB_GRP_STATUS_state, 2)]
    s.fenced = true ∧ (2 : BitVec 16).toNat ≠ s.devId ∧ s.dark = false ∧
    (after State.reset (exec (.reduce 2 1 0 0 0 5 [] .ok false) s)).rd F.HUB_GRP_COUNTS_fenced_drops = 1 := by decide +kernel

theorem wit_fires : let s := { tSt 0 2 with tb := { (tSt 0 2).tb with pend := [⟨7, 0, 2, 0, 1⟩, ⟨3, 0, 2, 0, 1⟩, ⟨4, 0, 7, 0, 1⟩, ⟨9, 5, 1, 0, 1⟩] } }
    (sortActs (s.tb.pend.filter (fun a => a.tn == s.tn))).map (·.slot) = [4, 3, 7] ∧ (s.dropWhy ⟨7, 0, 2, 0, 1⟩ = none) ∧ s.tn = 0 := by decide +kernel
theorem wit_dropWhy : (wOn [(F.PWR_STATUS_state, 2)]).dropWhy ⟨7, 0, 2, 0, 1⟩ = some false ∧ (stopped 0).dropWhy ⟨7, 0, 3, 0, 1⟩ = some false ∧
    (wOn [(F.HUB_GRP_STATUS_state, 2)]).dropWhy ⟨7, 0, 2, 0, 1⟩ = some true := by decide +kernel
theorem freeSlots_full : freeSlots ((List.range 1024).map (fun k => ⟨k, 9, 1, 0, 1⟩)) = [] := by simp [freeSlots]
theorem wit_stow_full (s : State) (h : s.tb.pend = (List.range 1024).map (fun k => ⟨k, 9, 1, 0, 1⟩)) (ht : s.tn + 2 ≤ 2) : (s.enterAct 2 4 0 3).2.1 = 2 := by
  unfold State.enterAct
  rw [if_neg (by omega), h, freeSlots_full]
theorem wit_stow_full_late : (wSt 3 [(F.HUB_STOW_SWAP_TN_tn, 2)]).tn + 2 ≤ 2 := by decide +kernel
theorem wit_stow_discard : let p := fun (tn : Nat) => ({ wSt 4 with tb := { (wSt 4).tb with pend := [⟨0, tn, 4, 0, 3⟩] } } : State)
    (∀ x ∈ (p 9).tb.pend, isStowSwap x = true → (p 9).committed x = false) ∧ (∀ x ∈ (p 9).tb.due, isStowSwap x = false) ∧
    (∃ x ∈ (p 1).tb.pend, isStowSwap x = true ∧ (p 1).committed x = true) ∧ (∃ x ∈ (due 4 0 (wSt 4)).tb.due, isStowSwap x = true) := by decide +kernel
theorem wit_bridge_retrain : let s := fun (n : Nat) => (wOn).setBundle 375 { retrains := n }
    ((s 2).bundle 375).training = false ∧ ((s 2).bundle 375).down = false ∧ ((s 2).bridgeRetrain 375).bundleDown 375 = true ∧
    (((s 1).bridgeRetrain 375).bundle 375).training = true := by decide +kernel

/-! Snapshots, the safety monitor, power, security, firmware, the host and the shelf port: the rest of the clauses. -/

theorem wit_shelf_late : let s := { nSt 4 with shelf := { readAt := some 5, cmdAt := some 3 } }
    s.snapState = 4 ∧ s.shelf.readAt = some 5 ∧ (after s (exec .shelfCmdTimeout s)).rd F.HUB_SNAP_STATUS_error = 0x10 ∧ (nSt 0).snapState ≠ 4 := by decide +kernel
theorem wit_restore_kinds : (nSt 0 id [(F.HUB_SNAP_SRC_kind, 1), (F.SHELF_STATUS_state, 2)]).rd F.HUB_SNAP_SRC_kind = 1 ∧
    (nSt 0 id [(F.HUB_SNAP_SRC_kind, 1), (F.SHELF_STATUS_state, 2)]).rd F.SHELF_STATUS_state = 2 ∧ (nSt 0).rd F.HUB_SNAP_SRC_kind ≠ 1 ∧
    (nSt 0).restoreCheck { wSrc with reachable := false } ≠ none := by decide +kernel

theorem wit_tested : (testSt.testingTile 5 = true) ∧ (after State.reset (exec (.selftestDone (.tile 5) true [] (some 16)) testSt)).rd F.SAFE_COUNTS_contained = 1 := by
  decide +kernel
theorem wit_pretest_started : let b := (wOn).repairSite 7 9 15
    ({ b with safe := { b.safe with pretest := some (3, 4) } } : State).safe.pretest.isSome = true ∧ (10 : BitVec 4).toNat ≥ 10 ∧
    ((wOn [(F.PWR_STATUS_state, 0)]).repairSite 7 9 15).pwrOn = false := by decide +kernel
/-- A first CORRECTED record of kind 3 at unit 2, and the state after it. -/
def wRec : Rec := { sev := 1, cls := 9, kind := 3, unit := 2 }
theorem wit_merge : (wOn).recMerges wRec = false ∧ ((wOn).record wRec).recMerges wRec = true ∧ ((wOn).record wRec).recMerges { wRec with sev := 2 } = false ∧
    (((wOn).record wRec).record wRec).rd F.SAFE_COUNTS_corrected = 2 ∧ (((wOn).record wRec).record wRec).safe.recs = 1 := by decide +kernel
theorem wit_order : let s := (wOn).record { wRec with sev := 2 }
    (s.recAfter (recBytes 1 s.tn s.sinceEdge 1 { wRec with sev := 3 }) 1 1).isSome = true ∧
    (s.recAfter (recBytes 1 s.tn s.sinceEdge 1 { wRec with sev := 1 }) 1 1) = none := by decide +kernel
/-- A full ring, with no record put. -/
def fullSt : State := { wOn with safe := { full := 1, recs := 600 } }
theorem wit_full : 512 ≤ fullSt.recUnread ∧ (wOn).recUnread < 512 ∧
    (fullSt.placeRec wRec).rd F.SAFE_REC_PTR_lost = 1 := by decide +kernel

theorem wit_starts : let s := wOn
    (s.pwr.retained = false ∧ s.pcie.perst = false ∧ s.pwrSt ≠ 3) ∧ ({ s with pwr := { s.pwr with retained := true } } : State).pwr.retained = true ∧
    s.rd F.PWR_STATUS_warm_fails < 3 ∧ (wOn [(F.PWR_STATUS_warm_fails, 3)]).rd F.PWR_STATUS_warm_fails = 3 ∧ wStart.crcBad = false ∧
    ({ s with pwr := { s.pwr with vioKept := true } } : State).pwr.vioKept = true := by decide +kernel
/-- A sample of the supply. -/
def wPower (w avg : Nat) (near : Bool) : PowerIn := ⟨48000, 100, BitVec.ofNat 16 w, BitVec.ofNat 16 avg, 0, near⟩
theorem wit_share : let s : State := { wOn with time := 10 * msCycles, pwr := { (wOn).pwr with power := 2 } }
    (s.powerShare (wPower 11501 0 false)).1 = 4 ∧ (s.powerShare (wPower 11500 65535 false)).1 = 0 ∧ (s.powerShare (wPower 0 0 true)).1 = 0 ∧
    ((wPower 11500 65535 false).average.toNat + 100 ≥ s.rd F.PWR_BUDGET_sustained_w) ∧
    (let u := s.wr F.PWR_BUDGET_sustained_w 9600; (u.powerShare (wPower 0 0 false)).1 = 3 ∧ ¬ u.rd F.PWR_BUDGET_sustained_w ≤ (wPower 0 0 false).average.toNat + 100) := by
  decide +kernel

theorem wit_spdm_cases : let s := { wOn [(F.HUB_PCIE_STATUS_link_up, 1)] with sec := { bootDone := true } }
    (1 : Byte) ≠ 0 ∧ s.measSummary 2 = none ∧ s.measSummary 0 = some [] ∧ (7 : Byte).toNat ≤ 7 ∧ 7 < (8 : Byte).toNat ∧ (8 : Byte).toNat ≠ 255 ∧
    ({ s with sec := {} } : State).secReady = false := by decide +kernel
theorem wit_fwVerify : let s : State := { fwSt 2 id [(F.HUB_DIE_CAP_step_num 0, 1)] with sec := { vendorKey := beNat (sha384 wKey) } }
    s.fwVerify wBank (some 464) none = none := by decide +kernel
theorem wit_fwVerify_bad : ((fwSt 2).fwVerify {} (some 464) none).isSome = true ∧ (fwSt 2).rd F.PWR_STATUS_state ≠ 3 ∧ ((fwSt 2).wr F.PWR_STATUS_state 3).rd F.PWR_STATUS_state = 3 := by
  decide +kernel
theorem wit_relay_first : let s := fwSt 1 id [(F.HUB_FW_RELAY_prev, 2)]
    s.fwState = 1 ∧ (2 : BitVec 16).toNat = s.rd F.HUB_FW_RELAY_prev ∧ (after s (exec (.relay 2 5 9 0 2 5 [1]) s)).fw.chunks = [(0, [1], some (2, 5, 9))] ∧
    ({ fwSt 1 with fw := { toSend := [4, 5] } } : State).fw.toSend = [4, 5] := by decide +kernel
theorem wit_activate_blocked : (1 ≤ (fwSt 4 id [(F.HUB_DUMP_STATUS_state, 3)]).dumpState) ∧ (fwSt 4 id [(F.HUB_DUMP_STATUS_state, 3)]).dumpState ≤ 3 := by decide +kernel
theorem wit_offers : (wOn [(F.PWR_STATUS_state, 3)]).offers 0x718 = true ∧ (wOn [(F.PWR_STATUS_state, 3)]).offers 0x20 = false ∧ (wOn).offers 0x20 = true := by decide +kernel

theorem wit_bar4 : linked.linkUp = true ∧ (0x8000 ≤ 0x8000 ∧ 13 % 16 = 13 ∧ 0x7FFC % 16 = 12) ∧
    (linked.msixPut 0x7FFC 0).pcie.unmasked = [2047] ∧ ((linked.msixPut 0x7FFC 0).msixPut 0x7FFC 1).pcie.unmasked = [] := by decide +kernel
/-- PERST_N released and the PCIe domain on, in step 1 of a start, or at its step 2. -/
def cfgSt (step : Nat) : State := wOn [(F.PWR_STATUS_state, 0), (F.PWR_STATUS_step, step), (F.PWR_DOMAIN_on 26, 1), (F.HUB_PCIE_STATUS_link_up, 1)]
theorem wit_config : (cfgSt 1).configOpen = true ∧ (cfgSt 1).beforeFuses = true ∧ (cfgSt 2).beforeFuses = false ∧ (cfgSt 2).linkUp = true ∧ leNat [(11 : Byte)] ≤ 11 ∧
    ((cfgSt 2).configWrite [11] .resizableBar).pcie.bar2Gib = 2048 ∧ HostSpace.resizableBar ≠ .bar2 ∧ HostSpace.resizableBar ≠ .bar4 := by decide +kernel
theorem wit_release_job : let s : State := { shSt 2 with snap := { (shSt 2).snap with job := some ⟨3, 1, 0, 0, 0, 1, [], 0, 2, 0⟩ } }
    s.snap.job ≠ none ∧ (after s (exec (.shelfRelease .cpc) s)).snap.job = none := by decide +kernel
theorem wit_i3c_address : let a := wOn
    (0x5C : BitVec 7) ≠ 0x5D ∧ a.i3c.address = 0x5D ∧ a.i3c.address < 128 ∧ ({ a with i3c := { addr := some 8 } } : State).i3c.address = 8 ∧
    (after a (exec (.setdasa 9 0x5D) a)).i3c.addr = some 9 ∧ (8 : BitVec 7).toNat ≠ a.i3c.address ∧
    (after a (exec (.i3cPrivateWrite [3] wStart (some 8)) a)).i3c.index = 0 := by decide +kernel

end Sys2Proof.Tests
end

section
/-! The block as a whole: a step is the front command's meaning, and every command's meaning answers a next state. -/

namespace Sys2Proof.Machine

/-- Settles O1: the queue is empty or has a front command, and `step` has one case for each. -/
theorem aStepRunsTheFrontCommand : Obligations.AStepRunsTheFrontCommand := by
  refine ⟨fun s c rest hfront => ?_, fun s hempty => ?_⟩
  · simp only [step, hfront]
  · simp only [step, hempty]

/-- The outcome is a next state: neither a fault nor a refusal. -/
def Res.Answers (r : Res) : Prop := ∃ t, r = .next t

theorem ok_answers (s : State) : (ok s).Answers := ⟨s, rfl⟩

theorem ite_answers {c : Prop} [Decidable c] {a b : Res} (ha : a.Answers) (hb : b.Answers) : Res.Answers (if c then a else b) := by
  split
  · exact ha
  · exact hb

/-- Every command answers a next state. A meaning is built of `ok` under conditions and case distinctions; the rows are taken by the way they
branch, and every branch ends in `ok`. -/
theorem exec_answers (c : Instr) (s : State) : Res.Answers (exec c s) := by
  cases c
  -- Rows of a tick action: whether one is due, then what the state lets it do.
  case globalStop | snapshotCut | phaseStart | tableSwap | hbmTableSwap | fwActivate | selftestSlot | counterSample | powerRamp =>
    dsimp only [exec, execGlobalStop, execSnapshotCut, execPhaseStart, execTableSwap, execHbmTableSwap, execFwActivate, execSelftestSlot,
      execCounterSample, execPowerRamp]
    (repeat' split) <;> exact ok_answers _
  -- Rows that look for something: an answer of a check, a waiting request, a holder, an entry.
  case regWrite | oeRequest | stowCopyComplete | read | signalPacket | powerGrant | engineCommandComplete | tileFinish | bayAbort | tileQuiescent |
    reduce | dRespTimeout | writeAckTimeout | ringFetch | copyUnitDone | fencePoll | tickWaitExpiry | fenceWriteConfirm | bayReset | egressStallDrop
    | snapRelease | snapCommitTimeout | snapCommitPoll | shelfIoComplete | restoreComplete | engineWatchdog | selftestDone | pretestDone |
    sitePowerUp | fwChunkProgrammed | fwRelayRetry | hostMemWrite | hostMemRead | tckEdge | pwrBudgetRead =>
    dsimp only [exec, execRegWrite, execOeRequest, execStowCopyComplete, execRead, execSignalPacket, execPowerGrant, execEngineCommandComplete,
      execTileFinish, execBayAbort, execTileQuiescent, execReduce, execDRespTimeout, execWriteAckTimeout, execRingFetch, execCopyUnitDone,
      execFencePoll, execTickWaitExpiry, execFenceWriteConfirm, execBayReset, execEgressStallDrop, execSnapRelease, execSnapCommitTimeout,
      execSnapCommitPoll, execShelfIoComplete, execRestoreComplete, execEngineWatchdog, execSelftestDone, execPretestDone, execSitePowerUp,
      execFwChunkProgrammed, execFwRelayRetry, execHostMemWrite, execHostMemRead, execTckEdge, execPwrBudgetRead]
    (repeat' split) <;> exact ok_answers _
  -- Rows under conditions alone.
  case bridgeFlit | bridgeRetrainEnd | ucieTrained | auxPowerOn | vinReturn | startRetry | stepTimeout | tickInEdge | tickFrame | tick |
    tickEdgeMissing | tickLockTimeout | delayReq | delayResp | stopDoneSend | landAck | unreachable | mDrain | arrayClockGate | bayRelease |
    dAbortTimeout | hbmScrub | hbmRowCopyDone | linkFlit | linkTrained | linkTrainTimeout | linkRetrainTimeout | hello | membership | snapAckTimeout
    | safetyDegraded | domainFault | dieTempSample | mothballEntry | wakeComplete | dumpCopyDone | fwPrepareDone | relay | fwActivationDone |
    fwConfirm | msixUnmask | perstAssert | perstRelease | hotReset | hostD3hot | hostD0 | hostLinkDown | shelfCmdTimeout | shelfHealthPoll |
    hostLinkUp =>
    (repeat' refine ite_answers ?_ ?_) <;> exact ok_answers _
  -- Every other row answers one state, and its conditions stand inside that state.
  all_goals exact ok_answers _

/-- Settles O2. -/
theorem noRowsMeaningStops : Obligations.NoRowsMeaningStops := exec_answers

end Sys2Proof.Machine
end

section
/-! Writes at their targets: the answers of the check, the scratchpad window, and O30. -/

namespace Sys2Proof.Machine

/-! What the check of a request answers, outcome by outcome (04 R70 to R72, R80 to R84; 18 R401). -/

section Check
variable {s : State} {m : Master} {a n kind : Nat} {byD : Bool}

/-- Outside the register window no width or alignment is asked for: what maps nothing is unmapped. -/
theorem State.check_unmapped (ha : a < 0xFFFFFC000000) (ht : s.target a n = .unmapped) :
    s.check m a n kind byD = ((s.logAccess true (masterCode m) 0xFFFF kind (s.global a)).logAbsent a, .unmapped) := by
  simp [State.check, Nat.not_le.2 ha, ht]

theorem State.check_denied (ha : a < 0xFFFFFC000000) (ht : s.target a n ≠ .unmapped) (hp : s.permits m (s.target a n) kind byD = false) :
    s.check m a n kind byD = (s.logAccess false (masterCode m) (s.target a n).code kind (s.global a), .denied) := by
  simp [State.check, Nat.not_le.2 ha, ht, hp]

/-- In MOTHBALL a permitted request of HBM or a scratchpad finds it asleep. -/
theorem State.check_asleep (ha : a < 0xFFFFFC000000) (hp : s.permits m (s.target a n) kind byD = true) (hmb : s.pwrMb = true)
    (ht : (∃ g, s.target a n = .hbm g) ∨ ∃ t o, s.target a n = .spad t o) :
    s.check m a n kind byD = (s.logs .PWR_ASLEEP [masterCode m, a], .asleep) := by
  obtain ⟨g, ht⟩ | ⟨t, o, ht⟩ := ht <;> rw [ht] at hp <;> simp [State.check, Nat.not_le.2 ha, ht, hp, hmb]

theorem State.check_permitted (ha : a < 0xFFFFFC000000) (ht : s.target a n ≠ .unmapped) (hp : s.permits m (s.target a n) kind byD = true)
    (hmb : s.pwrMb = false) : s.check m a n kind byD = (s, .ok (s.target a n)) := by
  simp [State.check, Nat.not_le.2 ha, ht, hp, hmb]

end Check

/-! Writes (11 R233, R237). -/

/-- A write once its check has answered. -/
def State.writeDecided (m : Master) (r : Req) (lc : Nat) (data : List Byte) (errs : List BurstErr) : State × Check → State
  | (c, .ok u) => c.writeAt m r lc data errs u
  | (c, .denied) => c.replyWrite r .denied 0xFF 0
  | (c, .unmapped) => c.replyWrite r .unmapped 0xFF 0
  | (c, .asleep) => c.replyWrite r .dropped 0xFF 0
  | (c, .misaligned) => c.replyWrite r .ok 0xFF 0

/-- A write to this device is carried to its target and decided by the check there. -/
theorem State.writeAs_of_own {s : State} {m : Master} {r : Req} {lc : Nat} {data : List Byte} {errs : List BurstErr}
    (hdev : devOf r.addr.toNat = s.devId) :
    s.writeAs m r lc data errs = State.writeDecided m r lc data errs
      ((s.carryIn r data.length 1 (writePacket s.devId s.devId r lc data) data.length).check m (r.addr.toNat % 2 ^ 48) data.length 2
        (r.eng == some .d)) := by
  simp only [State.writeAs, State.forAnother, hdev, bne_self_eq_false, Bool.false_and, Bool.false_eq_true, if_false, ne_eq,
    not_true_eq_false]
  split <;> simp only [State.writeDecided, *]

/-- A write that arrives and is taken under a master's code is performed by `writeAs`. -/
theorem exec_write_of_take {s : State} {r : Req} {data : List Byte} {lc : Byte} {errs : List BurstErr} {m : Master}
    (hdark : s.dark = false) (hdata : data ≠ []) (hlen : reqTooLong r data.length = false) (hstop : s.stopsAt r = none)
    (harr : s.arrivalOf r = .take m) :
    exec (.write r data lc errs) s = .next (s.writeAs m { r with master := m } lc.toNat data errs).replayed := by
  have harrives : s.writeArrives r data lc errs = s.writeAs m { r with master := m } lc.toNat data errs := by
    simp [State.writeArrives, hdark, hdata, hlen, hstop, harr]
  exact congrArg (fun u : State => ok u.replayed) harrives

section WindowWrite
variable {s : State} {m : Master} {r : Req} {t o lc : Nat} {data : List Byte}

/-- The tile takes the write: it is not being aborted, or the write is of its own bay, or of a master whose writes name no landing counter
(log 51). -/
theorem State.windowWrite_of_taken (h : (s.tile t).aborting = false ∨ namesLc m = false ∨ ∃ b, m = .bay b ∧ s.bayOf t = some b.val) :
    s.windowWrite m r t o lc data =
      if namesLc m = true ∧ lc < 64 then ((s.spadWrite t o data).land t lc data.length).replyWrite r .ok lc data.length
      else (s.spadWrite t o data).replyWrite r .ok 0xFF data.length := by
  unfold State.windowWrite
  rw [if_neg (by obtain h | h | ⟨b, rfl, h⟩ := h <;> simp [h])]
  by_cases hnamed : namesLc m = true ∧ lc < 64 <;> simp [hnamed]

/-- A tile that is being aborted drops a write that comes from outside its bay (log 51). -/
theorem State.windowWrite_of_dropped (hab : (s.tile t).aborting = true) (hm : namesLc m = true)
    (hbay : ∀ b, m = .bay b → s.bayOf t ≠ some b.val) : s.windowWrite m r t o lc data = s.replyWrite r .dropped 0xFF 0 := by
  unfold State.windowWrite
  refine if_pos ?_
  cases m with
  | bay b => simp [hab, hm, hbay b rfl]
  | _ => simp [hab, hm]

end WindowWrite

/-- Settles O30: the write is decided by the check at its target, and each clause is one answer of that check. -/
theorem writesReachTheirTargets : Obligations.WritesReachTheirTargets := by
  unfold Obligations.WritesReachTheirTargets
  intro s r data lc errs m hdark hdata hlen hstop harr hdev a q c tgt byD n
  have run : exec (.write r data lc errs) s = .next (State.writeDecided m q lc.toNat data errs (c.check m a n 2 byD)).replayed := by
    rw [exec_write_of_take hdark hdata hlen hstop harr]
    exact congrArg (fun u : State => ok u.replayed) (State.writeAs_of_own (r := q) hdev)
  refine ⟨fun u hu => by rw [run, hu]; rfl, fun t o ht hp hmb ha => ?_, fun ha ht => ?_, fun ha ht hp => ?_, fun ha hp hmb ht => ?_⟩
  · have lands : exec (.write r data lc errs) s = .next (c.windowWrite m q t o lc.toNat data).replayed := by
      rw [run, State.check_permitted (by omega) (show tgt ≠ .unmapped by rw [ht]; exact nofun) hp hmb]
      exact congrArg (fun u : Target => ok (c.writeAt m q lc.toNat data errs u).replayed) ht
    refine ⟨fun htakes => ?_, fun hab hm hbay => ?_⟩
    · rw [lands, State.windowWrite_of_taken htakes]
    · rw [lands, State.windowWrite_of_dropped hab hm hbay]
  · rw [run, State.check_unmapped ha ht]; rfl
  · rw [run, State.check_denied ha ht hp]; rfl
  · rw [run, State.check_asleep ha hp hmb ht]; rfl

end Sys2Proof.Machine
end

section
/-! Register writes: the merged word bit by bit, what a write does at each place of the register window, and O35. -/

namespace Sys2Proof.Machine

/-! A register's word after a write (00 R7, R9). -/

theorem lane_testBit {off size i : Nat} (v : Nat) (hi : i < 64) (h : off % 8 = 0 ∧ (size = 8 ∨ size = 4) ∨ off % 8 = 4 ∧ size = 4) :
    (lane off size v).testBit i = (decide (size = 8 ∨ i / 32 = off % 8 / 4) && v.testBit (if size = 8 then i else i % 32)) := by
  obtain ⟨hoff, rfl | rfl⟩ | ⟨hoff, rfl⟩ := h
  · simp [-Nat.reducePow, lane, Nat.testBit_mod_two_pow, hi]
  · by_cases hlow : i < 32
    · simp [-Nat.reducePow, lane, hoff, Nat.testBit_mod_two_pow, hlow, Nat.mod_eq_of_lt]
    · simp [-Nat.reducePow, lane, hoff, Nat.testBit_mod_two_pow, hlow]
  · by_cases hlow : i < 32
    · simp [-Nat.reducePow, lane, hoff, Nat.testBit_shiftLeft, Nat.not_le.2 hlow]
      omega
    · have hdiv : i / 32 = 1 := by omega
      have hmod : i % 32 = i - 32 := by omega
      simp [-Nat.reducePow, lane, hoff, Nat.testBit_shiftLeft, Nat.testBit_mod_two_pow, Nat.le_of_not_lt hlow, hdiv, hmod]
      omega

/-- The bits that a write reaches are those that a word of ones would fill. -/
theorem reach_eq_lane (off size : Nat) : reach off size = lane off size (2 ^ 64 - 1) := by
  unfold reach lane
  split_ifs <;> rfl

theorem reach_testBit {off size i : Nat} (hi : i < 64) (h : off % 8 = 0 ∧ (size = 8 ∨ size = 4) ∨ off % 8 = 4 ∧ size = 4) :
    (reach off size).testBit i = decide (size = 8 ∨ i / 32 = off % 8 / 4) := by
  have hj : (if size = 8 then i else i % 32) < 64 := by split <;> omega
  rw [reach_eq_lane, lane_testBit _ hi h, Nat.testBit_two_pow_sub_one, decide_eq_true hj, Bool.and_true]

theorem mergeWrite_getLsbD (row : RegRow) (old : Dword) {off size i : Nat} (v : Nat) (hi : i < 64)
    (h : off % 8 = 0 ∧ (size = 8 ∨ size = 4) ∨ off % 8 = 4 ∧ size = 4) :
    (mergeWrite row old off size v).getLsbD i =
      if (size = 8 ∨ i / 32 = off % 8 / 4) ∧ row.rw.testBit i = true then v.testBit (if size = 8 then i else i % 32)
      else if (size = 8 ∨ i / 32 = off % 8 / 4) ∧ row.w1c.testBit i = true ∧ v.testBit (if size = 8 then i else i % 32) = true then false
      else old.getLsbD i := by
  simp only [mergeWrite, BitVec.getLsbD_or, BitVec.getLsbD_and, BitVec.getLsbD_not, BitVec.getLsbD_ofNat, hi, reach_testBit hi h,
    lane_testBit v hi h, decide_true, Bool.true_and]
  by_cases hit : size = 8 ∨ i / 32 = off % 8 / 4
  · cases row.rw.testBit i <;> cases row.w1c.testBit i <;> simp [hit, Bool.and_comm]
  · simp [hit]

/-! Writes of a TILE_ page by another master than the tile's own S (08 R169). -/

section TileWrite
variable {s : State} {m : Master} {t o size v : Nat} {row : RegRow} {src : Node}

theorem State.tileWrite_narrow (hrow : findRow tileRows (o - o % 8) = some row) (hw : widthOk row size = false) :
    s.tileWrite (some m) t o size v src = s.logs .REG_MISALIGNED [masterCode m, tileOff t o, size] := by
  simp [State.tileWrite, hrow, hw]

/-- A register of the page that starts nothing takes the merged word. -/
theorem State.tileWrite_plain (hrow : findRow tileRows (o - o % 8) = some row) (hw : widthOk row size = true)
    (hop : o - o % 8 ∉ [0x1118, 0x1A08, 0x1A10]) (hdig : ¬ (0x3000 ≤ o - o % 8 ∧ o - o % 8 < 0x4000 ∧ (o - o % 8) % 0x100 = 0)) :
    s.tileWrite (some m) t o size v src = s.setTile t
      { s.tile t with regs := rput (s.tile t).regs (o - o % 8) (mergeWrite row (rget (s.tile t).regs (o - o % 8)) o size v) } := by
  simp only [List.mem_cons, List.not_mem_nil, or_false, not_or] at hop
  obtain ⟨hprobe, hsignal, hset⟩ := hop
  simp [State.tileWrite, hrow, hw, hprobe, hsignal, hset, hdig]

end TileWrite

/-! Register writes by place (00 R7, R9). -/

section RegWriteAt
variable {s : State} {m : Master} {off size v : Nat} {src : Node} {p : Place} {row : RegRow}

theorem State.regWriteAt_tile {t o : Nat} (hp : regPlace off = .tile t o) :
    s.regWriteAt m off size v src = s.tileWrite (some m) t o size v src := by
  simp only [State.regWriteAt, hp]

/-- What a write of a register outside the TILE_ pages does: one of a width that the register does not take is logged, so is one that the
register ignores; any other is taken, and one that reaches the lower half starts its command. -/
theorem State.regWriteAt_of_row (hp : regPlace off = p) (hrow : p.row? = some row) (hnt : ∀ t o, p ≠ .tile t o) (hdbg : off / 8 * 8 ≠ 0x50100) :
    let w := mergeWrite row (s.regWord m p.reg) off size v
    let s1 := s.regTake m p.reg w (off % 8 == 0)
    (widthOk row size = false → s.regWriteAt m off size v src = s.logs .REG_MISALIGNED [masterCode m, off, size]) ∧
    (widthOk row size = true →
      (∀ e, s.regIgnores p.reg w = some e → s.regWriteAt m off size v src = s.logs e [off]) ∧
      (s.regIgnores p.reg w = none → s.regWriteAt m off size v src = if off % 8 = 0 then s1.regTrigger m v p.reg else s1)) := by
  cases p with
  | tile t o => exact absurd rfl (hnt t o)
  | aperture b o => simp [Place.row?] at hrow
  | gap => simp [Place.row?] at hrow
  | _ =>
    refine ⟨fun hw => ?_, fun hw => ⟨fun e he => ?_, fun he => ?_⟩⟩
    · simp only [State.regWriteAt, hp, hrow, if_neg hdbg, hw, Bool.not_false, if_true]
    · simp only [State.regWriteAt, hp, hrow, if_neg hdbg, hw, he, Bool.not_true, Bool.false_eq_true, if_false]
    · simp only [State.regWriteAt, hp, hrow, if_neg hdbg, hw, he, Bool.not_true, Bool.false_eq_true, if_false]

theorem State.regWriteAt_narrow (hp : regPlace off = p) (hrow : p.row? = some row) (hnt : ∀ t o, p ≠ .tile t o) (hdbg : off / 8 * 8 ≠ 0x50100)
    (hw : widthOk row size = false) : s.regWriteAt m off size v src = s.logs .REG_MISALIGNED [masterCode m, off, size] :=
  (State.regWriteAt_of_row hp hrow hnt hdbg).1 hw

theorem State.regWriteAt_ignored {e : EvName} (hp : regPlace off = p) (hrow : p.row? = some row) (hnt : ∀ t o, p ≠ .tile t o)
    (hdbg : off / 8 * 8 ≠ 0x50100) (hw : widthOk row size = true)
    (he : s.regIgnores p.reg (mergeWrite row (s.regWord m p.reg) off size v) = some e) : s.regWriteAt m off size v src = s.logs e [off] :=
  ((State.regWriteAt_of_row hp hrow hnt hdbg).2 hw).1 e he

theorem State.regWriteAt_taken (hp : regPlace off = p) (hrow : p.row? = some row) (hnt : ∀ t o, p ≠ .tile t o) (hdbg : off / 8 * 8 ≠ 0x50100)
    (hw : widthOk row size = true) (he : s.regIgnores p.reg (mergeWrite row (s.regWord m p.reg) off size v) = none) :
    s.regWriteAt m off size v src =
      let s1 := s.regTake m p.reg (mergeWrite row (s.regWord m p.reg) off size v) (off % 8 == 0)
      if off % 8 = 0 then s1.regTrigger m v p.reg else s1 :=
  ((State.regWriteAt_of_row hp hrow hnt hdbg).2 hw).2 he

/-- Where nothing starts at the place, the taken word is the whole effect. -/
theorem State.regWriteAt_inert (hp : regPlace off = p) (hrow : p.row? = some row) (hnt : ∀ t o, p ≠ .tile t o) (hdbg : off / 8 * 8 ≠ 0x50100)
    (hw : widthOk row size = true) (he : s.regIgnores p.reg (mergeWrite row (s.regWord m p.reg) off size v) = none)
    (hinert : ∀ u : State, u.regTrigger m v p.reg = u) :
    s.regWriteAt m off size v src = s.regTake m p.reg (mergeWrite row (s.regWord m p.reg) off size v) (off % 8 == 0) := by
  rw [State.regWriteAt_taken hp hrow hnt hdbg hw he]
  simp only [hinert, ite_self]

end RegWriteAt

/-! Hub-side registers. -/

theorem regPlace_eq_hub {off o : Nat} (h : regPlace off = .hub o) : o = off := by
  unfold regPlace at h
  (repeat' split at h) <;> cases h <;> rfl

theorem trimLimit_range {o lim : Nat} (h : trimLimit o = some lim) : 0x10100 ≤ o ∧ o < 0x10300 + 8 * 58 := by
  unfold trimLimit at h
  split_ifs at h <;> omega

/-- Registers whose write starts no command. -/
theorem State.hubTrigger_inert {s : State} {m : Master} {o v : Nat}
    (h : o = 0x300 ∨ o = 0x800 ∨ o = 0x30018 ∨ o = 0x40010 ∨ (0x10100 ≤ o ∧ o < 0x10300 + 8 * 58)) : s.hubTrigger m o v = s := by
  unfold State.hubTrigger
  simp (disch := omega) only [if_neg]

section HubWrite
variable {s : State} {m : Master} {off size v o : Nat} {row : RegRow}

/-- A hub-side register that the write leaves to `regTake` alone. -/
theorem State.regWriteAt_hub_inert (hp : regPlace off = .hub o) (hrow : (Place.hub o).row? = some row) (hw : widthOk row size = true)
    (hk : o / 8 * 8 = 0x300 ∨ o / 8 * 8 = 0x800 ∨ o / 8 * 8 = 0x30018 ∨ o / 8 * 8 = 0x40010 ∨
      (0x10100 ≤ o / 8 * 8 ∧ o / 8 * 8 < 0x10300 + 8 * 58)) :
    let w := mergeWrite row (rget s.regs (hubKey m (o / 8 * 8))) off size v
    (∀ e, s.regIgnores (.hub (o / 8 * 8)) w = some e → s.regWriteAt m off size v = s.logs e [off]) ∧
    (s.regIgnores (.hub (o / 8 * 8)) w = none → s.regWriteAt m off size v = s.regTake m (.hub (o / 8 * 8)) w (off % 8 == 0)) := by
  have ho := regPlace_eq_hub hp
  have hdbg : off / 8 * 8 ≠ 0x50100 := by omega
  exact ⟨fun e he => State.regWriteAt_ignored hp hrow nofun hdbg hw he,
    fun he => State.regWriteAt_inert hp hrow nofun hdbg hw he fun u => State.hubTrigger_inert hk⟩

/-- A hub-side register under no rule of its own takes the merged word, and a write of its lower half starts its command. -/
theorem State.regWriteAt_hub_plain (hp : regPlace off = .hub o) (hrow : (Place.hub o).row? = some row) (hw : widthOk row size = true)
    (hdbg : off / 8 * 8 ≠ 0x50100) (htrim : trimLimit (o / 8 * 8) = none) (hk : o / 8 * 8 ∉ [0x300, 0x800, 0x30018, 0x40010]) :
    s.regWriteAt m off size v =
      let s1 := s.setRegs (rput s.regs (hubKey m (o / 8 * 8)) (mergeWrite row (rget s.regs (hubKey m (o / 8 * 8))) off size v))
      if off % 8 = 0 then s1.hubTrigger m (o / 8 * 8) v else s1 := by
  simp only [List.mem_cons, List.not_mem_nil, or_false, not_or] at hk
  obtain ⟨hloft, hbar2, hbudget, hrec⟩ := hk
  rw [State.regWriteAt_taken hp hrow nofun hdbg hw (by simp [State.regIgnores, Place.reg, hloft, hbar2])]
  simp only [State.regTake, Place.reg, htrim, hbudget, hrec, false_and, if_false, State.setRegWord, State.regWord, State.regTrigger]

/-- HUB_LOFT_HOST is locked while the loft is enabled (10 R227). -/
theorem State.regWriteAt_loftHost (hp : regPlace off = .hub o) (hrow : (Place.hub o).row? = some row) (hw : widthOk row size = true)
    (hk : o / 8 * 8 = 0x300) :
    s.regWriteAt m off size v = if s.on F.HUB_LOFT_CTRL_enable = true then s.logs .REG_LOCKED [off]
      else s.setRegs (rput s.regs (hubKey m (o / 8 * 8)) (mergeWrite row (rget s.regs (hubKey m (o / 8 * 8))) off size v)) := by
  obtain ⟨hignored, htaken⟩ := State.regWriteAt_hub_inert (s := s) (m := m) (v := v) hp hrow hw (by omega)
  rw [hk] at hignored htaken ⊢
  split
  · next hon => exact hignored _ (by simp [State.regIgnores, hon])
  · next hoff => exact (htaken (by simp [State.regIgnores, hoff])).trans rfl

/-- HUB_BAR2_WINDOW takes a multiple of the size of BAR2 alone (22 R450). -/
theorem State.regWriteAt_bar2Window (hp : regPlace off = .hub o) (hrow : (Place.hub o).row? = some row) (hw : widthOk row size = true)
    (hk : o / 8 * 8 = 0x800) :
    let w := mergeWrite row (rget s.regs (hubKey m (o / 8 * 8))) off size v
    s.regWriteAt m off size v = if bits w 30 18 % s.pcie.bar2Gib = 0 then s.setRegs (rput s.regs (hubKey m (o / 8 * 8)) w)
      else s.logs .REG_LOCKED [off] := by
  obtain ⟨hignored, htaken⟩ := State.regWriteAt_hub_inert (s := s) (m := m) (v := v) hp hrow hw (by omega)
  rw [hk] at hignored htaken ⊢
  intro w
  split
  · next hfits => exact (htaken (by simp [State.regIgnores, w, hfits])).trans rfl
  · next hoff => exact hignored _ (by simp [State.regIgnores, w, hoff])

/-- PWR_BUDGET.sustained_w is brought into its range (18). -/
theorem State.regWriteAt_budget (hp : regPlace off = .hub o) (hrow : (Place.hub o).row? = some row) (hw : widthOk row size = true)
    (hk : o / 8 * 8 = 0x30018) :
    let w := mergeWrite row (rget s.regs (hubKey m (o / 8 * 8))) off size v
    s.regWriteAt m off size v = s.setRegs (rput s.regs (o / 8 * 8) (putBits w 0 16 (max 2000 (min 9600 (bits w 0 16))))) := by
  obtain ⟨-, htaken⟩ := State.regWriteAt_hub_inert (s := s) (m := m) (v := v) hp hrow hw (by omega)
  rw [hk] at htaken ⊢
  exact (htaken rfl).trans rfl

/-- A write of SAFE_REC_PTR.read gives its ring room again (17). -/
theorem State.regWriteAt_recPtr (hp : regPlace off = .hub o) (hrow : (Place.hub o).row? = some row) (hw : widthOk row size = true)
    (hk : o / 8 * 8 = 0x40010) :
    let s1 := s.setRegs (rput s.regs (hubKey m (o / 8 * 8)) (mergeWrite row (rget s.regs (hubKey m (o / 8 * 8))) off size v))
    s.regWriteAt m off size v = if off % 8 = 0 then { s1 with safe := { s1.safe with full := 0 } } else s1 := by
  obtain ⟨-, htaken⟩ := State.regWriteAt_hub_inert (s := s) (m := m) (v := v) hp hrow hw (by omega)
  rw [hk] at htaken ⊢
  rw [htaken rfl]
  simp [State.regTake, trimLimit, State.setRegWord, State.setRegs]

/-- A calibration register takes its user offset within its limit (03 R67). -/
theorem State.regWriteAt_trim {lim : Nat} (hp : regPlace off = .hub o) (hrow : (Place.hub o).row? = some row) (hw : widthOk row size = true)
    (hlim : trimLimit (o / 8 * 8) = some lim) :
    let c := clampUser lim (mergeWrite row (rget s.regs (hubKey m (o / 8 * 8))) off size v)
    let s2 := s.setRegs (rput s.regs (o / 8 * 8) c.1)
    s.regWriteAt m off size v = if c.2 = true then (s2.wr F.TB_EVENT_trim_clamped 1).raised .TRIM_CLAMPED [o / 8 * 8] else s2 := by
  have hr := trimLimit_range hlim
  have hkey : hubKey m (o / 8 * 8) = o / 8 * 8 := by
    unfold hubKey
    exact if_neg (by simp; omega)
  obtain ⟨-, htaken⟩ := State.regWriteAt_hub_inert (s := s) (m := m) (v := v) hp hrow hw (by omega)
  intro c s2
  rw [htaken (by unfold State.regIgnores; dsimp only; rw [if_neg (by omega), if_neg (by omega)])]
  simp only [State.regTake, hlim, State.setRegWord, hkey, c, s2]

end HubWrite

section QueueWrite
variable {s : State} {m : Master} {off size v q o : Nat} {row : RegRow}

/-- A queue's configuration is ignored outside DISABLED (13). -/
theorem State.regWriteAt_queue_busy (hp : regPlace off = .queue q o) (hrow : (Place.queue q o).row? = some row) (hw : widthOk row size = true)
    (hdbg : off / 8 * 8 ≠ 0x50100) (ho : o / 8 * 8 ≤ 0x10) (hst : (s.queue q).state ≠ 0) :
    s.regWriteAt m off size v = s.logs .FE_Q_BUSY [off] :=
  State.regWriteAt_ignored hp hrow nofun hdbg hw (if_pos ⟨ho, hst⟩)

/-- Any other register of a queue takes the merged word; the one that starts an operation is at 0x28. -/
theorem State.regWriteAt_queue_plain (hp : regPlace off = .queue q o) (hrow : (Place.queue q o).row? = some row) (hw : widthOk row size = true)
    (hdbg : off / 8 * 8 ≠ 0x50100) (hst : o / 8 * 8 ≤ 0x10 → (s.queue q).state = 0) (ho : o / 8 * 8 ≠ 0x28) :
    s.regWriteAt m off size v = s.setQueue q { s.queue q with
      regs := rput (s.queue q).regs (o / 8 * 8) (mergeWrite row (rget (s.queue q).regs (o / 8 * 8)) off size v) } :=
  State.regWriteAt_inert hp hrow nofun hdbg hw (if_neg fun h => h.2 (hst h.1)) fun _ => if_neg ho

end QueueWrite

/-! The rows. -/

theorem exec_regWrite_of_permitted {s : State} {m : Master} {off : BitVec 26} {size : Nat} {v : Dword} {tgt : Target} (hdark : s.dark = false)
    (hc : s.check m (0xFFFFFC000000 + off.toNat) size 2 false = (s, .ok tgt)) :
    exec (.regWrite m off size v) s = .next (s.regWriteAt m off.toNat size v.toNat).replayed := by
  show execRegWrite m off size v s = _
  simp [execRegWrite, hdark, hc, ok]

/-- A permitted read of PWR_BUDGET; the maximum restarts when the access covers it. -/
theorem exec_pwrBudgetRead_of_permitted {s : State} {m : Master} {off : BitVec 3} {size : Nat} {tgt : Target} (hdark : s.dark = false)
    (hc : s.check m (0xFFFFFC030018 + off.toNat) size 1 false = (s, .ok tgt)) :
    let s1 := s.sends (.completion .ok (s.regRead m (0x30018 + off.toNat) size))
    exec (.pwrBudgetRead m off size) s = .next (if size = 8 ∨ off.toNat = 4 then s1.budgetRead else s1) := by
  show execPwrBudgetRead m off size s = _
  simp only [execPwrBudgetRead, hdark, hc, ok, Bool.false_eq_true, if_false]

/-- Settles O35: what the merged word holds bit by bit, then one lemma for each kind of register. -/
theorem registerWritesAndReads : Obligations.RegisterWritesAndReads := by
  unfold Obligations.RegisterWritesAndReads
  refine ⟨fun row old off size v i hi h => mergeWrite_getLsbD row old v hi h, fun s m => ⟨fun off size v tgt hdark hc => ?_, fun h => ?_,
    fun h base => ?_, fun off tgt hdark hc => ?_, fun tgt hdark hc => ?_⟩⟩
  · intro ends
    have writes : ∀ {u}, s.regWriteAt m off.toNat size v.toNat = u → ends u := fun h => h ▸ exec_regWrite_of_permitted hdark hc
    refine ⟨writes rfl, fun row hrow hw hnt hdbg => writes (State.regWriteAt_narrow rfl hrow hnt hdbg hw), fun t o row hp hrow => ?_,
      fun p row hp hrow hw hdbg => ⟨?_, ?_, ?_, ?_⟩⟩
    · have tileWrites : ∀ {u}, s.tileWrite (some m) t o size v.toNat = u → ends u := fun h => writes ((State.regWriteAt_tile hp).trans h)
      exact ⟨fun hw => tileWrites (State.tileWrite_narrow hrow hw), fun hw hop hdig => tileWrites (State.tileWrite_plain hrow hw hop hdig)⟩
    · rintro o rfl
      exact ⟨fun htrim hk => writes (State.regWriteAt_hub_plain hp hrow hw hdbg htrim hk), fun hk => writes (State.regWriteAt_loftHost hp hrow hw hk),
        fun hk => writes (State.regWriteAt_bar2Window hp hrow hw hk), fun hk => writes (State.regWriteAt_budget hp hrow hw hk),
        fun hk => writes (State.regWriteAt_recPtr hp hrow hw hk), fun lim hlim => writes (State.regWriteAt_trim hp hrow hw hlim)⟩
    · rintro st o rfl
      exact writes (State.regWriteAt_taken hp hrow nofun hdbg hw rfl)
    · rintro k o rfl
      exact writes (State.regWriteAt_taken hp hrow nofun hdbg hw rfl)
    · rintro q o rfl
      exact ⟨fun ho hst => writes (State.regWriteAt_queue_busy hp hrow hw hdbg ho hst),
        fun hst ho => writes (State.regWriteAt_queue_plain hp hrow hw hdbg hst ho)⟩
  · exact ⟨congrArg ok (State.guarded_of_lets _ h), congrArg ok (State.guarded_of_lets _ h)⟩
  · exact congrArg ok (State.guarded_of_lets _ h)
  · rw [exec_pwrBudgetRead_of_permitted hdark hc]
    simp
  · rw [exec_pwrBudgetRead_of_permitted hdark hc]
    rfl

end Sys2Proof.Machine
end

section
/-! The package (01): logical tiles and sites, die bridges, optical engines, the test port, and O6 and O60. -/

namespace Sys2Proof.Machine

/-! Sites and logical tiles (01 R12, R13). -/

theorem RowMap.column_of_whole {r : RowMap} (h : r.absent = false) (l : Nat) : r.column l = if l < r.skip1 then l else l + 1 := by
  simp [RowMap.column, h]

/-- A logical tile's number gives its die, its row and its logical column back. -/
theorem Image.site_of_number (i : Image) (die : Nat) {row l : Nat} (hrow : row < 10) (hl : l < 15) :
    i.site (die * 150 + row * 15 + l) = die * 160 + row * 16 + (i.row die row).column l := by
  have hdie : (die * 150 + row * 15 + l) / 150 = die := by omega
  have hr : (die * 150 + row * 15 + l) % 150 / 15 = row := by omega
  have hc : (die * 150 + row * 15 + l) % 15 = l := by omega
  simp only [Image.site, hdie, hr, hc]

/-- Settles O6: the number splits into die, row and logical column, and a row without an absent tile skips one column. -/
theorem tilesAreNumberedPastSkippedColumns : Obligations.TilesAreNumberedPastSkippedColumns := by
  unfold Obligations.TilesAreNumberedPastSkippedColumns
  intro i die row L hdie hrow hL hwhole r t
  exact ⟨RowMap.column_of_whole hwhole L, i.site_of_number die hrow hL, by omega, rfl⟩

/-! Die bridges (01 R16 to R18). -/

section Flit
variable {s : State} {b : Fin 376} {flit : List Byte}

/-- A flit that is not whole, or whose CRC fails, fails the number expected; while a number is failing, only its resent copy does. -/
theorem exec_bridgeFlit_of_bad (hout : s.bundleOut b = false) (hbad : ¬ (flit.length = 256 ∧ le flit 252 4 = (crc32 (flit.take 252)).toNat))
    (hcopy : (s.bundle b).failing = none ∨ le flit 0 1 = (s.bundle b).expect) :
    exec (.bridgeFlit b flit) s = .next (s.bridgeFail b flit) := by
  show execBridgeFlit b flit s = _
  have hgood : (flit.length == 256 && le flit 252 4 == (crc32 (flit.take 252)).toNat) = false := by simpa using hbad
  simp only [execBridgeFlit, hout, hgood, Bool.not_false, Bool.false_eq_true, if_false, if_true, if_pos hcopy, ok]

variable (hout : s.bundleOut b = false) (hgood : flit.length = 256 ∧ le flit 252 4 = (crc32 (flit.take 252)).toNat)
include hout hgood

/-- A NAK brings its credits, and all that is kept from the failed number on is sent again. -/
theorem exec_bridgeFlit_of_nak (hnak : le flit 2 1 % 16 = 3) :
    exec (.bridgeFlit b flit) s = .next
      (((s.setBundle b ((s.bundle b).credited flit)).sendAll
        (((s.bundle b).sent.dropWhile (·.1 != le flit 1 1)).map (fun e => .bridgeFlit (opposite b) e.2.1))).bridgePump b) := by
  show execBridgeFlit b flit s = _
  simp [execBridgeFlit, hout, hgood, hnak, ok]

/-- A good flit of the expected number is accepted. -/
theorem exec_bridgeFlit_of_expected (hkind : le flit 2 1 % 16 ≠ 3) (hseq : le flit 0 1 = (s.bundle b).expect) :
    exec (.bridgeFlit b flit) s = .next (s.bridgeAccept b flit) := by
  show execBridgeFlit b flit s = _
  simp [execBridgeFlit, hout, hgood, hkind, hseq, ok]

end Flit

@[simp] theorem State.bundle_logs (s : State) (n : EvName) (a : List Nat) (c : Nat) : (s.logs n a).bundle c = s.bundle c := rfl

section Retrain
variable {s : State} {b : Nat}

theorem exec_bridgeRetrainEnd_good {b : Fin 376} (h : (s.bundle b).training = true) :
    exec (.bridgeRetrainEnd b true) s = .next
      ((((s.setBundle b { s.bundle b with training := false }).bridgeNak b (s.bundle b).expect).bridgeResume b).bridgeResume (opposite b)) := by
  show execBridgeRetrainEnd b true s = _
  simp [execBridgeRetrainEnd, h, ok]

theorem exec_bridgeRetrainEnd_failed {b : Fin 376} (h : (s.bundle b).training = true) :
    exec (.bridgeRetrainEnd b false) s = .next
      (if 2 ≤ (s.bundle b).retrains then s.bridgeDown b
        else s.setBundle b { s.bundle b with retrains := (s.bundle b).retrains + 1 }) := by
  show execBridgeRetrainEnd b false s = _
  simp only [execBridgeRetrainEnd, h, Bool.not_true, Bool.false_eq_true, if_false, ok]
  split <;> rfl

/-- A bundle that trains or is down is not retrained again. -/
theorem State.bridgeRetrain_of_busy (h : (s.bundle b).training = true ∨ (s.bundle b).down = true) : s.bridgeRetrain b = s := by
  simp [State.bridgeRetrain, h]

variable (ht : (s.bundle b).training = false) (hd : (s.bundle b).down = false)
include ht hd

/-- The third retrain of a bundle brings it down. -/
theorem State.bridgeRetrain_of_spent (h : 2 ≤ (s.bundle b).retrains) : s.bridgeRetrain b = s.bridgeDown b := by
  simp [State.bridgeRetrain, ht, hd, h]

theorem State.bridgeRetrain_of_left (h : (s.bundle b).retrains < 2) :
    s.bridgeRetrain b = (s.setBundle b { s.bundle b with
      retrains := (s.bundle b).retrains + 1, training := true, fails := 0 }).logs .BRIDGE_RETRAIN [b] := by
  simp [State.bridgeRetrain, ht, hd, h]

end Retrain

/-! Optical engines and their firewall (01 R20, R21). -/

section Engine
variable {s : State} {oe : Bool}

theorem exec_ucieTrained_of_isolated {fast : Bool} (h : (s.oe oe).isolated = true) : exec (.ucieTrained oe fast) s = .next s := by
  show execUcieTrained oe fast s = _
  simp [execUcieTrained, h, ok]

theorem exec_ucieTrained_fast (h : (s.oe oe).isolated = false) :
    exec (.ucieTrained oe true) s = .next (s.setOe oe { s.oe oe with trained := true, slow := false }) := by
  show execUcieTrained oe true s = _
  simp [execUcieTrained, h, ok]

theorem exec_ucieTrained_slow (h : (s.oe oe).isolated = false) :
    exec (.ucieTrained oe false) s = .next (((s.setOe oe { s.oe oe with trained := true, slow := true }).forEach (oePorts oe)
      (fun a p => a.setPort p ((a.port p).wr F.LNK_EVENT_ucie_slow 1))).raised .UCIE_SLOW [b2n oe]) := by
  show execUcieTrained oe false s = _
  simp [execUcieTrained, h, ok]

variable {addr : Dword} {size : Nat} {data : List Byte}

/-- What does not lie in the engine's own aperture is dropped by the firewall. -/
theorem exec_oeRequest_of_outside {w : Bool} (hiso : (s.oe oe).isolated = false)
    (hout : devOf addr.toNat ≠ s.devId ∨ addr.toNat % 2 ^ 48 < apertureBase oe ∨
      apertureBase oe + 0x10000 < addr.toNat % 2 ^ 48 + size) :
    exec (.oeRequest oe w addr size data) s = .next (s.firewall oe w addr.toNat size) := by
  show execOeRequest oe w addr size data s = _
  simp only [execOeRequest, hiso, Bool.false_eq_true, if_false, if_pos hout, ok]

section Inside
variable {tgt : Target} (hiso : (s.oe oe).isolated = false) (hdev : devOf addr.toNat = s.devId)
  (hlow : apertureBase oe ≤ addr.toNat % 2 ^ 48) (hhigh : addr.toNat % 2 ^ 48 + size ≤ apertureBase oe + 0x10000)
include hiso hdev hlow hhigh

/-- A write of the engine's own aperture that the access table permits. -/
theorem exec_oeRequest_write_of_permitted (hc : s.check (.oe oe) (addr.toNat % 2 ^ 48) size 2 false = (s, .ok tgt)) :
    exec (.oeRequest oe true addr size data) s = .next (s.setOe oe { s.oe oe with
      aperture := (s.oe oe).aperture.write (addr.toNat % 2 ^ 48 - apertureBase oe) (data.take size) }) := by
  show execOeRequest oe true addr size data s = _
  simp only [execOeRequest, hiso, hdev, Nat.not_lt.2 hlow, Nat.not_lt.2 hhigh, ne_eq, not_true_eq_false, or_self, Bool.false_eq_true,
    if_false, if_true, hc, ok]

/-- A read of the engine's own aperture that the access table permits. -/
theorem exec_oeRequest_read_of_permitted (hc : s.check (.oe oe) (addr.toNat % 2 ^ 48) size 1 false = (s, .ok tgt)) :
    exec (.oeRequest oe false addr size data) s = .next
      (s.sends (.completion .ok ((s.oe oe).aperture.read (addr.toNat % 2 ^ 48 - apertureBase oe) size))) := by
  show execOeRequest oe false addr size data s = _
  simp only [execOeRequest, hiso, hdev, Nat.not_lt.2 hlow, Nat.not_lt.2 hhigh, ne_eq, not_true_eq_false, or_self, Bool.false_eq_true,
    if_false, hc, ok]

end Inside

end Engine

/-! The test access port (01 R24, R25). -/

section Tap
variable {s : State} {tms tdi : Bool}

theorem exec_tckEdge_rising_disabled (h : s.chainEnable = false) :
    exec (.tckEdge true tms tdi) s = .next { s with pkg := { s.pkg with tap :=
      { s.pkg.tap with st := .reset, ir := [], dr := [], bypass := false, last := tdi } } } := by
  show execTckEdge true tms tdi s = _
  simp [execTckEdge, h, State.tapReset, ok]

theorem exec_tckEdge_falling_disabled (h : s.chainEnable = false) :
    exec (.tckEdge false tms tdi) s = .next (s.tapReset.sends (.tdo s.pkg.tap.last)) := by
  show execTckEdge false tms tdi s = _
  simp [execTckEdge, h, ok]

theorem exec_tckEdge_rising_enabled (h : s.chainEnable = true) :
    exec (.tckEdge true tms tdi) s = .next { s.tapAct tdi with pkg := { (s.tapAct tdi).pkg with tap :=
      { (s.tapAct tdi).pkg.tap with st := tapNext s.pkg.tap.st tms, last := tdi } } } := by
  show execTckEdge true tms tdi s = _
  simp [execTckEdge, h, ok]

end Tap

/-- Settles O60: one lemma for each outcome of a flit, of a retrain, of an engine's training and request, and of an edge of TCK. -/
theorem bridgesEnginesAndTestPort : Obligations.BridgesEnginesAndTestPort := by
  unfold Obligations.BridgesEnginesAndTestPort
  refine ⟨fun s b flit hout => ?_, fun s b ht => ?_, fun s b => ⟨State.bridgeRetrain_of_busy, fun ht hd => ?_⟩,
    fun s oe fast => exec_ucieTrained_of_isolated, fun s oe hiso => ?_, fun s oe addr size data tgt hiso hdev hlow hhigh => ?_,
    fun s oe w addr size data => exec_oeRequest_of_outside, fun s tms tdi h => ?_, fun s tms tdi h => exec_tckEdge_rising_enabled h⟩
  · exact ⟨exec_bridgeFlit_of_expected hout, exec_bridgeFlit_of_nak hout, exec_bridgeFlit_of_bad hout⟩
  · exact ⟨exec_bridgeRetrainEnd_good ht, exec_bridgeRetrainEnd_failed ht⟩
  · refine ⟨State.bridgeRetrain_of_spent ht hd, fun hleft => ?_⟩
    rw [State.bridgeRetrain_of_left ht hd hleft]
    refine ⟨?_, ?_, rfl, rfl, rfl, fun c hc => s.bundle_setBundle_ne _ hc⟩ <;> simp
  · exact ⟨exec_ucieTrained_fast hiso, exec_ucieTrained_slow hiso⟩
  · exact ⟨exec_oeRequest_write_of_permitted hiso hdev hlow hhigh, exec_oeRequest_read_of_permitted hiso hdev hlow hhigh⟩
  · exact ⟨exec_tckEdge_rising_disabled h, exec_tckEdge_falling_disabled h⟩

end Sys2Proof.Machine
end

section
/-! The state after reset: nothing is listed in it, so every part is as its registers' reset values say, and O4. -/

namespace Sys2Proof.Machine

theorem State.reset_tile_state (t : Nat) : (State.reset.tile t).state = Tile.reset.state := rfl
theorem State.reset_queue (q : Nat) : State.reset.queue q = Queue.reset := rfl
theorem State.reset_port (p : Nat) : State.reset.port p = Port.reset := rfl

theorem State.reset_memsWf : State.reset.memsWf = true := by decide
theorem State.reset_bounded : State.reset.bounded = true := by decide
theorem State.reset_stowState : State.reset.stowState = 0 := by decide
theorem Tile.reset_state : Tile.reset.state = 0 := by decide
theorem Queue.reset_state : Queue.reset.state = 0 := by decide
theorem Port.reset_state : Port.reset.rd F.LNK_STATUS_state = 0 := by decide

/-- Settles O4: an unlisted tile, queue or port is the one at reset, whose state field reads 0. -/
theorem resetLeavesTheBlockIdle : Obligations.ResetLeavesTheBlockIdle := by
  unfold Obligations.ResetLeavesTheBlockIdle
  refine ⟨State.reset_memsWf, State.reset_bounded, rfl, State.reset_stowState, fun t => ?_, fun q => ?_, fun p => ?_⟩
  · rw [State.reset_tile_state, Tile.reset_state]
  · rw [State.reset_queue, Queue.reset_state]
  · rw [State.reset_port, Port.reset_state]

end Sys2Proof.Machine
end

section
/-! Stowage images (02 R39 to R44, R468): the operations of HUB_STOW_CTRL by state, the end of a copy, the swap, and O59. -/

namespace Sys2Proof.Machine

/-! The operations of HUB_STOW_CTRL (02 R41, R43). -/

section Control
variable {s e : State} {m : Master} {r n : Nat} (hlet : s.lets m stowCtrl = true)
include hlet

theorem exec_stowLoad_of_waiting (hst : s.stowState = 0 ∨ s.stowState = 5) :
    exec (.stowLoad m) s = .next (s.stowCopy (16 * s.stowState + 2)) := by
  show execStowLoad m s = _
  simp only [execStowLoad, State.guarded_of_lets _ hlet, if_pos hst, ok]

theorem exec_stowLoad_of_other (h0 : s.stowState ≠ 0) (h5 : s.stowState ≠ 5) : exec (.stowLoad m) s = .next (s.stowFail 0x0D 0) := by
  show execStowLoad m s = _
  simp only [execStowLoad, State.guarded_of_lets _ hlet, if_neg (not_or.2 ⟨h0, h5⟩), State.stowRefuse, ok]

/-- STAGE in STAGED drops the earlier staged image; in STOWED there is none. -/
theorem exec_stowStage_of_stowed (hst : s.stowState = 2 ∨ s.stowState = 3) :
    exec (.stowStage m) s = .next (s.dropStaged.stowCopy 1) := by
  show execStowStage m s = _
  simp only [execStowStage, State.guarded_of_lets _ hlet, if_pos hst, ok]

theorem exec_stowStage_of_other (h2 : s.stowState ≠ 2) (h3 : s.stowState ≠ 3) : exec (.stowStage m) s = .next (s.stowFail 0x0D 0) := by
  show execStowStage m s = _
  simp only [execStowStage, State.guarded_of_lets _ hlet, if_neg (not_or.2 ⟨h2, h3⟩), State.stowRefuse, ok]

theorem exec_stowSchedule_of_other (h3 : s.stowState ≠ 3) : exec (.stowSchedule m) s = .next (s.stowFail 0x0D 0) := by
  show execStowSchedule m s = _
  simp only [execStowSchedule, State.guarded_of_lets _ hlet, if_pos h3, State.stowRefuse, ok]

section Staged
variable (hst : s.stowState = 3)
include hst

theorem exec_stowSchedule_of_late (hlate : s.rd F.HUB_STOW_SWAP_TN_tn < s.tn + 2) :
    exec (.stowSchedule m) s = .next (s.stowFail 0x0E 0) := by
  show execStowSchedule m s = _
  simp only [execStowSchedule, State.guarded_of_lets _ hlet, if_neg (not_not.2 hst), if_pos hlate, ok]

variable (hsoon : s.tn + 2 ≤ s.rd F.HUB_STOW_SWAP_TN_tn)
include hsoon

theorem exec_stowSchedule_of_warmOnly (hwarm : s.on F.HUB_STOW_STATUS_warm_only = true) :
    exec (.stowSchedule m) s = .next (s.stowFail 0x11 0) := by
  show execStowSchedule m s = _
  simp only [execStowSchedule, State.guarded_of_lets _ hlet, if_neg (not_not.2 hst), if_neg (Nat.not_lt.2 hsoon), if_pos hwarm, ok]

variable (hwarm : s.on F.HUB_STOW_STATUS_warm_only = false)
include hwarm

theorem exec_stowSchedule_of_entered (hact : s.enterAct (s.rd F.HUB_STOW_SWAP_TN_tn) 4 0 3 = (e, 0, n)) :
    exec (.stowSchedule m) s = .next (e.wr F.HUB_STOW_STATUS_state 4) := by
  show execStowSchedule m s = _
  simp only [execStowSchedule, State.guarded_of_lets _ hlet, if_neg (not_not.2 hst), if_neg (Nat.not_lt.2 hsoon), hwarm,
    Bool.false_eq_true, if_false, hact, ok]

/-- An action table with no free slot refuses the swap. -/
theorem exec_stowSchedule_of_full (hr : 2 ≤ r) (hact : s.enterAct (s.rd F.HUB_STOW_SWAP_TN_tn) 4 0 3 = (e, r, n)) :
    exec (.stowSchedule m) s = .next (e.stowFail 0x10 0) := by
  obtain ⟨k, rfl⟩ := Nat.exists_eq_add_of_le' hr
  show execStowSchedule m s = _
  simp only [execStowSchedule, State.guarded_of_lets _ hlet, if_neg (not_not.2 hst), if_neg (Nat.not_lt.2 hsoon), hwarm,
    Bool.false_eq_true, if_false, hact, ok]

end Staged

end Control

/-- A swap has committed, or has fallen due: DISCARD comes too late for it (02 R41; 03 R57). -/
def State.SwapCommitted (s : State) : Prop :=
  (∃ x ∈ s.tb.pend, isStowSwap x = true ∧ s.committed x = true) ∨ ∃ x ∈ s.tb.due, isStowSwap x = true

theorem State.not_swapCommitted_iff {s : State} : ¬ s.SwapCommitted ↔
    (∀ x ∈ s.tb.pend, isStowSwap x = true → s.committed x = false) ∧ ∀ x ∈ s.tb.due, isStowSwap x = false := by
  simp [State.SwapCommitted]

/-- The model's own test of the action table. -/
theorem State.not_swapCommitted_iff_any {s : State} : ¬ s.SwapCommitted ↔
    s.tb.pend.any (fun x => isStowSwap x && s.committed x) = false ∧ s.tb.due.any isStowSwap = false := by
  simp [State.SwapCommitted]

section Discard
variable {s : State} {m : Master} (hlet : s.lets m stowCtrl = true)
include hlet

theorem exec_stowDiscard_of_open (h : s.stowState = 3 ∨ (s.stowState = 4 ∧ ¬ s.SwapCommitted)) :
    exec (.stowDiscard m) s = .next (((s.cancelActs isStowSwap).dropStaged.wr F.HUB_STOW_STATUS_state 2).launchAll) := by
  rw [State.not_swapCommitted_iff_any] at h
  show execStowDiscard m s = _
  simp only [execStowDiscard, State.guarded_of_lets _ hlet, if_pos h, ok]

theorem exec_stowDiscard_of_closed (h3 : s.stowState ≠ 3) (h4 : s.stowState = 4 → s.SwapCommitted) :
    exec (.stowDiscard m) s = .next (s.stowFail 0x0D 0) := by
  have hclosed : ¬ (s.stowState = 3 ∨ (s.stowState = 4 ∧ ¬ s.SwapCommitted)) := fun h => h.elim h3 fun ⟨hst, hopen⟩ => hopen (h4 hst)
  rw [State.not_swapCommitted_iff_any] at hclosed
  show execStowDiscard m s = _
  simp only [execStowDiscard, State.guarded_of_lets _ hlet, if_neg hclosed, State.stowRefuse, ok]

end Discard

/-! The end of a copy (02 R39, R41, R468). -/

/-- The copy's bytes fail a check: the state that the operation came from, the code and its offset, and the tile when the hop or the record
at that offset names an absent one (01 R14). -/
def State.stowRejected (s : State) (op : Nat) (b : List Byte) (e : Nat × Nat) : State :=
  let back := (s.wr F.HUB_STOW_STATUS_state (stowBack op)).stowFail e.1 e.2
  match if e.1 = 12 then (imageOf b).absentRef b e.2 else none with
  | some t => back.logs .TILE_ABSENT [t]
  | none => back

section Copy
variable {s s1 : State} {op : Nat} {image b : List Byte} {fail : Option Nat} {errs : List BurstErr} (hop : s.stow.copyOp = some op)
include hop

theorem exec_stowCopyComplete_of_unread {o : Nat}
    (hread : ({ s with stow := { s.stow with copyOp := none } } : State).stowBytes image fail errs = (s1, .error o)) :
    exec (.stowCopyComplete image fail errs) s = .next ((s1.wr F.HUB_STOW_STATUS_state (stowBack op)).stowFail 0x12 o) := by
  show execStowCopyComplete image fail errs s = _
  simp only [execStowCopyComplete, hop, hread, ok]

variable (hread : ({ s with stow := { s.stow with copyOp := none } } : State).stowBytes image fail errs = (s1, .ok b))
include hread

theorem exec_stowCopyComplete_of_rejected {e : Nat × Nat} (hcheck : s1.stowCheck b (s.rd F.HUB_STOW_LEN_length) = .error e) :
    exec (.stowCopyComplete image fail errs) s = .next (s1.stowRejected op b e) := by
  show execStowCopyComplete image fail errs s = _
  simp only [execStowCopyComplete, hop, hread, hcheck]
  rfl

theorem exec_stowCopyComplete_of_checked {i : Image} (hcheck : s1.stowCheck b (s.rd F.HUB_STOW_LEN_length) = .ok i) :
    exec (.stowCopyComplete image fail errs) s = .next (s1.stowDone op i) := by
  show execStowCopyComplete image fail errs s = _
  simp only [execStowCopyComplete, hop, hread, hcheck, ok]

end Copy

/-! The swap (02 R43, R44). -/

/-- A LAUNCH holds a bay that the swap to image `j` affects. -/
def State.swapHeld (s : State) (j : Image) : Bool :=
  (s.image.bays ++ j.bays).any (fun d => s.image.affected j d.id && (s.bay d.id).holder.isSome)

section Swap
variable {s s1 : State} {a : Act} {j : Image} (hdue : s.takeDue 4 (fun a => a.arg % 256 == 0) = some (a, s1)) (hst : s1.stowState = 4)
  (hj : s1.stow.staged = some j)
include hdue hst hj

theorem exec_tableSwap_of_free (hfree : s1.swapHeld j = false) :
    exec .tableSwap s = .next (((s1.moveTiles s1.image j).putInForce j).powerSites j) := by
  unfold State.swapHeld at hfree
  show execTableSwap s = _
  simp only [execTableSwap, hdue, hst, hj, hfree, ne_eq, not_true_eq_false, Bool.false_eq_true, if_false, ok]

theorem exec_tableSwap_of_held (hheld : s1.swapHeld j = true) :
    exec .tableSwap s = .next (((s1.wr F.HUB_STOW_STATUS_state 3).stowFail 0x0F 0).logs .STOW_SWAP_REFUSED []).launchAll := by
  unfold State.swapHeld at hheld
  show execTableSwap s = _
  simp only [execTableSwap, hdue, hst, hj, hheld, ne_eq, not_true_eq_false, if_false, if_true, ok]

end Swap

/-- Settles O59: one lemma for each operation in each state of R41, for each end of a copy, and for each outcome of the swap. -/
theorem imagesAreLoadedAndSwapped : Obligations.ImagesAreLoadedAndSwapped := by
  unfold Obligations.ImagesAreLoadedAndSwapped
  refine fun s m => ⟨fun hlet => ⟨exec_stowLoad_of_waiting hlet, exec_stowLoad_of_other hlet, exec_stowStage_of_stowed hlet,
    exec_stowStage_of_other hlet, exec_stowSchedule_of_other hlet, exec_stowSchedule_of_late hlet, exec_stowSchedule_of_warmOnly hlet,
    fun e n => exec_stowSchedule_of_entered hlet, fun e r n => exec_stowSchedule_of_full hlet, fun hopen => ?_, fun hst hcommitted => ?_,
    fun h3 h4 => ?_⟩, fun op image fail errs hop => ?_, fun a s1 j hdue hst hj => ?_⟩
  · exact exec_stowDiscard_of_open hlet (hopen.imp_right fun ⟨hst, hacts⟩ => ⟨hst, State.not_swapCommitted_iff.2 hacts⟩)
  · exact exec_stowDiscard_of_closed hlet (by omega) fun _ => hcommitted
  · exact exec_stowDiscard_of_closed hlet h3 fun hst => absurd hst h4
  · intro r
    refine ⟨fun o hread => exec_stowCopyComplete_of_unread hop (Prod.ext rfl hread), fun b hb => ?_⟩
    have hread : r = (r.1, .ok b) := Prod.ext rfl hb
    cases hcheck : r.1.stowCheck b (s.rd F.HUB_STOW_LEN_length) with
    | error e => exact exec_stowCopyComplete_of_rejected hop hread hcheck
    | ok i => exact exec_stowCopyComplete_of_checked hop hread hcheck
  · exact ⟨exec_tableSwap_of_free hdue hst hj, exec_tableSwap_of_held hdue hst hj⟩

end Sys2Proof.Machine
end

section
/-! What a step keeps of the block, from the laws of what each row's function keeps, and O3. -/

namespace Sys2Proof.Machine

variable {q : List Instr} {n : Nat} {s t : State}

/-- The idle step moves the clock and nothing else (log 1). -/
theorem step_idle_keeps (h : s.Keeps [] n) (hstep : step s = .next t) : t.Keeps [] (n + 1) := by
  obtain ⟨hq, htime, hmems, hbounded⟩ := h
  simp only [step, hq, Host.Outcome.next.injEq] at hstep
  subst hstep
  exact ⟨rfl, congrArg (· + 1) htime, hmems, hbounded⟩

/-- Every row has one law, of the function that gives it its meaning: it keeps the queue, the clock, the canonical memories and the bounds. -/
theorem exec_keeps (c : Instr) (h : s.Keeps q n) : Res.Keeps q n (exec c s) := by
  cases c <;> simp [exec, h]

/-- A command runs on the rest of the queue, and keeps that rest (log 97). -/
theorem step_command_keeps {c : Instr} (h : s.Keeps (c :: q) n) (hstep : step s = .next t) : t.Keeps q n := by
  obtain ⟨hq, htime, hmems, hbounded⟩ := h
  simp only [step, hq] at hstep
  exact exec_keeps c (s := { s with pending := q }) ⟨rfl, htime, hmems, hbounded⟩ t hstep

/-- Settles O3: the queue is empty and the step idles, or its front command runs and keeps what its row's law says. -/
theorem everyStepKeepsTheBlocksInvariants : Obligations.EveryStepKeepsTheBlocksInvariants := by
  intro s t hmems hbounded hstep
  cases hq : s.pending with
  | nil =>
    obtain ⟨hqueue, htime, hmems', hbounded'⟩ := step_idle_keeps ⟨hq, rfl, hmems, hbounded⟩ hstep
    exact ⟨hmems', hbounded', hqueue, htime⟩
  | cons c rest =>
    obtain ⟨hqueue, htime, hmems', hbounded'⟩ := step_command_keeps ⟨hq, rfl, hmems, hbounded⟩ hstep
    exact ⟨hmems', hbounded', hqueue, htime⟩

end Sys2Proof.Machine
end

section
/-! The timebase (03): the actions of a tick in firing order, the source's edges, frames and tokens, its losses, the link delays, the commands of
TB_CTRL and of the action banks, and O47. -/

namespace Sys2Proof.Machine

/-! Firing order (03 R58). -/

/-- `a` fires no later than `b` among the actions of one tick: by the rank of the type, then by slot. -/
def Act.NoLater (a b : Act) : Prop := actRank a.type < actRank b.type ∨ (actRank a.type = actRank b.type ∧ a.slot ≤ b.slot)

theorem Act.NoLater.trans {a b c : Act} (hab : a.NoLater b) (hbc : b.NoLater c) : a.NoLater c := by
  unfold Act.NoLater at *
  omega

theorem insertAct_perm (a : Act) (l : List Act) : (insertAct a l).Perm (a :: l) := by
  induction l with
  | nil => exact .refl _
  | cons b l ih =>
    unfold insertAct
    split
    · exact .refl _
    · exact (ih.cons b).trans (.swap a b l)

theorem insertAct_pairwise (a : Act) {l : List Act} (hl : l.Pairwise Act.NoLater) : (insertAct a l).Pairwise Act.NoLater := by
  induction l with
  | nil => exact List.pairwise_singleton _ _
  | cons b l ih =>
    obtain ⟨hb, hl'⟩ := List.pairwise_cons.1 hl
    unfold insertAct
    split
    · next hab =>
      have ha : a.NoLater b := hab.imp_right fun ⟨hrank, hslot⟩ => ⟨hrank, hslot.le⟩
      exact List.pairwise_cons.2 ⟨List.forall_mem_cons.2 ⟨ha, fun c hc => ha.trans (hb c hc)⟩, hl⟩
    · next hab =>
      have hba : b.NoLater a := by unfold Act.NoLater; omega
      exact List.pairwise_cons.2 ⟨fun c hc => List.forall_mem_cons.2 ⟨hba, hb⟩ c ((insertAct_perm a l).subset hc), ih hl'⟩

theorem sortActs_perm (l : List Act) : (sortActs l).Perm l := by
  suffices h : ∀ m : List Act, (l.foldl (fun m a => insertAct a m) m).Perm (l ++ m) by simpa [sortActs] using h []
  induction l with
  | nil => exact fun m => .refl _
  | cons a l ih => exact fun m => (ih _).trans (((insertAct_perm a m).append_left l).trans List.perm_middle)

theorem sortActs_pairwise (l : List Act) : (sortActs l).Pairwise Act.NoLater :=
  List.foldlRecOn l _ List.Pairwise.nil fun _ hm a _ => insertAct_pairwise a hm

/-! The actions of a tick fall due (03 R57, R58). -/

@[simp] theorem State.setPend_due (s : State) (p : List Act) : (s.setPend p).tb.due = s.tb.due := rfl

theorem foldl_due_append {f : State → Act → State} (l : List Act) (s : State) (hf : ∀ a, ∀ x ∈ l, (f a x).tb.due = a.tb.due ++ [x]) :
    (l.foldl f s).tb.due = s.tb.due ++ l := by
  induction l generalizing s with
  | nil => simp
  | cons x l ih =>
    obtain ⟨hx, hl⟩ := forall_and.1 fun a => List.forall_mem_cons.1 (hf a)
    rw [List.foldl_cons, ih _ hl, hx, List.append_assoc, List.singleton_append]

/-- Where no action of the tick is dropped, all of them fall due, behind those still due and in firing order. -/
theorem State.commitDue_due {s : State} (hkept : ∀ a ∈ s.tb.pend, a.tn = s.tn → s.dropWhy a = none) :
    s.commitDue.tb.due = s.tb.due ++ sortActs (s.tb.pend.filter (fun a => a.tn == s.tn)) := by
  refine foldl_due_append _ _ fun a x hx => ?_
  obtain ⟨hpend, hnow⟩ := List.mem_filter.1 ((sortActs_perm _).subset hx)
  rw [hkept x hpend (beq_iff_eq.1 hnow)]

/-! Source 0: the TICK_IN pair (03 R49, R54). -/

section TickIn
variable {s : State} (hsource : s.tbSource = 0) (hon : s.tbState ≠ 0)
include hsource hon

theorem exec_tickInEdge_of_source (phase : Int) : exec (.tickInEdge phase) s =
    .next (s.sourceEdge (phase + s.trim F.TB_TICKIN_OFFSET_factory) (s.tb.srcTn.map (· + 1)) false) :=
  if_pos ⟨hsource, hon⟩

variable {frame : BitVec 80}

theorem exec_tickFrame_of_ok (hframe : frameOk frame = true) : exec (.tickFrame frame) s = .next
    (({ s with tb := { s.tb with srcTn := some (frame.extractLsb' 8 64).toNat, badFrame := 0 } } : State).sourceTn (frame.extractLsb' 8 64).toNat) := by
  show execTickFrame frame s = _
  simp only [execTickFrame, hsource, hon, hframe, ne_eq, not_true_eq_false, or_self, if_false, if_true, ok]

theorem exec_tickFrame_of_first_bad (hframe : frameOk frame = false) (hfirst : s.tb.badFrame = 0) :
    exec (.tickFrame frame) s = .next { s with tb := { s.tb with badFrame := 1 } } := by
  show execTickFrame frame s = _
  simp only [execTickFrame, hsource, hon, hframe, hfirst, ne_eq, not_true_eq_false, or_self, Bool.false_eq_true, if_false, if_true, ok]

theorem exec_tickFrame_of_second_bad (hframe : frameOk frame = false) (hsecond : s.tb.badFrame ≠ 0) : exec (.tickFrame frame) s = .next
    (({ s with tb := { s.tb with badFrame := 0 } } : State).tbRaise F.TB_EVENT_frame_bad .TICK_FRAME_BAD) := by
  show execTickFrame frame s = _
  simp only [execTickFrame, hsource, hon, hframe, hsecond, ne_eq, not_true_eq_false, or_self, Bool.false_eq_true, if_false, ok]

end TickIn

/-! Source 1: the tokens of a neighbour (03 R50, R51, R54). -/

/-- A token shows the depth and states a TN. -/
def State.tokenSeen (s : State) (tn : Dword) (depth : Byte) : State := (s.wr F.TB_STATUS_depth (min 255 (depth.toNat + 1))).sourceTn tn.toNat

section Token
variable {s : State} {p : Fin 32} {tn : Dword} {offset : Word} {depth : Byte} {hold : Bool} {arrival : Int}
  (hsource : s.tbSource = 1) (hon : s.tbState ≠ 0) (hport : p.val = s.image.sourcePort)
include hsource hon hport

theorem exec_tick_of_holdover (hlocked : (s.tokenSeen tn depth).tbState = 2) : exec (.tick p tn offset depth true arrival) s =
    .next ({ s.tokenSeen tn depth with tb := { (s.tokenSeen tn depth).tb with srcTn := some tn.toNat } } : State).tickLoss := by
  unfold State.tokenSeen at hlocked ⊢
  show execTick p tn offset depth true arrival s = _
  simp only [execTick, hsource, hon, hport, hlocked, ne_eq, not_true_eq_false, or_self, and_self, if_false, if_true, ok]

theorem exec_tick_of_edge (hedge : (s.tokenSeen tn depth).tbState ≠ 2 ∨ hold = false) : exec (.tick p tn offset depth hold arrival) s =
    .next ((s.tokenSeen tn depth).sourceEdge (arrival - signed 32 (s.rd (F.TB_LINK_DELAY_measured p)) - (offset.toNat : Int)) (some tn.toNat) hold) := by
  have hmeasured : ¬ ((s.tokenSeen tn depth).tbState = 2 ∧ hold = true) := fun ⟨hlocked, hhold⟩ => by simp [hlocked, hhold] at hedge
  unfold State.tokenSeen at hmeasured ⊢
  show execTick p tn offset depth hold arrival s = _
  simp only [execTick, hsource, hon, hport, if_neg hmeasured, ne_eq, not_true_eq_false, or_self, if_false, ok]

end Token

/-! Losses (03 R54; 18 R390). -/

theorem exec_tickEdgeMissing_of_expected {s : State} (hsource : s.tbSource ≠ 2) (hon : s.tbState ≠ 0) (hheld : s.tbState ≠ 4) :
    let s1 : State := { s with tb := { s.tb with missing := s.tb.missing + 1, run := 0, srcTn := s.tb.srcTn.map (· + 1) } }
    exec .tickEdgeMissing s = .next (if s.tbState = 2 ∧ 3 ≤ s.tb.missing + 1 then s1.tickLoss else s1) :=
  if_neg (by simp [hsource, hon, hheld])

/-- No lock within 4,096 periods: the timebase is UNLOCKED, with the event. -/
def State.lockFailed (s : State) : State := (s.tbSet 0).tbRaise F.TB_EVENT_lock_fail .TICK_LOCK_FAIL

section LockTimeout
variable {s : State} (hacquiring : s.tbState = 1)
include hacquiring

theorem exec_tickLockTimeout_of_started (hstarted : s.lockFailed.rd F.PWR_STATUS_state ≠ 0) : exec .tickLockTimeout s = .next s.lockFailed := by
  unfold State.lockFailed at hstarted ⊢
  show execTickLockTimeout s = _
  simp only [execTickLockTimeout, if_pos hacquiring, hstarted, false_and, if_false, ok]

/-- Step 11 of a start waits for the lock, and fails with it. -/
theorem exec_tickLockTimeout_of_starting (hstarting : s.lockFailed.rd F.PWR_STATUS_state = 0) (hstep : s.lockFailed.rd F.PWR_STATUS_step = 11)
    (hgoing : s.lockFailed.rd F.PWR_STATUS_failed = 0) : exec .tickLockTimeout s = .next (s.lockFailed.startFail 11 7 .TICK_LOCK_FAIL) := by
  unfold State.lockFailed at *
  show execTickLockTimeout s = _
  simp only [execTickLockTimeout, if_pos hacquiring, hstarting, hstep, hgoing, and_self, if_true, ok]

end LockTimeout

/-! Link delays (03 R51). -/

section Delay
variable {s : State} {p : Fin 32} (t1 t2 t3 t4 : Dword) (hup : s.portUp p = true)
include hup

theorem exec_delayReq_of_up : exec (.delayReq p t1 t2 t3) s =
    .next (s.egressPut p (ctrlPacket s.devId 3 (leBytes 8 t1.toNat) (leBytes 8 t2.toNat ++ leBytes 8 t3.toNat))) :=
  if_pos hup

theorem exec_delayResp_of_up : exec (.delayResp p t1 t2 t3 t4) s = .next (s.wr (F.TB_LINK_DELAY_measured p)
    (delayOf t1.toNat t2.toNat t3.toNat t4.toNat (s.trim (F.TB_LINK_DELAY_factory p)) % 2 ^ 32).toNat) :=
  if_pos hup

end Delay

/-! TB_CTRL (03 R56). -/

section Control
variable {s : State} {m : Master} (hlet : s.lets m tbCtrl = true)
include hlet

theorem exec_relock_of_other (hst : s.tbState ≠ 5) : exec (.relock m) s = .next s := by
  show execRelock m s = _
  simp only [execRelock, State.guarded_of_lets _ hlet, if_neg hst, ok]

theorem exec_relock_of_conflict (hst : s.tbState = 5) :
    exec (.relock m) s = .next { s.tbSet 1 with tb := { (s.tbSet 1).tb with acqStart := s.time, missing := 0 } } := by
  show execRelock m s = _
  simp only [execRelock, State.guarded_of_lets _ hlet, if_pos hst, ok]

theorem exec_clearStats_of_lets : exec (.clearStats m) s = .next (s.wr F.TB_PHASE_ERR_worst 0) :=
  congrArg ok (State.guarded_of_lets _ hlet)

end Control

/-! The action banks (03 R57, R60). -/

section Bank
variable {s : State} {m : Master} {b : Nat} (hlet : s.lets m actCmd = true) (hbank : bankOfMaster m = some b)
include hlet hbank

theorem exec_tbActAdd_of_bank (type : BitVec 4) :
    let r := s.addAct (s.rd (F.TB_ACT_TN_tn.bank b)) type.toNat (s.rd (F.TB_ACT_ARG_arg.bank b)) b
    exec (.tbActAdd m type) s = .next (r.1.actResult b r.2.1 (if r.2.1 = 0 then some r.2.2 else none)) := by
  intro r
  show execTbActAdd m type s = _
  simp only [execTbActAdd, State.guarded_of_lets _ hlet, hbank, ok, r]

variable {slot : BitVec 10} {a : Act}

theorem exec_tbActCancel_of_empty (hslot : s.tb.pend.find? (fun x => x.slot == slot.toNat) = none) :
    exec (.tbActCancel m slot) s = .next (s.actResult b 5 none) := by
  show execTbActCancel m slot s = _
  simp only [execTbActCancel, State.guarded_of_lets _ hlet, hbank, hslot, ok]

theorem exec_tbActCancel_of_pending (hslot : s.tb.pend.find? (fun x => x.slot == slot.toNat) = some a) (h4 : a.type ≠ 4) (h5 : a.type ≠ 5) :
    exec (.tbActCancel m slot) s = .next (if s.committed a then s.actResult b 1 none
      else (s.cancelActs (fun y => y.slot == slot.toNat)).actResult b 0 none) := by
  show execTbActCancel m slot s = _
  simp only [execTbActCancel, State.guarded_of_lets _ hlet, hbank, hslot, h4, h5, or_self, if_false, ok]

end Bank

/-- Settles O47: the edge is its row's definition; the actions of its tick come sorted and fall due; then one lemma for each outcome of a row. -/
theorem theTimebaseFollowsItsSource : Obligations.TheTimebaseFollowsItsSource := by
  unfold Obligations.TheTimebaseFollowsItsSource
  refine fun s m => ⟨rfl, ⟨⟨sortActs_perm _, sortActs_pairwise _, by decide⟩, State.commitDue_due, rfl⟩,
    fun phase hsource hon => exec_tickInEdge_of_source hsource hon phase,
    fun frame hsource hon => ⟨exec_tickFrame_of_ok hsource hon, exec_tickFrame_of_first_bad hsource hon, exec_tickFrame_of_second_bad hsource hon⟩,
    fun p tn offset depth hold arrival hsource hon hport => ⟨exec_tick_of_holdover hsource hon hport, exec_tick_of_edge hsource hon hport⟩,
    exec_tickEdgeMissing_of_expected, fun hacquiring => ⟨exec_tickLockTimeout_of_started hacquiring, exec_tickLockTimeout_of_starting hacquiring⟩,
    fun p t1 t2 t3 t4 hup => ⟨exec_delayReq_of_up t1 t2 t3 hup, exec_delayResp_of_up t1 t2 t3 t4 hup⟩,
    fun hlet => ⟨exec_relock_of_other hlet, exec_relock_of_conflict hlet, exec_clearStats_of_lets hlet⟩,
    fun hlet b hbank => ⟨exec_tbActAdd_of_bank hlet hbank, fun slot => exec_tbActCancel_of_empty hlet hbank,
      fun slot a => exec_tbActCancel_of_pending hlet hbank⟩⟩

end Sys2Proof.Machine
end

section
/-! Global stops, resumes and phase starts (03 R57, R61 to R66; 12 R254), and O48. -/

namespace Sys2Proof.Machine

variable {s s1 : State} {a : Act} {m : Master}

/-! The stop instant (R61, R65, R66). -/

theorem exec_globalStop_of_due (hdue : s.takeDue 1 = some (a, s1)) : exec .globalStop s = .next s1.stopNow := by
  show execGlobalStop s = _
  simp only [execGlobalStop, hdue, ok]

theorem exec_stop_of_source2 (p : Fin 32) (hsource : s.tbSource = 2) : exec (.stop p) s = .next s.stopNow :=
  congrArg ok (if_pos hsource)

theorem exec_stop_of_other_source (p : Fin 32) (hsource : s.tbSource ≠ 2) : exec (.stop p) s = .next s :=
  congrArg ok (if_neg hsource)

theorem State.stopNow_of_stopped (hstopped : s.stopped = true) : s.stopNow = s := if_pos hstopped

/-! Markers and ports (R61, R63). -/

theorem exec_stopDoneSend_of_drained (hstopped : s.stopped = true) (hsent : s.stop.sent = false)
    (hdrained : s.enabledPorts.all (fun p => (s.port p).egress.isEmpty) = true) :
    exec .stopDoneSend s = .next (({ s with stop := { s.stop with sent := true } } : State).toPorts (ctrlPacket s.devId 8 [] [])) :=
  if_pos ⟨hstopped, hsent, hdrained⟩

/-- A STOP_DONE before this device's own stop closes its port for the stop to come (log 56). -/
theorem exec_stopDone_of_early (p : Fin 32) (hrunning : s.stopped = false) :
    exec (.stopDone p) s = .next { s with stop := { s.stop with early := s.stop.early ++ [p.val] } } :=
  congrArg ok (if_pos (by simp [hrunning]))

theorem exec_stopDone_of_open (p : Fin 32) (hstopped : s.stopped = true) (hopen : bitOf (s.rd F.TB_STOP_STATUS_open_ports) p = true) :
    exec (.stopDone p) s = .next (s.wr F.TB_STOP_STATUS_open_ports (s.rd F.TB_STOP_STATUS_open_ports - 2 ^ p.val)) :=
  congrArg ok ((if_neg (by simp [hstopped])).trans (if_pos hopen))

theorem exec_stopPortOpen_of_open (hstopped : s.stopped = true) (hopen : s.rd F.TB_STOP_STATUS_open_ports ≠ 0)
    (hnew : s.rd F.TB_STOP_STATUS_open_ports ≠ s.stop.gaveUp) :
    exec .stopPortOpen s = .next (({ s with stop := { s.stop with gaveUp := s.rd F.TB_STOP_STATUS_open_ports } } : State).tbRaise
      F.TB_EVENT_port_open .STOP_PORT_OPEN) :=
  congrArg ok (if_pos ⟨hstopped, hopen, hnew⟩)

/-! Resumes (R64). -/

section Resume
variable (hlet : s.lets m tbCtrl = true)
include hlet

/-- A replay's logged packets are applied at the end of its command. -/
theorem exec_resumeReplay_of_lets : exec (.resumeReplay m) s = .next (s.resumeOr true).replayed :=
  congrArg (fun a : State => ok a.replayed) (State.guarded_of_lets _ hlet)

theorem exec_resumeDiscard_of_lets : exec (.resumeDiscard m) s = .next (s.resumeOr false) :=
  congrArg ok (State.guarded_of_lets _ hlet)

end Resume

theorem State.resumeOr_of_quiescent (replay : Bool) (hquiescent : s.quiescent = true) : s.resumeOr replay = s.endStop replay := if_pos hquiescent

theorem State.resumeOr_of_busy (replay : Bool) (hbusy : s.quiescent = false) : s.resumeOr replay = s.logs .STOP_BUSY [] :=
  if_neg (by simp [hbusy])

/-! Phase starts (R57; 12 R254). -/

theorem exec_phaseStart_of_due (hdue : s.takeDue 3 = some (a, s1)) : exec .phaseStart s =
    .next (s1.forEach (s1.bayTiles (bitsOf a.arg 0 6)) (fun b t => b.signalRemote .hub t (bitsOf a.arg 8 8) (bitsOf a.arg 16 32))) := by
  show execPhaseStart s = _
  simp only [execPhaseStart, hdue, ok]

/-- Settles O48: what a stop and a resume do is their definition where their guard holds; then one lemma for each outcome of a row. -/
theorem theDeviceStopsAndResumes : Obligations.TheDeviceStopsAndResumes := by
  unfold Obligations.TheDeviceStopsAndResumes
  refine fun s m => ⟨fun a s1 => exec_globalStop_of_due, exec_stop_of_source2, exec_stop_of_other_source, State.stopNow_of_stopped,
    fun hrunning => if_neg (by simp [hrunning]), ⟨rfl, rfl⟩, exec_stopDoneSend_of_drained, exec_stopDone_of_early, exec_stopDone_of_open,
    exec_stopPortOpen_of_open, fun hlet => ⟨fun hquiescent => ?_, fun hbusy => ?_⟩, fun a s1 => exec_phaseStart_of_due⟩
  · rw [exec_resumeReplay_of_lets hlet, exec_resumeDiscard_of_lets hlet, State.resumeOr_of_quiescent _ hquiescent,
      State.resumeOr_of_quiescent _ hquiescent]
    exact ⟨rfl, rfl⟩
  · rw [exec_resumeReplay_of_lets hlet, exec_resumeDiscard_of_lets hlet, State.resumeOr_of_busy _ hbusy, State.resumeOr_of_busy _ hbusy]
    exact ⟨rfl, rfl⟩

end Sys2Proof.Machine
end

section
/-! Scratchpad bytes: a memory reads as it was written, and O5. -/

namespace Sys2Proof.Machine

/-- A byte string reads back as it was written, in a memory in canonical form. -/
theorem Mem.read_write {m : Mem} (hm : m.wf = true) (a : Nat) (l : List Byte) : (m.write a l).read a l.length = l := by
  induction l generalizing m a with
  | nil => rfl
  | cons b l ih =>
    have hfirst : ((m.set a b).write (a + 1) l).get a = b := by
      rw [Mem.get_write_out _ _ _ _ (.inl a.lt_succ_self), Mem.get_set hm]
    simp only [Mem.write, List.length_cons, Mem.read, hfirst, ih (Mem.set_wf hm a b)]

/-- A byte counter stands among the hub's registers, so every tile stays. -/
@[simp] theorem State.tile_countSpad (s : State) (t rw n v : Nat) : (s.countSpad t rw n).tile v = s.tile v := rfl

/-- The tile after a write into its scratchpad: its bytes, and what an M.MMA in progress remembers of those that they replace (log 29). -/
theorem State.tile_spadWrite (s : State) (t o : Nat) (data : List Byte) :
    (s.spadWrite t o data).tile t = { s.tile t with
      spad := (s.tile t).spad.write o data
      mmaRun := (s.tile t).mmaRun.map fun r => { r with was := r.was ++ places o ((s.tile t).spad.read o data.length) } } := by
  simp [State.spadWrite]

theorem State.tile_spadWrite_ne (s : State) {t v : Nat} (o : Nat) (data : List Byte) (h : v ≠ t) :
    (s.spadWrite t o data).tile v = s.tile v := by
  simp [State.spadWrite, State.tile_setTile_ne s _ h]

/-- Settles O5: the tile's record after the write, and the laws of a memory's write. -/
theorem scratchpadsReadAsWritten : Obligations.ScratchpadsReadAsWritten := by
  unfold Obligations.ScratchpadsReadAsWritten
  intro s t o data hwf u
  have htile := s.tile_spadWrite t o data
  have hspad : (u.tile t).spad = (s.tile t).spad.write o data := congrArg Tile.spad htile
  refine ⟨?_, fun a ha => ?_, fun v hv => s.tile_spadWrite_ne o data hv, ?_, ?_, fun hidle => ?_, rfl⟩
  · rw [hspad, Mem.read_write hwf]
  · rw [hspad, Mem.get_write_out _ _ _ _ ha]
  · rw [hspad]
    exact Mem.write_wf hwf o data
  · simp only [u, htile]
  · simp only [u, htile, hidle, Option.map_none]

end Sys2Proof.Machine
end

section
/-! Reads at their targets: the answers of the check, the scratchpad window, and O31. -/

namespace Sys2Proof.Machine

/-! A read of a scratchpad window (17 R367, R375, R376). -/

/-- The errors that stand in words which a read of `n` bytes at offset `o` meets. -/
def errsMet (o n : Nat) (errs : List BurstErr) : List BurstErr := errs.filter (fun e => e.burst < (o % 8 + n + 7) / 8)

/-- The state once a scratchpad read has met its words: each with one wrong bit is corrected and recorded. -/
def State.spadMet (s : State) (t o n : Nat) (errs : List BurstErr) : State :=
  (errsMet o n errs).foldl (fun a e => if flips e = 1 then a.spadCorrected t (o / 8 * 8 + 8 * e.burst) else a) ((s.drainSome t).countSpad t 0 n)

/-- The state once a word with more wrong bits is recorded and its site is marked. -/
def State.spadBadRecorded (s : State) (t w : Nat) : State :=
  (s.suspect (s.site t)).record { s.recOfTile 2 4 0 t with addr := s.spadAddr t w }

section SpadRead
variable {s : State} {m : Master} {t o n : Nat} {errs : List BurstErr}

theorem State.spadServe_of_sound (h : (errsMet o n errs).find? (fun e => 1 < flips e) = none) :
    s.spadServe m t o n errs = (s.spadMet t o n errs, some (((s.spadMet t o n errs).tile t).spad.read o n)) := by
  have hread : s.spadRead t o n errs = (s.spadMet t o n errs, .ok (((s.spadMet t o n errs).tile t).spad.read o n)) := by
    unfold State.spadRead
    dsimp only
    rw [← errsMet, h]
    rfl
  rw [State.spadServe, hread]

theorem State.spadServe_of_bad {e : BurstErr} (h : (errsMet o n errs).find? (fun e => 1 < flips e) = some e) :
    s.spadServe m t o n errs = ((s.spadMet t o n errs).spadBad t (o / 8 * 8 + 8 * e.burst) m, none) := by
  have hread : s.spadRead t o n errs = (s.spadMet t o n errs, .error (o / 8 * 8 + 8 * e.burst)) := by
    unfold State.spadRead
    dsimp only
    rw [← errsMet, h]
    rfl
  rw [State.spadServe, hread]

/-- A request from outside the tile's bay stops the bay. -/
theorem State.spadBad_of_outside {w b : Nat} (hbay : s.bayOf t = some b) (hm : ∀ k, m = .bay k → k.val ≠ b) :
    s.spadBad t w m = (s.spadBadRecorded t w).safetyStop b t := by
  unfold State.spadBad
  rw [hbay]
  cases m with
  | bay k => simp [hm k rfl, State.spadBadRecorded]
  | _ => rfl

/-- No bay stops for a tile of no bay, nor for its own bay's request, whose engine's fault is the stop. -/
theorem State.spadBad_of_own {w : Nat} (h : s.bayOf t = none ∨ ∃ b, m = .bay b ∧ s.bayOf t = some b.val) :
    s.spadBad t w m = s.spadBadRecorded t w := by
  unfold State.spadBad
  obtain hnone | ⟨b, rfl, hbay⟩ := h
  · rw [hnone]; rfl
  · rw [hbay]; simp [State.spadBadRecorded]

variable {r : Req} {ext : Option (List Byte)}

theorem State.readAt_spad_of_sound (h : (errsMet o n errs).find? (fun e => 1 < flips e) = none) :
    s.readAt m r n errs ext (.spad t o) =
      ((s.spadMet t o n errs).countMesh t n).replyRead r .ok (((s.spadMet t o n errs).tile t).spad.read o n) true := by
  simp only [State.readAt, State.spadServe_of_sound h]

theorem State.readAt_spad_of_bad {e : BurstErr} (h : (errsMet o n errs).find? (fun e => 1 < flips e) = some e) :
    s.readAt m r n errs ext (.spad t o) = ((s.spadMet t o n errs).spadBad t (o / 8 * 8 + 8 * e.burst) m).replyRead r .ecc [] := by
  simp only [State.readAt, State.spadServe_of_bad h]

end SpadRead

/-! Reads (04 R70, R72, R83; 18 R401). -/

/-- A read once its check has answered. -/
def State.readDecided (m : Master) (r : Req) (n : Nat) (errs : List BurstErr) (ext : Option (List Byte)) : State × Check → State
  | (c, .ok u) => c.readAt m r n errs ext u
  | (c, .denied) => c.replyRead r .denied (allOnes n)
  | (c, .unmapped) => c.replyRead r .unmapped (allOnes n)
  | (c, .asleep) => c.replyRead r .ok (allOnes n)
  | (c, .misaligned) => c.replyRead r .ok (allOnes n)

/-- A read of this device is carried to its target and decided by the check there. -/
theorem State.readAs_of_own {s : State} {m : Master} {r : Req} {n : Nat} {errs : List BurstErr} {ext : Option (List Byte)}
    (hdev : devOf r.addr.toNat = s.devId) (hn : 1 ≤ n) :
    s.readAs m r n errs ext = State.readDecided m r n errs ext
      ((s.carryIn r n 0 (readPacket s.devId s.devId r n) 0).check m (r.addr.toNat % 2 ^ 48) n (if r.exec then 4 else 1)
        (r.eng == some .d)) := by
  simp only [State.readAs, State.forAnother, hdev, bne_self_eq_false, Bool.false_and, Bool.false_eq_true, if_false, ne_eq,
    not_true_eq_false, Nat.max_eq_left hn]
  split <;> simp only [State.readDecided, *]

/-- A read that arrives and is taken under a master's code is performed by `readAs`. -/
theorem exec_read_of_take {s : State} {r : Req} {n : Nat} {errs : List BurstErr} {ext : Option (List Byte)} {m : Master}
    (hdark : s.dark = false) (hlen : reqTooLong r n = false) (hstop : s.stopsAt r = none) (harr : s.arrivalOf r = .take m) :
    exec (.read r n errs false ext) s = .next (s.readAs m { r with master := m } n errs ext) := by
  show execRead r n errs s false ext = _
  simp [execRead, hdark, hlen, hstop, harr, ok]

/-- Settles O31: the read is decided by the check at its target, and each clause is one answer of that check. -/
theorem readsAnswerFromTheirTargets : Obligations.ReadsAnswerFromTheirTargets := by
  unfold Obligations.ReadsAnswerFromTheirTargets
  intro s r n errs ext m hdark hn hlen hstop harr hdev a q c tgt kind byD run
  have hrun : run = .next (State.readDecided m q n errs ext (c.check m a n kind byD)) :=
    (exec_read_of_take hdark hlen hstop harr).trans (congrArg ok (State.readAs_of_own (r := q) hdev hn))
  refine ⟨fun u hu => by rw [hrun, hu]; rfl, fun t o ht hp hmb ha => ?_, fun ha ht => ?_, fun ha ht hp => ?_, fun ha hp hmb ht => ?_⟩
  · have answers : run = .next (c.readAt m q n errs ext (.spad t o)) := by
      rw [hrun, State.check_permitted (by omega) (show tgt ≠ .unmapped by rw [ht]; exact nofun) hp hmb]
      exact congrArg (fun u : Target => ok (c.readAt m q n errs ext u)) ht
    intro d es z
    have sound (hfind : es.find? (fun e => 1 < flips e) = none) :
        run = .next ((z.countMesh t n).replyRead q .ok ((z.tile t).spad.read o n) true) :=
      answers.trans (congrArg ok (State.readAt_spad_of_sound hfind))
    have bad {e : BurstErr} (hfind : es.find? (fun e => 1 < flips e) = some e) :
        run = .next ((z.spadBad t (o / 8 * 8 + 8 * e.burst) m).replyRead q .ecc []) :=
      answers.trans (congrArg ok (State.readAt_spad_of_bad hfind))
    refine ⟨fun hnone => ?_, sound, fun e hfind => ⟨fun b hbay hm => ?_, fun hown => ?_⟩⟩
    · subst hnone
      exact sound rfl
    · rw [bad hfind, State.spadBad_of_outside hbay hm]
      rfl
    · rw [bad hfind, State.spadBad_of_own hown]
      rfl
  · rw [hrun, State.check_unmapped ha ht]; rfl
  · rw [hrun, State.check_denied ha ht hp]; rfl
  · rw [hrun, State.check_asleep ha hp hmb ht]; rfl

end Sys2Proof.Machine
end

section
/-! Register commands that are turned away: the check in the register window, the log of refused accesses, and O36. -/

namespace Sys2Proof.Machine

/-! The check in the register window (00 R9; 04 R70, R83, R85). -/

section WindowCheck
variable {s : State} {m : Master} {off n kind : Nat} {byD : Bool}

/-- The register window begins at a multiple of 8. -/
theorem window_mod (off : Nat) {n : Nat} (hn : n = 4 ∨ n = 8) : (0xFFFFFC000000 + off) % n = off % n := by
  obtain rfl | rfl := hn <;> omega

theorem State.check_window_misaligned (h : ¬ ((n = 4 ∨ n = 8) ∧ off % n = 0)) :
    s.check m (0xFFFFFC000000 + off) n kind byD = (s.logs .REG_MISALIGNED [masterCode m, 0xFFFFFC000000 + off, n], .misaligned) := by
  have hbad : ((n == 4 || n == 8) && (0xFFFFFC000000 + off) % n == 0) = false := by
    by_cases hn : n = 4 ∨ n = 8
    · have hoff : off % n ≠ 0 := fun hoff => h ⟨hn, hoff⟩
      simp [window_mod off hn, hoff]
    · simp [not_or.1 hn]
  simp [State.check, hbad]

variable (hfits : (n = 4 ∨ n = 8) ∧ off % n = 0)
include hfits

theorem window_fits : ((n == 4 || n == 8) && (0xFFFFFC000000 + off) % n == 0) = true := by
  simp [window_mod off hfits.1, hfits.1, hfits.2]

theorem State.check_window_unmapped (ht : s.target (0xFFFFFC000000 + off) n = .unmapped) :
    s.check m (0xFFFFFC000000 + off) n kind byD =
      ((s.logAccess true (masterCode m) 0xFFFF kind (s.global (0xFFFFFC000000 + off))).logAbsent (0xFFFFFC000000 + off), .unmapped) := by
  simp only [State.check, window_fits hfits, Bool.not_true, Bool.and_false, Bool.false_eq_true, if_false, if_pos ht]

theorem State.check_window_denied (ht : s.target (0xFFFFFC000000 + off) n ≠ .unmapped)
    (hp : s.permits m (s.target (0xFFFFFC000000 + off) n) kind byD = false) :
    s.check m (0xFFFFFC000000 + off) n kind byD =
      (s.logAccess false (masterCode m) (s.target (0xFFFFFC000000 + off) n).code kind (s.global (0xFFFFFC000000 + off)), .denied) := by
  simp only [State.check, window_fits hfits, Bool.not_true, Bool.and_false, Bool.false_eq_true, if_false, if_neg ht, hp, Bool.not_false, if_true]

end WindowCheck

/-! A command that the check turns away (04 R83, R85). -/

/-- The check turns master `m`'s write of `n` bytes at window offset `off` away and leaves the state `u`. -/
def State.TurnsAway (s : State) (m : Master) (off n : Nat) (u : State) : Prop :=
  ∃ v, s.check m (0xFFFFFC000000 + off) n 2 false = (u, v) ∧ ∀ tgt, v ≠ .ok tgt

/-- A check logs, and a global stop's state stays. -/
theorem State.check_stop (s : State) (m : Master) (a n kind : Nat) (byD : Bool) : (s.check m a n kind byD).1.stop = s.stop := by
  have habsent (u : State) : (u.logAbsent a).stop = u.stop := by
    unfold State.logAbsent
    split <;> rfl
  unfold State.check
  dsimp only
  split_ifs
  · rfl
  · exact habsent _
  · rfl
  · rfl
  · rfl

theorem State.TurnsAway.stop_eq {s u : State} {m : Master} {off n : Nat} (haway : s.TurnsAway m off n u) : u.stop = s.stop := by
  obtain ⟨v, hcheck, -⟩ := haway
  rw [← s.check_stop m (0xFFFFFC000000 + off) n 2 false, hcheck]

theorem State.replayed_of_idle {s : State} (hreplay : s.stop.replay = none) : s.replayed = s := by
  simp only [State.replayed, hreplay]

section TurnedAway
variable {s u : State} {m m' : Master} {off n : Nat} (hdark : s.dark = false)
include hdark

theorem execRegWrite_of_turnsAway {off : BitVec 26} {v : Dword} (haway : s.TurnsAway m off.toNat n u) :
    execRegWrite m off n v s = .next u := by
  obtain ⟨answer, hcheck, hno⟩ := haway
  simp only [execRegWrite, hdark, hcheck, Bool.false_and, Bool.false_eq_true, if_false]
  cases answer with
  | ok tgt => exact absurd rfl (hno tgt)
  | _ => rfl

variable (haway : s.TurnsAway m off n u)
include haway

theorem State.guarded_of_turnsAway (f : State → State) : s.guarded m off f n = u := by
  obtain ⟨v, hcheck, hno⟩ := haway
  have hguard : s.guard m off n = (u, false) := by
    unfold State.guard
    rw [hcheck]
    cases v with
    | ok tgt => exact absurd rfl (hno tgt)
    | _ => rfl
  simp [State.guarded, hdark, hguard]

/-- A SUBMIT of the command that its bank's buffer holds is guarded as its bank's control register. -/
theorem State.submit_of_turnsAway {c : Nat} (f : State → List Byte → State)
    (hc : (if s.secFits ((bankOfMaster m').getD 0) c then some (m', secCtrl ((bankOfMaster m').getD 0), 8) else none) = some (m, off, n)) :
    s.submit m' c f = u := by
  split_ifs at hc with hholds
  obtain ⟨rfl, rfl, rfl⟩ := hc
  simp only [State.submit, hholds, Bool.not_true, Bool.false_eq_true, if_false, State.guarded_of_turnsAway hdark haway]

/-- Every command that is a register write ends where its check ends, when the check turns it away. -/
theorem exec_of_turnsAway {c : Instr} (hreplay : s.stop.replay = none) (hc : s.controlOf c = some (m, off, n)) : exec c s = .next u := by
  cases c
  case regWrite m' off' size v poisoned =>
    cases poisoned with
    | true => exact (Option.some_ne_none _ hc.symm).elim
    | false =>
      cases hc
      exact execRegWrite_of_turnsAway hdark haway
  -- Logged packets are applied at the end of a replay, and none waits.
  case resumeReplay =>
    cases hc
    have hstays : s.resumeReplay m = u := State.guarded_of_turnsAway hdark haway _
    have hidle : u.stop.replay = none := by rw [haway.stop_eq, hreplay]
    exact congrArg ok (by rw [hstays, State.replayed_of_idle hidle])
  case ownerRegister | ownerRevoke | deploy | returnCmd | debugUnlock => exact congrArg ok (State.submit_of_turnsAway hdark haway _ hc)
  -- The other rows of `controlOf` are guarded commands.
  case warmStart | coldStart | mothball | wake | stowLoad | stowStage | stowSchedule | stowDiscard | tbActAdd | tbActCancel | relock |
    resumeDiscard | clearStats | accClearCounts | accClearLog | vProbe | tileSyncSignal | tileSyncSet | digCfgWrite | dbgSyncSet | doorbell |
    create | destroy | resume | feClearCounts | hbmRetAdd | hbmRetSchedule | hbmRetDiscard | hbmTempClear | lnkRetrain | lnkDisable |
    lnkEnable | restore | replayCheck | witness | snapAbandon | snapClearError | pretest | markSuspect | reportMismatch | safeClearCounts |
    close | evtFreeze | evtThaw | dumpArm | dumpCancel | fwPrepare | fwStage | fwSchedule | fwDiscard | fwReject | fwRelayAgain |
    bar2WindowWrite | shelfAttach | shelfRelease =>
    cases hc
    exact congrArg ok (State.guarded_of_turnsAway hdark haway _)
  -- No other row is a register write.
  all_goals exact (Option.some_ne_none _ hc.symm).elim

end TurnedAway

/-! One entry of the access log (04 R85). -/

theorem State.logAccess_eq (s : State) (unmapped : Bool) (master target kind addr : Nat) :
    s.logAccess unmapped master target kind addr = { s with
      regs := (s.logAccess unmapped master target kind addr).regs
      log := s.log ++ [⟨if unmapped then .ADDR_UNMAPPED else .ACCESS_DENIED, [master, target, kind, addr]⟩] } := rfl

/-- The counts, the entry that HUB_ACC_LOG_PTR.next names and the pointer itself are all that an entry changes among the registers. -/
theorem State.rget_logAccess (s : State) (unmapped : Bool) (master target kind addr : Nat) {j : Nat}
    (hj : j ∉ [F.HUB_ACC_COUNTS_denied.off, F.HUB_ACC_COUNTS_unmapped.off, (F.HUB_ACC_LOG_ADDR_addr (s.rd F.HUB_ACC_LOG_PTR_next)).off,
      (F.HUB_ACC_LOG_INFO_master (s.rd F.HUB_ACC_LOG_PTR_next)).off, F.HUB_ACC_LOG_PTR_next.off]) :
    rget (s.logAccess unmapped master target kind addr).regs j = rget s.regs j := by
  simp only [List.mem_cons, List.not_mem_nil, or_false, not_or] at hj
  obtain ⟨hdenied, hunmapped, haddr, hinfo, hptr⟩ := hj
  have hentry : rget (s.logAccess unmapped master target kind addr).regs j =
      rget (s.bump (if unmapped then F.HUB_ACC_COUNTS_unmapped else F.HUB_ACC_COUNTS_denied)).regs j := by
    refine rget_setFlds_ne _ _ fun e he => ?_
    simp only [List.mem_cons, List.not_mem_nil, or_false] at he
    obtain rfl | rfl | rfl | rfl | rfl | rfl | rfl | rfl | rfl := he <;> assumption
  rw [hentry]
  refine rget_setFld_ne _ _ _ ?_
  cases unmapped with
  | true => exact hunmapped
  | false => exact hdenied

/-- Settles O36: each refusal of the check turns the command away where its log leaves the block, and an entry of the log is register writes
beside one event. -/
theorem deniedCommandsChangeOnlyTheLog : Obligations.DeniedCommandsChangeOnlyTheLog := by
  unfold Obligations.DeniedCommandsChangeOnlyTheLog
  refine ⟨fun s c m off n hc hdark hreplay => ?_, fun s unmapped master target kind addr =>
    ⟨s.logAccess_eq unmapped master target kind addr, fun j hj => s.rget_logAccess unmapped master target kind addr hj⟩⟩
  intro a tgt fits
  have refused {u : State} (haway : s.TurnsAway m off n u) : exec c s = .next u := exec_of_turnsAway hdark haway hreplay hc
  exact ⟨fun hbad => refused ⟨_, State.check_window_misaligned hbad, nofun⟩,
    fun hfits ht => refused ⟨_, State.check_window_unmapped hfits ht, nofun⟩,
    fun hfits ht hp => refused ⟨_, State.check_window_denied hfits ht hp, nofun⟩⟩

end Sys2Proof.Machine
end

section
/-! Words of a format: conversion from and to binary16, the values that words stand for, and their rounding; O7 and O19. -/

namespace Sys2Proof.Machine

/-! binary16 (05 R106, R107). -/

/-- Below the exponent field's largest value the code lies below infinity's. -/
theorem binary16_finite {n : Nat} : n % 0x8000 < 0x7C00 ↔ n / 1024 % 32 < 31 := by omega

theorem fromBinary16_finite {n : Nat} (he : n / 1024 % 32 < 31) (hn : n ≠ 0x8000) : fromBinary16 n = ⟨n, 0⟩ := by
  rw [fromBinary16, if_pos (binary16_finite.2 he), if_neg hn]

theorem fromBinary16_nan {n : Nat} (he : n / 1024 % 32 = 31) (hm : n % 1024 ≠ 0) : fromBinary16 n = ⟨0x8000, fNanIn⟩ := by
  rw [fromBinary16, if_neg (by omega), if_neg (by omega)]

theorem toBinary16_finite {n : Nat} (he : n / 1024 % 32 ≤ 30) (hn : n ≠ 0x8000) : toBinary16 n = ⟨n, 0⟩ := by
  rw [toBinary16, if_neg hn, if_pos (binary16_finite.2 (by omega))]

theorem toBinary16_overflow {n : Nat} (he : n / 1024 % 32 = 31) :
    toBinary16 n = ⟨if n < 0x8000 then 0x7C00 else 0xFC00, fOverflow⟩ := by
  rw [toBinary16, if_neg (by omega), if_neg (by omega)]

/-- Settles O7: by the exponent field, and the six words that have a rule of their own by evaluation. -/
theorem binary16ConvertsBothWays : Obligations.Binary16ConvertsBothWays := by
  unfold Obligations.Binary16ConvertsBothWays
  intro w n e
  have negZero (h : w ≠ 0x8000) : n ≠ 0x8000 := fun hn => h (BitVec.eq_of_toNat_eq hn)
  exact ⟨fun he hw => fromBinary16_finite he (negZero hw), rfl, rfl, rfl, fromBinary16_nan,
    fun he hw => toBinary16_finite he (negZero hw), toBinary16_overflow, rfl⟩

/-! Words as a sign and a code (05 R86, R89, R90). -/

/-- The number that a code's exponent field and fraction give, read as subnormal where the field is 0. -/
def Fmt.number (f : Fmt) (neg : Bool) (c : Nat) : Val :=
  if c / 2 ^ f.frac = 0 then .num neg (c % 2 ^ f.frac) f.low
  else .num neg (2 ^ f.frac + c % 2 ^ f.frac) (f.low + ((c / 2 ^ f.frac - 1 : Nat) : Int))

@[simp] theorem Fmt.number_isNan (f : Fmt) (neg : Bool) (c : Nat) : (f.number neg c).isNan = false := by
  unfold Fmt.number; split <;> rfl

theorem Fmt.two_pow_width (f : Fmt) : 2 ^ f.width = 2 * 2 ^ (f.width - 1) := by
  cases f <;> rfl

theorem Fmt.eq_word {f : Fmt} {w : Nat} (hw : w < 2 ^ f.width) : ∃ neg c, c < 2 ^ (f.width - 1) ∧ w = f.word neg c := by
  rw [f.two_pow_width] at hw
  by_cases hs : w < 2 ^ (f.width - 1)
  · exact ⟨false, w, hs, by simp [Fmt.word, b2n]⟩
  · exact ⟨true, w - 2 ^ (f.width - 1), by omega, by simp only [Fmt.word, b2n, if_true]; omega⟩

/-- The sign bit and the code below it, read back from a word. -/
theorem Fmt.word_fields {f : Fmt} (neg : Bool) {c : Nat} (hc : c < 2 ^ (f.width - 1)) :
    decide (2 ^ (f.width - 1) ≤ f.word neg c % 2 ^ f.width) = neg ∧ f.word neg c % 2 ^ (f.width - 1) = c := by
  have hlt : f.word neg c < 2 ^ f.width := by
    rw [f.two_pow_width]
    cases neg <;> simp only [Fmt.word, b2n, Bool.false_eq_true, if_true, if_false] <;> omega
  rw [Nat.mod_eq_of_lt hlt]
  cases neg <;> simp [Fmt.word, b2n, Nat.mod_eq_of_lt hc, hc]

theorem Val.decode_h16 (neg : Bool) {c : Nat} (hc : c < 2 ^ 15) :
    Val.decode .h16 (Fmt.h16.word neg c) = if neg && c == 0 then .nan else Fmt.h16.number neg c := by
  obtain ⟨hs, hcode⟩ := Fmt.word_fields (f := .h16) neg hc
  simp only [Val.decode, hs, hcode, Nat.shiftRight_eq_div_pow, Fmt.number]

/-- With an infinity the finite codes end below its code, and the codes beyond it are NaN. -/
theorem Val.decode_binary {f : Fmt} (hf : f ≠ .h16) (neg : Bool) {c : Nat} (hc : c < 2 ^ (f.width - 1)) :
    Val.decode f (f.word neg c) = if c < f.inf then f.number neg c else if c = f.inf then .inf neg else .nan := by
  obtain ⟨hs, hcode⟩ := Fmt.word_fields neg hc
  have hfields : f.inf = 255 * 2 ^ f.frac ∧ 2 ^ (f.width - 1) = 256 * 2 ^ f.frac := by
    cases f with
    | h16 => exact absurd rfl hf
    | s32 | x40 => exact ⟨rfl, rfl⟩
  obtain ⟨hinf, hwidth⟩ := hfields
  have hsum := Nat.div_add_mod' c (2 ^ f.frac)
  have hlast : c / 2 ^ f.frac < 256 := Nat.div_lt_of_lt_mul (by rwa [Nat.mul_comm, ← hwidth])
  have hfin : c < f.inf ↔ c / 2 ^ f.frac ≠ 255 := by
    rw [hinf, ← Nat.div_lt_iff_lt_mul (by positivity)]; omega
  have hdecode : Val.decode f (f.word neg c) =
      if c / 2 ^ f.frac = 255 then (if c % 2 ^ f.frac = 0 then .inf neg else .nan) else f.number neg c := by
    cases f with
    | h16 => exact absurd rfl hf
    | s32 | x40 => simp only [Val.decode, hs, hcode, Nat.shiftRight_eq_div_pow, Fmt.number]
  rw [hdecode]
  by_cases he : c / 2 ^ f.frac = 255
  · have hmant : c % 2 ^ f.frac = 0 ↔ c = f.inf := by rw [he] at hsum; omega
    simp only [he, hmant, if_true, if_neg (mt hfin.1 (not_not.2 he))]
  · rw [if_neg he, if_pos (hfin.2 he)]

/-! Rounding (05 R97). -/

/-- A number that is a whole count of its unit loses nothing. -/
theorem split_self (m : Nat) (e : Int) : split m e e = (m, 0, 1) := by simp [split]

/-- The largest finite code (05 R86, R88 to R90). -/
def Fmt.largest : Fmt → Nat
  | .h16 => 0x7FFF | f => f.inf - 1

/-- A significand of at most frac + 1 bits, all of them used above the lowest exponent, stands in units of its own last place. -/
theorem Fmt.ulp_of_normalised (f : Fmt) {m k : Nat} (hm : m ≠ 0) (hlt : m < 2 ^ (f.frac + 1)) (hnorm : k = 0 ∨ 2 ^ f.frac ≤ m) :
    f.ulp m (f.low + k) = f.low + k := by
  have hle : Nat.log2 m ≤ f.frac := Nat.le_of_lt_succ ((Nat.log2_lt hm).2 hlt)
  obtain rfl | hnormal := hnorm
  · simp only [Fmt.ulp]; omega
  · have hge : f.frac ≤ Nat.log2 m := (Nat.le_log2 hm).2 hnormal
    simp only [Fmt.ulp]; omega

/-- A finite code is finished as itself; H16 has no −0. -/
theorem Fmt.finish_code (f : Fmt) (neg : Bool) {q k : Nat} (tiny : Bool) (hk : q = 0 → k = 0)
    (hc : k * 2 ^ f.frac + q ≤ f.largest) (hz : f = .h16 → q = 0 → neg = false) :
    f.finish neg q (f.low + k) tiny false = ⟨f.word neg (k * 2 ^ f.frac + q), 0⟩ := by
  have hcode : (if q = 0 then 0 else (f.low + k - f.low).toNat * 2 ^ f.frac + q) = k * 2 ^ f.frac + q := by
    split
    · next hq => simp [hq, hk hq]
    · simp
  simp only [Fmt.finish, hcode, Bool.and_false, flagIf]
  have hzero : k * 2 ^ f.frac + q = 0 → q = 0 := by omega
  generalize k * 2 ^ f.frac + q = c at hc hzero
  cases f with
  | h16 =>
    by_cases h0 : c = 0
    · simp [h0, hz rfl (hzero h0), Fmt.word, b2n]
    · have hfin : ¬ 0x7FFF < c := Nat.not_lt.2 hc
      simp [hfin, h0]
  | s32 | x40 =>
    have hfin := Nat.lt_of_le_sub_one (by decide) hc
    simp [Nat.not_le.2 hfin]

theorem Fmt.rne_normalised (f : Fmt) (neg : Bool) {m k : Nat} (hlt : m < 2 ^ (f.frac + 1)) (hnorm : k = 0 ∨ 2 ^ f.frac ≤ m)
    (hc : k * 2 ^ f.frac + m ≤ f.largest) (hz : f = .h16 → m = 0 → neg = false) :
    f.rne (.num neg m (f.low + k)) = ⟨f.word neg (k * 2 ^ f.frac + m), 0⟩ := by
  have hk : m = 0 → k = 0 := fun h0 => hnorm.resolve_right (by subst h0; simp)
  by_cases hm : m = 0
  · have h := f.finish_code neg (q := m) false hk hc hz
    obtain rfl := hk hm
    simpa [Fmt.rne, hm] using h
  · simp only [Fmt.rne, if_neg hm, f.ulp_of_normalised hm hlt hnorm, split_self]
    exact f.finish_code neg _ hk hc hz

theorem Fmt.rne_number (f : Fmt) (neg : Bool) {c : Nat} (hc : c ≤ f.largest) (hz : f = .h16 → c = 0 → neg = false) :
    f.rne (f.number neg c) = ⟨f.word neg c, 0⟩ := by
  have hcode := Nat.div_add_mod' c (2 ^ f.frac)
  have hfrac : c % 2 ^ f.frac < 2 ^ f.frac := Nat.mod_lt _ (by positivity)
  have hpow : 2 ^ (f.frac + 1) = 2 * 2 ^ f.frac := Nat.pow_succ'
  unfold Fmt.number
  split
  · next he =>
    rw [he, Nat.zero_mul, Nat.zero_add] at hcode
    have h := f.rne_normalised neg (m := c) (k := 0) (by omega) (.inl rfl) (by omega) hz
    simpa [hcode] using h
  · next he =>
    obtain ⟨k, hk⟩ := Nat.exists_eq_succ_of_ne_zero he
    have hsum : k * 2 ^ f.frac + (2 ^ f.frac + c % 2 ^ f.frac) = c := by
      rw [hk, Nat.succ_mul] at hcode; omega
    have h := f.rne_normalised neg (m := 2 ^ f.frac + c % 2 ^ f.frac) (k := k) (by omega) (.inr (by omega)) (by omega)
      fun _ h0 => absurd h0 (by have : 0 < 2 ^ f.frac := by positivity
                                omega)
    rwa [hsum, ← Nat.succ_sub_one k, ← hk] at h

theorem Fmt.rne_decode_h16 (neg : Bool) {c : Nat} (hc : c < 2 ^ 15) :
    Fmt.h16.rne (Val.decode .h16 (Fmt.h16.word neg c)) =
      ⟨if (Val.decode .h16 (Fmt.h16.word neg c)).isNan then Fmt.h16.nan else Fmt.h16.word neg c, 0⟩ := by
  rw [Val.decode_h16 neg hc]
  split
  · rfl
  · next hnan =>
    rw [Fmt.h16.rne_number neg (Nat.le_of_lt_succ hc) fun _ h0 => by simpa [h0] using hnan, Fmt.number_isNan]
    rfl

theorem Fmt.infinite_binary {f : Fmt} (hf : f ≠ .h16) (neg : Bool) : f.infinite neg = ⟨f.word neg f.inf, 0⟩ := by
  cases f with
  | h16 => exact absurd rfl hf
  | s32 | x40 => rfl

theorem Fmt.rne_decode_binary {f : Fmt} (hf : f ≠ .h16) (neg : Bool) {c : Nat} (hc : c < 2 ^ (f.width - 1)) :
    f.rne (Val.decode f (f.word neg c)) =
      ⟨if (Val.decode f (f.word neg c)).isNan then f.nan else f.word neg c, 0⟩ := by
  rw [Val.decode_binary hf neg hc]
  split
  · next hfin =>
    have hlargest : f.largest = f.inf - 1 := by
      cases f with
      | h16 => exact absurd rfl hf
      | s32 | x40 => rfl
    rw [f.rne_number neg (by omega) fun h => absurd h hf, Fmt.number_isNan]
    rfl
  · split
    · next hinf => rw [hinf]; exact f.infinite_binary hf neg
    · rfl

/-- Settles O19: a word is a sign and a code; the codes are the finite ones, that each number is normalised in, and those of NaN and of the
infinities. -/
theorem roundingKeepsWhatAFormatHolds : Obligations.RoundingKeepsWhatAFormatHolds := by
  unfold Obligations.RoundingKeepsWhatAFormatHolds
  intro f w hw
  obtain ⟨neg, c, hc, rfl⟩ := Fmt.eq_word hw
  by_cases hf : f = .h16
  · subst hf; exact Fmt.rne_decode_h16 neg hc
  · exact Fmt.rne_decode_binary hf neg hc

end Sys2Proof.Machine
end

section
/-! The array's cells (06): a cell's additions in order of k, an M.MMA's block cell by cell, the scratchpad under unordered writes, and O18. -/

namespace Sys2Proof.Machine

/-! Bytes read while others are written (11 R246). -/

theorem Mem.get_mixed {m : Mem} (hm : m.wf = true) (g : Nat) (l : List (Nat × Byte)) (a : Nat) :
    (m.mixed g l).get a = m.get a ∨ ∃ p ∈ l, p.1 = a ∧ (m.mixed g l).get a = p.2 := by
  induction l generalizing m g with
  | nil => exact .inl rfl
  | cons e l ih =>
    obtain ⟨c, b⟩ := e
    simp only [Mem.mixed]
    split
    · obtain hkeep | ⟨p, hp, haddr, hval⟩ := ih (Mem.set_wf hm c b) (g + 1)
      · by_cases hc : a = c
        · subst hc
          exact .inr ⟨(a, b), List.mem_cons_self, rfl, hkeep.trans (Mem.get_set hm a b)⟩
        · exact .inl (hkeep.trans (Mem.get_set_ne m b hc))
      · exact .inr ⟨p, List.mem_cons_of_mem _ hp, haddr, hval⟩
    · obtain hkeep | ⟨p, hp, haddr, hval⟩ := ih hm (g + 1)
      · exact .inl hkeep
      · exact .inr ⟨p, List.mem_cons_of_mem _ hp, haddr, hval⟩

/-! One cell's additions (05 R101 to R103). -/

/-- One addition after those that gave `r`, with the flags of all. -/
def cellThen (mode : Nat) (r : Res1 Val) (ps : List (Val × Val × Int)) (gated : Bool) : Res1 Val :=
  let q := cellStep mode r.val ps gated
  ⟨q.val, r.flags ||| q.flags⟩

theorem pairUp_append {l : List (Val × Val × Int)} (h : l.length % 2 = 0) (t : List (Val × Val × Int)) :
    pairUp (l ++ t) = pairUp l ++ pairUp t := by
  induction l using pairUp.induct with
  | case1 a b l ih =>
    simp only [List.length_cons] at h
    simp only [List.cons_append, pairUp, ih (by omega)]
  | case2 a => simp at h
  | case3 => rfl

/-- One step at a time, the last product is the last addition. -/
theorem cellRun_append_single {mode : Nat} (hmode : mode ≠ 1) (acc : Val) (l : List (Val × Val × Int)) (p : Val × Val × Int) (g : Bool) :
    cellRun mode acc (l ++ [p]) g = cellThen mode (cellRun mode acc l g) [p] g := by
  simp [cellRun, hmode, cellThen]

/-- Two at a time, what follows whole pairs as one more pair is the last addition. -/
theorem cellRun_append_pair (acc : Val) {l t : List (Val × Val × Int)} {ps : List (Val × Val × Int)} (hl : l.length % 2 = 0)
    (ht : pairUp t = [ps]) (g : Bool) : cellRun 1 acc (l ++ t) g = cellThen 1 (cellRun 1 acc l g) ps g := by
  simp [cellRun, pairUp_append hl, ht, cellThen]

/-- The products of an addition, truncated in mode 2 and scaled (05 R103; 06 R116). -/
def cellProducts (mode : Nat) (ps : List (Val × Val × Int)) : List Val :=
  ps.map (fun p => (if mode = 2 then (p.1.mul p.2.1).val.trunc34 else (p.1.mul p.2.1).val).scale p.2.2)

/-- An addition of numbers that is not gated: exact, and rounded once. -/
theorem cellStep_rounds_once (mode : Nat) {acc : Val} {ps : List (Val × Val × Int)} (g : Bool) (hacc : acc.isNan = false)
    (hps : ∀ p ∈ ps, p.1.isNan = false ∧ p.2.1.isNan = false) (hnum : ∀ v ∈ cellProducts mode ps, v.isNan = false)
    (hnz : ∃ v ∈ cellProducts mode ps, v.isZero = false) :
    (cellStep mode acc ps g).val =
      Val.decode (accFmt mode) ((accFmt mode).rne (Val.sum (acc :: cellProducts mode ps)).val).val := by
  have hfactors : (acc.isNan || ps.any fun p => p.1.isNan || p.2.1.isNan) = false := by
    simp only [hacc, Bool.false_or, List.any_eq_false, Bool.or_eq_true, not_or, Bool.not_eq_true]
    exact hps
  have hproducts : (cellProducts mode ps).any Val.isNan = false := by
    simpa only [List.any_eq_false, Bool.not_eq_true] using hnum
  have hrun : (cellProducts mode ps).all Val.isZero = false := by
    simpa only [List.all_eq_false, Bool.not_eq_true] using hnz
  unfold cellProducts at *
  simp only [cellStep, hfactors, hproducts, hrun, Bool.false_eq_true, if_false]

/-- A cell that holds a NaN keeps it where every product has a zero factor (06 R123). -/
theorem cellStep_gated_nan (mode : Nat) {acc : Val} {ps : List (Val × Val × Int)} (hacc : acc.isNan = true)
    (hps : ∀ p ∈ ps, (p.1.isZero && p.2.1.isNum) || (p.1.isNum && p.2.1.isZero)) : cellStep mode acc ps = ⟨acc, 0⟩ := by
  have hgated := List.all_eq_true.2 hps
  simp only [cellStep, hacc, hgated, Bool.true_or, Bool.and_self, if_true]

/-! The block. -/

/-- A block of words as accumulators numbered from `s` on: one for each word that is not 0. -/
def blockFrom : Nat → List Nat → KMap (BitVec 40)
  | _, [] => []
  | s, v :: l => if v = 0 then blockFrom (s + 1) l else (s, BitVec.ofNat 40 v) :: blockFrom (s + 1) l

theorem blockMap_eq (l : List Nat) : blockMap l = blockFrom 0 l := by
  suffices h : ∀ s, (((List.range' s l.length).zip l).filter (fun p => p.2 != 0)).map (fun p => (p.1, BitVec.ofNat 40 p.2)) =
      blockFrom s l by
    simpa only [blockMap, List.range_eq_range'] using h 0
  induction l with
  | nil => exact fun _ => rfl
  | cons v l ih =>
    intro s
    by_cases hv : v = 0 <;> simp [List.range'_succ, blockFrom, hv, ih]

theorem blockFrom_keys {s : Nat} {l : List Nat} : ∀ e ∈ blockFrom s l, s ≤ e.1 := by
  induction l generalizing s with
  | nil => simp [blockFrom]
  | cons v l ih =>
    intro e he
    simp only [blockFrom] at he
    split at he
    · exact Nat.le_of_succ_le (ih e he)
    · obtain rfl | he := List.mem_cons.1 he
      · exact Nat.le_refl s
      · exact Nat.le_of_succ_le (ih e he)

theorem kget_blockFrom (s n : Nat) (l : List Nat) : kget (blockFrom s l) (s + n) 0 = BitVec.ofNat 40 (l.getD n 0) := by
  induction l generalizing s n with
  | nil => rfl
  | cons v l ih =>
    simp only [blockFrom]
    cases n with
    | zero =>
      split
      · next hv =>
        have hnone : kget? (blockFrom (s + 1) l) s = none := kget?_none_of_lt blockFrom_keys
        simp [kget, hnone, hv]
      · simp [kget, kget?]
    | succ n =>
      have hrest : kget (blockFrom (s + 1) l) (s + (n + 1)) 0 = BitVec.ofNat 40 (l.getD n 0) := by
        rw [← ih (s + 1) n]; congr 1; omega
      rw [List.getD_cons_succ]
      split
      · exact hrest
      · rwa [kget, kget?, if_neg (by omega)]

theorem Tile.cell_of_acc {x : Tile} {l : List Nat} (h : x.acc = blockMap l) (i j : Nat) : x.cell i j = l.getD (64 * i + j) 0 % 2 ^ 40 := by
  have hword := kget_blockFrom 0 (64 * i + j) l
  rw [Nat.zero_add, ← blockMap_eq] at hword
  rw [Tile.cell, h, hword, BitVec.toNat_ofNat]

@[simp] theorem Tile.raise_acc (x : Tile) (tn : Nat) (v : Bool) (fl : Nat) : (x.raise tn v fl).acc = x.acc := by
  unfold Tile.raise; split <;> rfl

/-- The m × n values of `f`, row after row. -/
def tableOf {α : Type} (m n : Nat) (f : Nat → Nat → α) : List α := ((List.range m).map fun i => (List.range n).map (f i)).flatten

theorem tableOf_eq_map {α : Type} (m : Nat) {n : Nat} (f : Nat → Nat → α) (hn : 0 < n) :
    tableOf m n f = (List.range (n * m)).map fun k => f (k / n) (k % n) := by
  induction m with
  | zero => simp [tableOf]
  | succ m ih =>
    have hrow : (List.range n).map (f m) = (List.range n).map fun j => f ((n * m + j) / n) ((n * m + j) % n) := by
      refine List.map_congr_left fun j hj => ?_
      have hj := List.mem_range.1 hj
      rw [Nat.mul_add_div hn, Nat.div_eq_of_lt hj, Nat.add_zero, Nat.mul_add_mod, Nat.mod_eq_of_lt hj]
    have hlast : tableOf (m + 1) n f = tableOf m n f ++ (List.range n).map (f m) := by
      simp [tableOf, List.range_succ]
    rw [hlast, ih, hrow, Nat.mul_succ, List.range_add, List.map_append, List.map_map]
    rfl

theorem tableOf_getD {α : Type} {m n i j : Nat} (f : Nat → Nat → α) (d : α) (hi : i < m) (hj : j < n) :
    (tableOf m n f).getD (n * i + j) d = f i j := by
  have hn : 0 < n := Nat.zero_lt_of_lt hj
  have hlt : n * i + j < n * m := calc
    n * i + j < n * i + n := Nat.add_lt_add_left hj _
    _ = n * (i + 1) := (Nat.mul_succ n i).symm
    _ ≤ n * m := Nat.mul_le_mul_left n hi
  rw [tableOf_eq_map m f hn]
  simp [hlt, Nat.mul_add_div hn, Nat.div_eq_of_lt hj, Nat.mod_eq_of_lt hj]

/-- The factors and the scale of each step at cell (i, j). -/
def Tile.mmaSteps (x : Tile) (c : Cmd) (ma mb : Mem) (i j : Nat) : List (Val × Val × Int) :=
  let f := opFmt (x.rd F.TILE_M_STATUS_mode)
  (List.range (c.f2 24)).map fun k =>
    ((⟨f, bitOf (c.f1 26) 0, c.f2 16 * 64, c.f2 20 * 64⟩ : Oper).at_ ma i k,
     (⟨f, bitOf (c.f1 26) 1, c.f2 18 * 64, c.f2 22 * 64⟩ : Oper).at_ mb j k,
     scaleAt ma (bitOf (c.f1 29) 0) (c.f1 27) (c.f2 30) k + scaleAt mb (bitOf (c.f1 29) 1) (c.f1 28) (c.f2 32) k)

/-- The word that an M.MMA leaves in cell (i, j), before it is cut to its 40 bits. -/
def Tile.mmaWord (x : Tile) (c : Cmd) (ma mb : Mem) (i j : Nat) : Nat :=
  let g := accFmt (x.rd F.TILE_M_STATUS_mode)
  (g.rne (cellRun (x.rd F.TILE_M_STATUS_mode) (Val.decode g (x.cell i j)) (x.mmaSteps c ma mb i j)).val).val

/-- A function of each entry of a table and of the entry's own number. -/
theorem map_zip_range {α β : Type} (n : Nat) (f : Nat → α) (g : α × Nat → β) :
    (((List.range n).map f).zip (List.range n)).map g = (List.range n).map fun i => g (f i, i) := by
  rw [← List.map_prod_right_eq_zip, List.map_map]; rfl

theorem Tile.mma_acc (x : Tile) (tn : Nat) (c : Cmd) (ma mb : Mem) :
    (x.mma tn c ma mb).acc = blockMap (tableOf 64 64 (x.mmaWord c ma mb)) := by
  simp only [Tile.mma, Tile.raise_acc, Tile.wr, collect, map_zip_range, List.zip_map', List.map_flatten, List.map_map,
    Function.comp_def]
  rfl

/-- Settles O18: a cell's run by its last addition, one addition by the class of its operands, and the block by the word of each cell. -/
theorem mmaAddsEachCellsProductsInOrder : Obligations.MmaAddsEachCellsProductsInOrder := by
  unfold Obligations.MmaAddsEachCellsProductsInOrder
  refine ⟨fun m g l a hm => Mem.get_mixed hm g l a,
    fun mode acc l p q g => ⟨?_, fun hmode => cellRun_append_single hmode acc l p g,
      fun hl => ⟨cellRun_append_pair acc hl rfl g, cellRun_append_pair acc hl rfl g⟩⟩,
    fun mode acc ps g hacc hps hnum hnz => cellStep_rounds_once mode g hacc hps hnum hnz,
    fun mode acc ps hps hacc => cellStep_gated_nan mode hacc hps,
    fun x tn c ma mb i j hi hj => ?_⟩
  · by_cases hmode : mode = 1 <;> simp [cellRun, hmode, pairUp]
  · intro mode f a b sc steps
    rw [Tile.cell_of_acc (x.mma_acc tn c ma mb), tableOf_getD _ 0 hi hj]
    rfl

end Sys2Proof.Machine
end

section
/-! The array's commands (06 R138 to R140, R469): what a command of M does as it starts, or the fault of its first failing check; and O17. -/

namespace Sys2Proof.Machine

/-! The row of an opcode: its effect, or the fault of the first check that fails. -/

section Rows
variable {s0 : State} {t op : Nat} {c : Cmd}

theorem State.mRow_of_pass (f : State → Cmd → State) (hready : (s0.endCycle t).headReady t 0 = some c) (hpass : (s0.endCycle t).mCheck t c = 0)
    (hop : c.op = op) : s0.mRow t op f = f (s0.endCycle t) c := by
  simp only [State.mRow, hready]
  rw [if_neg (by simp [hop]), if_neg (by simp [hpass])]

theorem State.mRow_of_fault (f : State → Cmd → State) (hready : (s0.endCycle t).headReady t 0 = some c) (hfail : (s0.endCycle t).mCheck t c ≠ 0)
    (hop : c.op = op ∨ 4 < c.op) :
    s0.mRow t op f = ((s0.endCycle t).mBegin t c).mFault t ((s0.endCycle t).mCheck t c) c.pc := by
  have hmine : ¬(decide (c.op ≠ op) && decide (c.op ≤ 4)) = true := by
    obtain hop | hop := hop <;> simp [hop]
  simp only [State.mRow, hready]
  rw [if_neg hmine, if_pos hfail]

/-- A command whose opcode has no row fails the first check. -/
theorem State.mCheck_of_unlisted {s : State} (hop : 4 < c.op) : s.mCheck t c = 1 := by
  have hbad : mOpOk c = false := by
    unfold mOpOk
    rw [if_neg (by omega), if_neg (by omega), if_neg (by omega), if_neg (by omega), if_neg (by omega), Bool.and_false]
  simp [State.mCheck, hbad]

end Rows

/-! Each row with the command at the queue's head passing its checks. -/

section Starts
variable {s0 : State} {t : Fin 1200} {c : Cmd} (hready : (s0.endCycle t).headReady t 0 = some c) (hpass : (s0.endCycle t).mCheck t c = 0)
include hready hpass

theorem exec_mNop_of_pass (hop : c.op = 0) : exec (.mNop t) s0 = .next ((s0.endCycle t).mBegin t c) :=
  congrArg ok (State.mRow_of_pass _ hready hpass hop)

theorem exec_mCfg_of_pass (hop : c.op = 1) : exec (.mCfg t) s0 =
    .next (let b := (s0.endCycle t).mBegin t c; b.setTile t ((b.tile t).unseed.wr F.TILE_M_STATUS_mode (c.f1 16))) :=
  congrArg ok (State.mRow_of_pass _ hready hpass hop)

theorem exec_mSeed_of_zero (hop : c.op = 2) (hsource : c.f1 16 = 0) (e : Ecc) : exec (.mSeed t e) s0 =
    .next (let b := (s0.endCycle t).mBegin t c; b.setTile t ((b.tile t).seed .x40 [])) :=
  congrArg ok ((State.mRow_of_pass _ hready hpass hop).trans (if_pos hsource))

/-- A seed from the scratchpad: what its reads met decides between the block and the fault. -/
theorem exec_mSeed_of_block (hop : c.op = 2) (hsource : c.f1 16 ≠ 0) (e : Ecc) : exec (.mSeed t e) s0 =
    .next (let b := (s0.endCycle t).mBegin t c
      let f := Fmt.ofCode (c.f1 17)
      let g := accFmt ((b.tile t).rd F.TILE_M_STATUS_mode)
      ((b.drainSome t).countSpad t 0 (4096 * f.bytes)).withEcc t e (fun w d => d.mFault t 5 c.pc (some w)) fun d =>
        let r := (d.tile t).seedBlock f g (c.f2 18 * 64) (c.f2 20 * 64)
        d.setTile t (((d.tile t).seed g r.val).raise d.tn false r.flags)) :=
  congrArg ok ((State.mRow_of_pass _ hready hpass hop).trans (if_neg hsource))

/-- An M.MMA on a clocked array: what its reads met decides between its progress and the fault. -/
theorem exec_mMma_of_clocked (hop : c.op = 3) (hon : ((s0.endCycle t).tile t).rd F.TILE_M_STATUS_array_on = 1) (e : Ecc) :
    exec (.mMma t e) s0 = .next ((((s0.endCycle t).mBegin t c).countSpad t 0
        (2 * 64 * (opFmt (((s0.endCycle t).tile t).rd F.TILE_M_STATUS_mode)).bytes * c.f2 24 + c.scaleBytes)).withEcc t e
      (fun w d => d.mFault t 5 c.pc (some w))
      fun d => d.setTile t { d.tile t with mmaRun := some { cmd := c }, lastMma := d.time }) :=
  congrArg ok ((State.mRow_of_pass _ hready hpass hop).trans (if_pos hon))

/-- An M.DRAIN with the drain buffer free. The earlier drain's rows land first; what its reads met decides between the drain and the fault. -/
theorem exec_mDrain_of_free (hop : c.op = 4) (hfree : (s0.tile t).drain = none) (e : Ecc) (u : List (Nat × BitVec 40)) :
    exec (.mDrain t e u) s0 = .next (let b := (((s0.endCycle t).mBegin t c).drainAll t).countSpad t 0 c.drainReads
      (b.setTile t ((b.tile t).upset u)).withEcc t e
        (fun w d => (if c.mDigest then d.setTile t ((d.tile t).digClaim (c.f1 23) 4096).2 else d).mFault t 5 c.pc (some w))
        fun d => d.drainRun t c) :=
  (if_neg (by simp [hfree])).trans (congrArg ok (State.mRow_of_pass _ hready hpass hop))

end Starts

theorem exec_mDrain_of_full {s0 : State} {t : Fin 1200} (hfull : (s0.tile t).drain.isSome = true) (e : Ecc) (u : List (Nat × BitVec 40)) :
    exec (.mDrain t e u) s0 = .next s0 := if_pos hfull

theorem State.mmaEnd_of_run {s : State} {t : Nat} {r : MmaRun} (hrun : (s.tile t).mmaRun = some r) :
    s.mmaEnd t =
      let l := r.was ++ singleBytes (s.tile t).drainQ
      (s.draws (2 * l.length)).setTile t
        { (s.tile t).mma s.tn r.cmd ((s.tile t).spad.mixed s.free l) ((s.tile t).spad.mixed (s.free + l.length) l) with mmaRun := none } := by
  simp only [State.mmaEnd, hrun]

/-- Settles O17: each row by what its command does as it starts, and by `mRow_of_fault` where a check fails. -/
theorem mCommandsRun : Obligations.MCommandsRun := by
  unfold Obligations.MCommandsRun
  constructor
  · rintro s0 s t c rfl hready hpass
    exact ⟨exec_mNop_of_pass hready hpass,
      exec_mCfg_of_pass hready hpass,
      exec_mSeed_of_zero hready hpass,
      fun hop hsource => exec_mSeed_of_block hready hpass hop hsource .ok,
      fun hop hsource w => exec_mSeed_of_block hready hpass hop hsource (.uncorrectable w),
      fun hop hon => ⟨exec_mMma_of_clocked hready hpass hop hon .ok,
        fun w => exec_mMma_of_clocked hready hpass hop hon (.uncorrectable w)⟩,
      fun hop hfree => ⟨exec_mDrain_of_free hready hpass hop hfree .ok [],
        fun hdigest w => (exec_mDrain_of_free hready hpass hop hfree (.uncorrectable w) []).trans (by simp [State.withEcc, hdigest])⟩,
      fun hfull e u => exec_mDrain_of_full hfull e u,
      fun r hrun => State.mmaEnd_of_run hrun⟩
  · rintro s0 s t c rfl hready hfail
    exact ⟨fun hop => congrArg ok (State.mRow_of_fault _ hready hfail hop),
      fun hop => congrArg ok (State.mRow_of_fault _ hready hfail hop),
      fun hop e => congrArg ok (State.mRow_of_fault _ hready hfail hop),
      fun hop e => congrArg ok (State.mRow_of_fault _ hready hfail hop),
      fun hop hfree e u => (if_neg (by simp [hfree])).trans (congrArg ok (State.mRow_of_fault _ hready hfail hop)),
      State.mCheck_of_unlisted⟩

end Sys2Proof.Machine
end

section
/-! Grants of a die and completions of a tile's engines (06 R122, R138, R139; 10 R211; 11 R236; 18 R395): O20. -/

namespace Sys2Proof.Machine

/-! Requests and grants (18 R395). -/

section Grants
variable {s : State}

@[simp] theorem State.waiters_setWaiters (d : Nat) (l : List (Nat × Nat)) : (s.setWaiters d l).waiters d = l := by
  simp [State.waiters, State.setWaiters]
@[simp] theorem State.grantsFree_setWaiters (d j : Nat) (l : List (Nat × Nat)) : (s.setWaiters d l).grantsFree j = s.grantsFree j := rfl
@[simp] theorem State.tile_setWaiters (d v : Nat) (l : List (Nat × Nat)) : (s.setWaiters d l).tile v = s.tile v := rfl
@[simp] theorem State.tile_takeGrant (d v : Nat) : (s.takeGrant d).tile v = s.tile v := rfl
@[simp] theorem State.waiters_setTile (t d : Nat) (x : Tile) : (s.setTile t x).waiters d = s.waiters d := rfl

/-- With no grant free a request waits. -/
theorem State.activate_of_none {d : Nat} (hnone : s.grantsFree d = 0) (kind x : Nat) :
    s.activate d kind x = (s.setWaiters d (s.waiters d ++ [(kind, x)]), false) := by
  simp [State.activate, hnone]

/-- Only requests for a self-test are ever withdrawn (log 81). -/
theorem State.withdraw_of_noTest {d : Nat} (hnone : ∀ w ∈ s.waiters d, w.1 ≠ 2) : s.withdraw d = s.setWaiters d (s.waiters d) := by
  have hkind : ∀ w ∈ s.waiters d, (w.1 == 2) = false := fun w hw => beq_false_of_ne (hnone w hw)
  unfold State.withdraw
  extract_lets late gone
  have hlate : ∀ w ∈ s.waiters d, late w = false := fun w hw => by simp only [late, hkind w hw, Bool.false_and]
  have hgone : gone = [] := List.filter_eq_nil_iff.2 fun w hw => by simp [hlate w hw]
  have hkept : (s.waiters d).filter (fun w => !late w) = s.waiters d := List.filter_eq_self.2 fun w hw => by simp [hlate w hw]
  rw [hgone, hkept]
  rfl

theorem exec_powerGrant_of_grant {d : Fin 8} {k x : Nat} {l : List (Nat × Nat)} (hwait : (s.withdraw d).waiters d = (k, x) :: l)
    (hfree : 0 < (s.withdraw d).grantsFree d) :
    exec (.powerGrant d) s = .next ((((s.withdraw d).takeGrant d).setWaiters d l).activated k x) := by
  change execPowerGrant d s = _
  simp only [execPowerGrant, hwait]
  exact if_pos hfree

theorem exec_powerGrant_of_none {d : Fin 8} (hnone : (s.withdraw d).waiters d = [] ∨ (s.withdraw d).grantsFree d = 0) :
    exec (.powerGrant d) s = .next (s.withdraw d) := by
  change execPowerGrant d s = _
  unfold execPowerGrant
  extract_lets s1
  split
  · rfl
  · next k x l hwait =>
    have hfree : s1.grantsFree d = 0 := hnone.resolve_left (by simp [s1, hwait])
    exact if_neg (by omega)

/-- The oldest request is a tile's, and no self-test waits: the grant starts the tile's array clock. -/
theorem exec_powerGrant_of_array {d : Fin 8} {t : Nat} {l : List (Nat × Nat)} (hwait : s.waiters d = (0, t) :: l)
    (htests : ∀ w ∈ l, w.1 ≠ 2) (hfree : 0 < s.grantsFree d) :
    exec (.powerGrant d) s = .next ((((s.setWaiters d ((0, t) :: l)).takeGrant d).setWaiters d l).setTile t
      { (s.tile t).wr F.TILE_M_STATUS_array_on 1 with gateReq := false }) := by
  have hkept : s.withdraw d = s.setWaiters d ((0, t) :: l) := by
    rw [← hwait]
    exact State.withdraw_of_noTest (by simpa [hwait] using htests)
  have hgrant := exec_powerGrant_of_grant (s := s) (d := d) (k := 0) (x := t) (l := l) (by simp [hkept]) (by simpa [hkept] using hfree)
  rw [hgrant, hkept]
  rfl

theorem State.activated_site (x : Nat) : s.activated 1 x = { s with pwr := { s.pwr with sites := s.pwr.sites ++ [x] } } := rfl

theorem State.activated_test {x b : Nat} (hbay : s.bayOf x = some b) :
    s.activated 2 x = s.setBay b { s.bay b with testing := (s.bay b).testing ++ [x] } := by
  simp [State.activated, hbay]

theorem exec_arrayClockGate_of_idle {t : Fin 1200} (hidle : (s.tile t).mRun.any (fun c => c.op == 3) = false) :
    exec (.arrayClockGate t) s = .next (s.twr t F.TILE_M_STATUS_array_on 0) :=
  if_neg (by simp [hidle])

/-- An M.MMA that finds its array's clock stopped and no grant free asks for one and stays at the head of its queue (06 R122). -/
theorem exec_mMma_of_gated {s0 : State} {t : Fin 1200} {c : Cmd} (hready : (s0.endCycle t).headReady t 0 = some c)
    (hpass : (s0.endCycle t).mCheck t c = 0) (hop : c.op = 3) (hoff : ((s0.endCycle t).tile t).rd F.TILE_M_STATUS_array_on ≠ 1)
    (hfirst : ((s0.endCycle t).tile t).gateReq = false) (hnone : (s0.endCycle t).grantsFree (t / 150) = 0) (e : Ecc) :
    exec (.mMma t e) s0 = .next
      (((s0.endCycle t).setWaiters (t / 150) ((s0.endCycle t).waiters (t / 150) ++ [(0, t.val)])).setTile t
        { (s0.endCycle t).tile t with gateReq := true }) := by
  refine congrArg ok ((State.mRow_of_pass _ hready hpass hop).trans ?_)
  rw [if_neg hoff, if_neg (by simp [hfirst]), State.activate_of_none hnone]
  rfl

end Grants

/-! The commands of M that can complete (06 R139). -/

theorem mFollows_iff {earlier : List Cmd} {c : Cmd} : mFollows earlier c = true ↔
    if c.op = 0 then earlier = [] else if c.op = 4 then ∀ e ∈ earlier, e.op = 0 else ∀ e ∈ earlier, e.op = 0 ∨ e.op = 4 := by
  unfold mFollows
  split_ifs <;> simp

/-- Each entry of a list with its own number. -/
theorem mem_zip_range {α : Type} {l : List α} {n : Nat} {a : α} : (n, a) ∈ (List.range l.length).zip l ↔ l[n]? = some a := by
  rw [List.mem_iff_getElem?]
  constructor
  · rintro ⟨i, hi⟩
    obtain ⟨hn, ha⟩ := List.getElem?_zip_eq_some.1 hi
    obtain ⟨_, hn⟩ := List.getElem?_eq_some_iff.1 hn
    obtain rfl : i = n := by simpa using hn
    exact ha
  · intro ha
    exact ⟨n, List.getElem?_zip_eq_some.2 ⟨List.getElem?_range (List.getElem?_eq_some_iff.1 ha).1, ha⟩⟩

theorem Tile.mem_mDone {x : Tile} {c : Cmd} :
    c ∈ x.mDone ↔ ∃ n, x.mRun[n]? = some c ∧ x.drain.map (·.cmd) ≠ some c ∧ mFollows (x.mRun.take n) c = true := by
  simp [Tile.mDone, mem_zip_range]

theorem Tile.mDone_sublist (x : Tile) : x.mDone.Sublist x.mRun := by
  have h := (List.filter_sublist (l := (List.range x.mRun.length).zip x.mRun)
    (p := fun p => (x.drain.map (·.cmd)) != some p.2 && mFollows (x.mRun.take p.1) p.2)).map Prod.snd
  rwa [List.map_snd_zip (by simp)] at h

/-! Completions (11 R236; 06 R138; 10 R211). -/

/-- The tile with a command of M no longer in progress. -/
def Tile.mLeaves (x : Tile) (c : Cmd) : Tile :=
  ({ x with mRun := x.mRun.erase c } : Tile).wr F.TILE_M_STATUS_busy (b2n (!(x.mRun.erase c).isEmpty))

section Completions
variable {s : State}

section OfM
variable {t k : Nat} {c : Cmd} (hdone : (s.tile t).mDone[k]? = some c)
include hdone

theorem State.mComplete_of_mma (hop : c.op = 3) :
    s.mComplete t k = ((s.mmaEnd t).setTile t (((s.mmaEnd t).tile t).mLeaves c)).completeCmd t 0 c := by
  simp [State.mComplete, hdone, hop, Tile.mLeaves]

theorem State.mComplete_of_drain (hop : c.op = 4) :
    s.mComplete t k = ((s.setTile t (if c.mDigest = true then ((s.tile t).mLeaves c).digDone (c.f1 23) else (s.tile t).mLeaves c)).drainAll
      t).completeCmd t 0 c := by
  simp [State.mComplete, hdone, hop, Tile.mLeaves]

theorem State.mComplete_of_other (h3 : c.op ≠ 3) (h4 : c.op ≠ 4) :
    s.mComplete t k = (s.setTile t ((s.tile t).mLeaves c)).completeCmd t 0 c := by
  simp [State.mComplete, hdone, h3, h4, Tile.mLeaves]

end OfM

theorem State.vComplete_of_cons {t : Nat} {c : Cmd} {l : List Cmd} (hrun : (s.tile t).vRun = c :: l) :
    s.vComplete t = (s.setTile t (({ s.tile t with vRun := l } : Tile).wrs
      [(F.TILE_V_STATUS_busy, b2n (!l.isEmpty)), (F.TILE_V_STATUS_mv_busy, b2n (l.any (·.op == 2)))])).completeCmd t 1 c := by
  simp only [State.vComplete, hrun]

/-- The tile with a command of D no longer in progress. -/
def Tile.dLeaves (x : Tile) (d : DCmd) : Tile := ({ x with dRun := x.dRun.filter (·.num != d.num) } : Tile).dShow

theorem State.dComplete_of_done {t k : Nat} {d : DCmd} (hdone : ((s.tile t).dRun.filter (fun d => (s.tile t).dDone d))[k]? = some d) :
    s.dComplete t k = (s.setTile t (d.dig.elim ((s.tile t).dLeaves d) fun p => ((s.tile t).dLeaves d).digDone p.1)).completeCmd t 3 d.cmd := by
  simp only [State.dComplete, hdone]
  cases d.dig <;> rfl

/-! ENGINE_COMMAND_COMPLETE at a tile with a task: the completion of the engine that it names. -/

section Row
variable {t : Fin 1200} (hlive : (s.tile t).live = true) (k : Nat)
include hlive

theorem exec_engineCommandComplete_m : exec (.engineCommandComplete t .m k) s = .next (s.mComplete t k) := if_neg (by simp [hlive])
theorem exec_engineCommandComplete_v : exec (.engineCommandComplete t .v k) s = .next (s.vComplete t) := if_neg (by simp [hlive])
theorem exec_engineCommandComplete_s : exec (.engineCommandComplete t .s k) s = .next s := if_neg (by simp [hlive])
theorem exec_engineCommandComplete_d : exec (.engineCommandComplete t .d k) s = .next (s.dComplete t k) := if_neg (by simp [hlive])

end Row

end Completions

/-- Settles O20: the clock gate, a request with no grant free, a grant by the kind of its oldest request; and a completion by its engine and,
for M, by the command's opcode. -/
theorem enginesAreGrantedAndComplete : Obligations.EnginesAreGrantedAndComplete := by
  unfold Obligations.EnginesAreGrantedAndComplete
  refine ⟨⟨fun s t hidle => exec_arrayClockGate_of_idle hidle, ?_, fun s d t l hwait htests hfree => ?_,
    fun s d hnone => exec_powerGrant_of_none hnone, fun s d k x l hwait hfree => ⟨?_, ?_⟩⟩, fun s t hlive => ?_⟩
  · rintro s0 s t c e rfl hready hpass hop hoff hfirst hnone
    exact exec_mMma_of_gated hready hpass hop hoff hfirst hnone e
  · refine ⟨_, exec_powerGrant_of_array hwait htests hfree, by simp, by simp, fun v hv => ?_⟩
    rw [State.tile_setTile_ne _ _ hv]
    simp
  · rintro rfl
    exact exec_powerGrant_of_grant hwait hfree
  · rintro rfl b hbay
    rw [exec_powerGrant_of_grant hwait hfree, State.activated_test hbay]
  · have completesM k := exec_engineCommandComplete_m hlive k
    refine ⟨Tile.mDone_sublist _, fun c => by simp only [Tile.mem_mDone, mFollows_iff],
      fun k c hdone => ⟨fun h3 h4 => ?_, fun h3 => ?_, fun h4 => ?_⟩, fun c l hrun => ?_, fun k d hdone => ?_,
      exec_engineCommandComplete_s hlive 0⟩
    · exact (completesM k).trans (congrArg ok (State.mComplete_of_other hdone h3 h4))
    · exact (completesM k).trans (congrArg ok (State.mComplete_of_mma hdone h3))
    · exact (completesM k).trans (congrArg ok (State.mComplete_of_drain hdone h4))
    · exact (exec_engineCommandComplete_v hlive 0).trans (congrArg ok (State.vComplete_of_cons hrun))
    · rw [exec_engineCommandComplete_d hlive, State.dComplete_of_done hdone]
      cases d.dig <;> rfl

end Sys2Proof.Machine
end

section
/-! The commands of V (07 R142 to R157, R470): what a command does as it starts, or the fault of its first failing check; where a run of words
ends; the probe; and O21. -/

namespace Sys2Proof.Machine

/-! The row of an opcode: its effect on the state with the command in progress, or the fault of the first check that fails. -/

section Rows
variable {s0 : State} {t op : Nat} {c : Cmd}

theorem State.vRow_of_pass (f : State → Cmd → State) (hready : (s0.endCycle t).headReady t 1 = some c) (hpass : (vCheck c).1 = 0)
    (hop : c.op = op) : s0.vRow t op f = f ((s0.endCycle t).vBegin t c) c := by
  simp only [State.vRow, hready]
  rw [if_neg (by simp [hop]), if_neg (by simp [hpass])]

theorem State.vRow_of_fault (f : State → Cmd → State) (hready : (s0.endCycle t).headReady t 1 = some c) (hfail : (vCheck c).1 ≠ 0)
    (hop : c.op = op) : s0.vRow t op f = ((s0.endCycle t).vBegin t c).vFault t (vCheck c).1 0 (vCheck c).2 c.pc := by
  simp only [State.vRow, hready]
  rw [if_neg (by simp [hop]), if_pos hfail]

end Rows

/-! One word of a run (07 R143, R146). -/

section Words
variable {r : VRun} {t it k w : Nat} {d : Draws}

/-- A run that has ended performs no further word. -/
theorem VRun.word_of_stopped (hstop : r.stop.isSome = true) : r.word t it k w d = r := if_pos hstop

theorem VRun.word_of_mem (hgoes : r.stop = none) (hmem : wMem w = true) : r.word t it k w d = r.mem t it k w := by
  simp [VRun.word, hgoes, hmem]

theorem VRun.word_of_reg (hgoes : r.stop = none) (hreg : wMem w = false) : r.word t it k w d =
    { r with st := r.st.setTile t (((r.st.tile t).regWord w d).val.raise r.st.tn true ((r.st.tile t).regWord w d).flags) } := by
  simp [VRun.word, hgoes, hreg]

/-- V_BOUNDS: an access that is not whole in the scratchpad. -/
theorem VRun.mem_of_outside (hout : memAddr w it < 0 ∨ (spadSize : Int) < memAddr w it + memSize w) :
    r.mem t it k w = { r with stop := some (3, it, k) } := if_pos hout

/-- V_ECC: a load, inside the scratchpad, that meets an uncorrectable word. -/
theorem VRun.mem_of_uncorrectable (hlow : 0 ≤ memAddr w it) (hhigh : memAddr w it + memSize w ≤ (spadSize : Int)) (hload : wOp w ≠ 2)
    (hbad : eccBad r.ecc = true) (hhits : eccHits r.ecc (memAddr w it).toNat (memSize w) = true) :
    r.mem t it k w = { r with stop := some (4, it, k) } := by
  have hin : ¬ (memAddr w it < 0 ∨ (spadSize : Int) < memAddr w it + memSize w) := by omega
  simp only [VRun.mem]
  rw [if_neg hin, if_neg hload, if_pos (by simp [hbad, hhits])]

end Words

/-! Each row with the command at the queue's head passing its checks. -/

/-- The whole run of command `c` in the state `b` that has it in progress: its words, iteration by iteration, under tile `t`'s key and step. -/
def State.vWords (b : State) (t : Nat) (c : Cmd) (e : Ecc) : VRun :=
  VRun.iters { st := b, ecc := e } t c.words
    ⟨(b.tile t).rd F.TILE_V_KEY_key, (b.tile t).rd F.TILE_V_STEP_step, c.f2 20, c.f4 24⟩
    (if c.words.any (fun w => wOp w == 0x38) then 16 else 8) (c.f2 16) 0

section Starts
variable {s0 : State} {t : Fin 1200} {c : Cmd} (hready : (s0.endCycle t).headReady t 1 = some c) (hpass : (vCheck c).1 = 0)
include hready hpass

theorem exec_vNop_of_pass (hop : c.op = 0) : exec (.vNop t) s0 = .next ((s0.endCycle t).vBegin t c) :=
  congrArg ok (State.vRow_of_pass _ hready hpass hop)

/-- A V.RUN ends as its words leave the tile, with the fault that ended them if there is one. -/
theorem exec_vRun_of_pass (hop : c.op = 1) (e : Ecc) : exec (.vRun t e) s0 =
    .next (let r := ((s0.endCycle t).vBegin t c).vWords t c e
      match r.stop with
      | some (code, it, k) => r.st.vFault t code it k c.pc (if code = 4 then some (eccWord r.ecc) else none)
      | none => r.st) :=
  congrArg ok (State.vRow_of_pass _ hready hpass hop)

theorem exec_vRun_of_done (hop : c.op = 1) {e : Ecc} (hdone : (((s0.endCycle t).vBegin t c).vWords t c e).stop = none) :
    exec (.vRun t e) s0 = .next (((s0.endCycle t).vBegin t c).vWords t c e).st := by
  simp only [exec_vRun_of_pass hready hpass hop, hdone]

theorem exec_vRun_of_stop (hop : c.op = 1) {e : Ecc} {code it k : Nat}
    (hstop : (((s0.endCycle t).vBegin t c).vWords t c e).stop = some (code, it, k)) :
    exec (.vRun t e) s0 = .next ((((s0.endCycle t).vBegin t c).vWords t c e).st.vFault t code it k c.pc
      (if code = 4 then some (eccWord (((s0.endCycle t).vBegin t c).vWords t c e).ecc) else none)) := by
  simp only [exec_vRun_of_pass hready hpass hop, hstop]

/-- A V.MV: what its reads met decides between the output vectors and the fault. -/
theorem exec_vMv_of_pass (hop : c.op = 2) (e : Ecc) : exec (.vMv t e) s0 =
    .next (((((s0.endCycle t).vBegin t c).drainSome t).countSpad t 0 (128 * c.f2 20)).withEcc t e
      (fun w d => d.vFault t 4 0 0 c.pc (some w))
      fun d =>
        let rs := (List.range (c.f1 22)).map ((d.tile t).mvRow c)
        d.setTile t ((((List.range (c.f1 22)).zip rs).foldl (fun (z : Tile) p => z.putV 0 (c.f1 24 + 2 * p.1) p.2.val) (d.tile t)).raise
          d.tn true (flagsOf (rs.map (·.flags))))) :=
  congrArg ok (State.vRow_of_pass _ hready hpass hop)

end Starts

/-- 07 R157: a write of 8 bytes to TILE_V_PROBE_CTR that the check lets through. -/
theorem exec_vProbe_of_lets {s : State} {m : Master} {t : Fin 1200} (hlet : s.lets m (tileOff t 0x1118) = true) (ctr : Dword) :
    exec (.vProbe m t 8 ctr) s = .next (s.setTile t ((s.tile t).probe ctr.toNat)) :=
  congrArg ok (State.guarded_of_lets _ hlet)

/-- Settles O21: each row by what its command does as it starts, a word of a run by its kind, and by `vRow_of_fault` where a check fails. -/
theorem vCommandsRun : Obligations.VCommandsRun := by
  unfold Obligations.VCommandsRun
  constructor
  · rintro s0 s t c rfl hready
    refine ⟨fun hpass => ⟨exec_vNop_of_pass hready hpass, fun hop e => ⟨?_, ?_⟩, fun r it k w => ⟨?_, ?_, ?_, ?_⟩,
      fun hop w => exec_vMv_of_pass hready hpass hop (.uncorrectable w), fun hop => exec_vMv_of_pass hready hpass hop .ok⟩, ?_⟩
    · exact exec_vRun_of_done hready hpass hop
    · exact fun code it k => exec_vRun_of_stop hready hpass hop
    · exact VRun.word_of_stopped
    · exact fun hgoes hmem hout => (VRun.word_of_mem hgoes hmem).trans (VRun.mem_of_outside hout)
    · exact fun hgoes hmem hlow hhigh hload hbad hhits =>
        (VRun.word_of_mem hgoes hmem).trans (VRun.mem_of_uncorrectable hlow hhigh hload hbad hhits)
    · exact VRun.word_of_reg
    · intro hfail
      exact ⟨fun hop => congrArg ok (State.vRow_of_fault _ hready hfail hop),
        fun hop e => congrArg ok (State.vRow_of_fault _ hready hfail hop),
        fun hop e => congrArg ok (State.vRow_of_fault _ hready hfail hop)⟩
  · exact fun s m t ctr hlet => exec_vProbe_of_lets hlet ctr

end Sys2Proof.Machine
end

section
/-! S's registers, ALU, branches and jumps (08 R165, R166, R168): O8 to O11. -/

namespace Sys2Proof.Machine

/-! The ALU's operations on words. -/

theorem asInt_toNat (a : Word) : asInt a.toNat = a.toInt := by
  have ha : a.toNat < 2 ^ 32 := a.isLt
  rw [asInt, signed, Nat.mod_eq_of_lt ha, BitVec.toInt_eq_toNat_cond]
  split_ifs <;> omega

theorem aluOp_add_eq (a b : Nat) : aluOp 0 a b = (a + b) % 2 ^ 32 := rfl

/-- The difference modulo 2³², which is named first: by `rfl` alone the kernel would count the number down. -/
theorem aluOp_sub_eq (a b : Nat) : aluOp 1 a b = (a + 2 ^ 32 - b) % 2 ^ 32 := by
  obtain ⟨p, hp⟩ : ∃ p, p = 2 ^ 32 := ⟨_, rfl⟩
  rw [aluOp.eq_def, ← hp]
  rfl

theorem aluOp_sra_eq (a b : Nat) : aluOp 7 a b = ((asInt a >>> (b % 32)) % 2 ^ 32).toNat := rfl
theorem aluOp_slt_eq (a b : Nat) : aluOp 8 a b = b2n (decide (asInt a < asInt b)) := rfl
theorem aluOp_sltu_eq (a b : Nat) : aluOp 9 a b = b2n (decide (a < b)) := rfl

theorem aluOp_sub (a b : Word) : aluOp 1 a.toNat b.toNat = (a - b).toNat := by
  have hb : b.toNat < 2 ^ 32 := b.isLt
  rw [aluOp_sub_eq, BitVec.toNat_sub]
  congr 1
  omega

theorem aluOp_sra (a b : Word) : aluOp 7 a.toNat b.toNat = (a.sshiftRight (b.toNat % 32)).toNat := by
  have hback := BitVec.toNat_ofInt (n := 32) (a.sshiftRight (b.toNat % 32)).toInt
  rw [BitVec.ofInt_toInt] at hback
  rw [aluOp_sra_eq, asInt_toNat, ← BitVec.toInt_sshiftRight]
  exact_mod_cast hback.symm

theorem aluOp_slt (a b : Word) : aluOp 8 a.toNat b.toNat = if a.toInt < b.toInt then 1 else 0 := by
  simp only [aluOp_slt_eq, asInt_toNat, b2n, decide_eq_true_eq]

theorem aluOp_sltu (a b : Word) : aluOp 9 a.toNat b.toNat = if a < b then 1 else 0 := by
  simp only [aluOp_sltu_eq, b2n, decide_eq_true_eq, BitVec.lt_def]

/-- The sum with an immediate taken as a word is the sum modulo 2³². -/
theorem aluOp_add_imm (a w : Nat) : aluOp 0 a (immWord w) = (((a : Int) + sImm w) % 2 ^ 32).toNat := by
  rw [aluOp_add_eq, immWord]
  omega

/-- Settles O9: operation by operation, as `BitVec` gives it. -/
theorem aluFollowsItsTable : Obligations.AluFollowsItsTable := fun a b =>
  ⟨(BitVec.toNat_add a b).symm, aluOp_sub a b, (BitVec.toNat_and a b).symm, (BitVec.toNat_or a b).symm, (BitVec.toNat_xor a b).symm,
    (BitVec.toNat_shiftLeft ..).symm, (BitVec.toNat_ushiftRight ..).symm, aluOp_sra a b, aluOp_slt a b, aluOp_sltu a b,
    (BitVec.toNat_mul a b).symm, rfl⟩

/-! The general registers (08 R165). -/

section Registers
variable {x : Tile} (hx : KMap.wf x.g = true)
include hx

theorem Tile.setG_wf (n v : Nat) : KMap.wf (x.setG n v).g = true := by
  unfold Tile.setG
  split_ifs
  · exact hx
  · exact kdel_wf hx n
  · exact kput_wf hx n _

theorem Tile.gr_setG {n : Nat} (hn : n ≠ 0) (v m : Nat) : (x.setG n v).gr m = if m = n then v % 2 ^ 32 else x.gr m := by
  unfold Tile.setG Tile.gr
  by_cases hm : m = 0
  · simp [hm, hn.symm]
  · by_cases hv : v % 2 ^ 32 = 0
    · simp only [hn, hm, hv, if_true, if_false, kget, kget?_kdel hx]
      split_ifs <;> rfl
    · simp only [hn, hm, hv, if_false, kget_kput]
      split_ifs <;> simp

end Registers

/-- Settles O10: g0 is neither read nor written, and every other register is an entry of the map. -/
theorem generalRegistersReadAsWritten : Obligations.GeneralRegistersReadAsWritten := by
  refine fun x n v => ⟨rfl, rfl, fun hx => ⟨Tile.setG_wf hx n v, fun hn => by simp [Tile.gr_setG hx hn], fun m hm => ?_⟩⟩
  by_cases hn : n = 0
  · subst hn; rfl
  · simp [Tile.gr_setG hx hn, hm]

/-! A row that changes only the tile. -/

/-- Of two values put at one place the second stays. -/
theorem kput_kput_same {α : Type} (m : KMap α) (k : Nat) (v w : α) : kput (kput m k v) k w = kput m k w := by
  induction m with
  | nil => simp [kput]
  | cons e m ih =>
    obtain ⟨j, u⟩ := e
    simp only [kput]
    split_ifs with heq hlt
    · simp [kput]
    · simp [kput]
    · simp [kput, heq, hlt, ih]

@[simp] theorem State.setTile_setTile (s : State) (t : Nat) (x y : Tile) : (s.setTile t x).setTile t y = s.setTile t y := by
  simp [State.setTile, kput_kput_same]

section Issue
variable {s0 s : State} {i : SIssue} {op : Nat}

theorem State.setTile_sIssued (s : State) (i : SIssue) (x : Tile) : (s.sIssued i).setTile i.tile x = s.setTile i.tile x :=
  s.setTile_setTile _ _ _

/-- A row that changes only the tile changes the tile in which S has issued. -/
theorem State.sTile_of_runs (f : Tile → Nat → Tile) (hr : s0.sRuns i op s) :
    s0.sTile i op f = s.setTile i.tile (f (s.issued i) (s.tile i.tile).pc) := by
  rw [State.sTile, State.sRow_of_runs _ hr, State.setTile_sIssued, State.sIssued_tile]

/-- A branch goes where its comparison of ra and rb says. -/
theorem State.sBranch_of_runs (cmp : Nat → Nat → Bool) (hr : s0.sRuns i op s) :
    s0.sBranch i op cmp = s.setTile i.tile
      (if cmp ((s.tile i.tile).gr (sRd i.word.toNat)) ((s.tile i.tile).gr (sRa i.word.toNat)) then
        (s.issued i).setPc ((s.tile i.tile).pc + sImm i.word.toNat * 4) else s.issued i) := by
  rw [State.sBranch, State.sTile_of_runs _ hr, State.issued_gr, State.issued_gr]

end Issue

/-- Settles O8: each row changes only the tile, by the write of rd. -/
theorem sArithmeticWritesOnlyRd : Obligations.SArithmeticWritesOnlyRd := by
  unfold Obligations.SArithmeticWritesOnlyRd
  intro s0 s i x y w
  have row : ∀ {op} f, s0.sRuns i op s → ok (s0.sTile i op f) = .next (s.setTile i.tile (f y x.pc)) :=
    fun f hr => congrArg ok (State.sTile_of_runs f hr)
  refine ⟨row _, fun hr => ?_, row _, row _, row _, row _, row _⟩
  rw [← aluOp_add_imm]
  exact row _ hr

/-- Settles O11: each row changes only the tile: the PC, and for a jump rd before it. -/
theorem sBranchesAndJumps : Obligations.SBranchesAndJumps := by
  unfold Obligations.SBranchesAndJumps
  intro s0 s i x y w a b goes
  have branch : ∀ {op} cmp, s0.sRuns i op s → ok (s0.sBranch i op cmp) = .next (goes (cmp a b)) :=
    fun cmp hr => congrArg ok (State.sBranch_of_runs cmp hr)
  have jump : ∀ {op} f, s0.sRuns i op s → ok (s0.sTile i op f) = .next (s.setTile i.tile (f y x.pc)) :=
    fun f hr => congrArg ok (State.sTile_of_runs f hr)
  exact ⟨branch _, branch _, branch _, branch _, branch _, branch _, jump _, jump _⟩

end Sys2Proof.Machine
end

section
/-! S's scratchpad and global accesses (08 R169 to R174; 11 R235): O12. -/

namespace Sys2Proof.Machine

section Runs
variable {s0 s : State} {i : SIssue} {op : Nat} (hr : s0.sRuns i op s)
include hr

theorem State.sAt_of_runs : s0.sAt i op = s := hr.1.symm

theorem State.ecc_of_runs : i.ecc = .ok := by
  have h := hr.2
  simp only [State.issues, Bool.and_eq_true, beq_iff_eq] at h
  exact h.2

end Runs

/-! The own scratchpad (08 R169). -/

section Spad
variable {s0 s : State} {i : SIssue}

/-- A load from the own scratchpad: the address check, then rd takes the word. -/
theorem exec_ldW_of_runs (hr : s0.sRuns i 0x08 s) :
    exec (.ldW i) s0 = .next ((s.sIssued i).sSpad i.tile ((s.tile i.tile).index i.word.toNat) (s.tile i.tile).pc fun u =>
      let b := (u.drainSome i.tile).countSpad i.tile 0 4
      b.setTile i.tile ((b.tile i.tile).setG (sRd i.word.toNat)
        (leNat ((b.tile i.tile).spad.read ((s.tile i.tile).index i.word.toNat) 4)))) := by
  refine (congrArg ok (State.sRow_of_runs _ hr)).trans ?_
  simp only [State.sIssued_tile, State.issued_index, State.ecc_of_runs hr, State.withEcc]
  rfl

/-- A store to the own scratchpad: the address check, then the four bytes. -/
theorem exec_stW_of_runs (hr : s0.sRuns i 0x09 s) :
    exec (.stW i) s0 = .next ((s.sIssued i).sSpad i.tile ((s.tile i.tile).index i.word.toNat) (s.tile i.tile).pc fun u =>
      u.spadWrite i.tile ((s.tile i.tile).index i.word.toNat) (leBytes 4 ((s.tile i.tile).gr (sRd i.word.toNat)))) := by
  refine (congrArg ok (State.sRow_of_runs _ hr)).trans ?_
  simp only [State.sIssued_tile, State.issued_index, State.issued_gr]
  rfl

variable {t a pc : Nat} (f : State → State)

theorem State.sSpad_of_inside (hal : a % 4 = 0) (hin : a + 4 ≤ spadSize) : s.sSpad t a pc f = f s :=
  (if_neg (by omega)).trans (if_neg (by omega))
theorem State.sSpad_of_misaligned (hal : a % 4 ≠ 0) : s.sSpad t a pc f = s.sFault t 0x02 pc := if_pos hal
theorem State.sSpad_of_outside (hal : a % 4 = 0) (hout : spadSize < a + 4) : s.sSpad t a pc f = s.sFault t 0x03 pc :=
  (if_neg (by omega)).trans (if_pos hout)

end Spad

/-! Global loads and stores (08 R170, R173, R174). -/

/-- The load that S asks for: its request's tag, its kind, rd and place, and the accesses of the location that it waits for (11 R235). -/
def State.loadAsked (s : State) (i : SIssue) (kind a : Nat) : Load :=
  let y := s.issued i
  ⟨y.nextTag, kind, (s.tile i.tile).pc, sRd i.word.toNat, a, true, y.storesAt kind a ++ y.loadsHeld a⟩

/-- The state in which the load is outstanding and its request has not left. -/
def State.loadHeld (s : State) (i : SIssue) (kind a : Nat) : State :=
  let y := s.issued i
  s.setTile i.tile { y with nextTag := y.nextTag + 1, loads := y.loads ++ [s.loadAsked i kind a] }

section Global
variable {s0 s : State} {i : SIssue}

theorem State.issueLoad_sIssued (s : State) (i : SIssue) (kind a : Nat) :
    (s.sIssued i).issueLoad i.tile kind (s.tile i.tile).pc (sRd i.word.toNat) a =
      if (s.loadAsked i kind a).wait = [] then (s.loadHeld i kind a).sendLoad i.tile (s.loadAsked i kind a) else s.loadHeld i kind a := by
  simp only [State.issueLoad, State.sIssued_tile, Tile.takeTag, State.setTile_sIssued, List.isEmpty_iff]
  rfl

theorem State.issueLoad_of_free {kind a : Nat} (hfree : ¬ (s.loadAsked i kind a).wait ≠ []) :
    (s.sIssued i).issueLoad i.tile kind (s.tile i.tile).pc (sRd i.word.toNat) a = (s.loadHeld i kind a).sendLoad i.tile (s.loadAsked i kind a) := by
  rw [State.issueLoad_sIssued, if_pos (not_not.1 hfree)]

theorem State.issueLoad_of_waits {kind a : Nat} (hwaits : (s.loadAsked i kind a).wait ≠ []) :
    (s.sIssued i).issueLoad i.tile kind (s.tile i.tile).pc (sRd i.word.toNat) a = s.loadHeld i kind a := by
  rw [State.issueLoad_sIssued, if_neg hwaits]

/-- What a global access of S meets: a misaligned address, its places taken, or neither. -/
def State.sGlobal (s : State) (i : SIssue) (a : Nat) (full : Bool) (u : State) : State :=
  if a % 4 ≠ 0 then (s.sIssued i).sFault i.tile 0x02 (s.tile i.tile).pc else if full then s.sStall i.tile 7 else u

theorem State.sGlobal_of_misaligned {a : Nat} (hal : a % 4 ≠ 0) (full : Bool) (u : State) :
    s.sGlobal i a full u = (s.sIssued i).sFault i.tile 0x02 (s.tile i.tile).pc := if_pos hal
theorem State.sGlobal_of_full {a : Nat} {full : Bool} (hal : a % 4 = 0) (hfull : full = true) (u : State) :
    s.sGlobal i a full u = s.sStall i.tile 7 := (if_neg (not_not.2 hal)).trans (if_pos hfull)
theorem State.sGlobal_of_room {a : Nat} {full : Bool} (hal : a % 4 = 0) (hroom : full = false) (u : State) :
    s.sGlobal i a full u = u := (if_neg (not_not.2 hal)).trans (if_neg (by simp [hroom]))

theorem exec_ldG_of_runs (hr : s0.sRuns i 0x0A s) :
    let a := (s.issued i).globalAddr (sRa i.word.toNat) (sImm i.word.toNat)
    exec (.ldG i) s0 = .next (s.sGlobal i a (s.issued i).loadsFull
      ((s.sIssued i).issueLoad i.tile 0 (s.tile i.tile).pc (sRd i.word.toNat) a)) := by
  refine (congrArg ok (State.sRow_of_runs _ hr)).trans ?_
  simp only [State.sIssued_tile, State.sAt_of_runs hr]
  rfl

theorem exec_stG_of_runs (hr : s0.sRuns i 0x0C s) :
    let y := s.issued i
    let c := y.globalAddr (sRa i.word.toNat) (sGoff i.word.toNat)
    let d := leBytes 4 (y.gr (sRd i.word.toNat))
    exec (.stG i) s0 = .next (s.sGlobal i c y.storesFull
      ((s.setTile i.tile (({ y with dcache := storeLine y.dcache c d } : Tile).stopFills (fun b => b / 64 == c / 64))).issueWrite
        i.tile .s (s.tile i.tile).pc c (sLc i.word.toNat) d (y.loadsAt c)).1) := by
  refine (congrArg ok (State.sRow_of_runs _ hr)).trans ?_
  simp only [State.sIssued_tile, State.sAt_of_runs hr, State.setTile_sIssued]
  rfl

section Cached
variable (hr : s0.sRuns i 0x0B s)
include hr

theorem exec_ldGc_of_misaligned (hal : (s.issued i).globalAddr (sRa i.word.toNat) (sImm i.word.toNat) % 4 ≠ 0) :
    exec (.ldGc i) s0 = .next ((s.sIssued i).sFault i.tile 0x02 (s.tile i.tile).pc) := by
  refine (congrArg ok (State.sRow_of_runs _ hr)).trans ?_
  simp only [State.sIssued_tile, if_pos hal]
  rfl

theorem exec_ldGc_of_hit {l : Line} (hal : (s.issued i).globalAddr (sRa i.word.toNat) (sImm i.word.toNat) % 4 = 0)
    (hline : lineAt (s.issued i).dcache ((s.issued i).globalAddr (sRa i.word.toNat) (sImm i.word.toNat)) = some l) :
    exec (.ldGc i) s0 = .next (s.setTile i.tile ((s.issued i).setG (sRd i.word.toNat)
      (leNat (sub l.data ((s.issued i).globalAddr (sRa i.word.toNat) (sImm i.word.toNat) % 64) 4)))) := by
  refine (congrArg ok (State.sRow_of_runs _ hr)).trans ?_
  simp only [State.sIssued_tile, if_neg (not_not.2 hal), hline, State.ecc_of_runs hr, if_true, State.setTile_sIssued]
  rfl

theorem exec_ldGc_of_miss (hmiss : lineAt (s.issued i).dcache ((s.issued i).globalAddr (sRa i.word.toNat) (sImm i.word.toNat)) = none) :
    let a := (s.issued i).globalAddr (sRa i.word.toNat) (sImm i.word.toNat)
    exec (.ldGc i) s0 = .next (s.sGlobal i a (s.issued i).loadsFull
      ((s.sIssued i).issueLoad i.tile 1 (s.tile i.tile).pc (sRd i.word.toNat) a)) := by
  refine (congrArg ok (State.sRow_of_runs _ hr)).trans ?_
  simp only [State.sIssued_tile, hmiss, State.sAt_of_runs hr]
  rfl

end Cached

end Global

/-- Settles O12: each row checks its address first, then for a global access whether a place is free, and a load whether its request leaves at
once. -/
theorem sMemoryAccess : Obligations.SMemoryAccess := by
  unfold Obligations.SMemoryAccess
  constructor
  · intro s0 s i x w a
    refine ⟨fun hr => ?_, fun hr => ?_⟩
    · rw [exec_ldW_of_runs hr]
      exact ⟨fun hal hin => congrArg ok (State.sSpad_of_inside _ hal hin), fun hal => congrArg ok (State.sSpad_of_misaligned _ hal),
        fun hal hout => congrArg ok (State.sSpad_of_outside _ hal hout)⟩
    · rw [exec_stW_of_runs hr]
      exact ⟨fun hal hin => congrArg ok (State.sSpad_of_inside _ hal hin), fun hal => congrArg ok (State.sSpad_of_misaligned _ hal),
        fun hal hout => congrArg ok (State.sSpad_of_outside _ hal hout)⟩
  · intro s0 s i t y w pc a c d asks waits
    have leaves {kind : Nat} (hfree : ¬ waits kind) :
        (s.sIssued i).issueLoad t kind pc (sRd w) a = (asks kind).sendLoad t (s.loadAsked i kind a) := State.issueLoad_of_free hfree
    have stays {kind : Nat} (hwaits : waits kind) : (s.sIssued i).issueLoad t kind pc (sRd w) a = asks kind := State.issueLoad_of_waits hwaits
    refine ⟨fun hr hal hroom hfree => ?_, fun hr hal => ⟨fun l hline => exec_ldGc_of_hit hr hal hline, fun hmiss hroom hfree => ?_⟩,
      fun hr hal hroom => ?_, fun hr hal hroom hwaits => ?_, fun hr hal hmiss hroom hwaits => ?_, fun hr => ⟨fun hal => ?_, fun hal hfull => ?_⟩,
      fun hr => ⟨fun hal => exec_ldGc_of_misaligned hr hal, fun hal hmiss hfull => ?_⟩, fun hr => ⟨fun hal => ?_, fun hal hfull => ?_⟩⟩
    · exact (exec_ldG_of_runs hr).trans (congrArg ok ((State.sGlobal_of_room hal hroom _).trans (leaves hfree)))
    · exact (exec_ldGc_of_miss hr hmiss).trans (congrArg ok ((State.sGlobal_of_room hal hroom _).trans (leaves hfree)))
    · exact (exec_stG_of_runs hr).trans (congrArg ok (State.sGlobal_of_room hal hroom _))
    · exact (exec_ldG_of_runs hr).trans (congrArg ok ((State.sGlobal_of_room hal hroom _).trans (stays hwaits)))
    · exact (exec_ldGc_of_miss hr hmiss).trans (congrArg ok ((State.sGlobal_of_room hal hroom _).trans (stays hwaits)))
    · exact (exec_ldG_of_runs hr).trans (congrArg ok (State.sGlobal_of_misaligned hal _ _))
    · exact (exec_ldG_of_runs hr).trans (congrArg ok (State.sGlobal_of_full hal hfull _))
    · exact (exec_ldGc_of_miss hr hmiss).trans (congrArg ok (State.sGlobal_of_full hal hfull _))
    · exact (exec_stG_of_runs hr).trans (congrArg ok (State.sGlobal_of_misaligned hal _ _))
    · exact (exec_stG_of_runs hr).trans (congrArg ok (State.sGlobal_of_full hal hfull _))

end Sys2Proof.Machine
end

section
/-! S's own page, staging slots and pushes (08 R169, R176, R177): O13. -/

namespace Sys2Proof.Machine

/-! The tile's own page (08 R169). -/

section Page
variable {s0 s : State} {i : SIssue} {op size : Nat} (f : State → Tile → Nat → State)

theorem State.sReg_of_register (hr : s0.sRuns i op s) (hok : regOk ((s.tile i.tile).index i.word.toNat) size = true) :
    s0.sReg i op size f = f (s.sIssued i) (s.issued i) ((s.tile i.tile).index i.word.toNat) := by
  simp only [State.sReg, State.sRow_of_runs _ hr, State.sIssued_tile, State.issued_index, hok, if_true]

theorem State.sReg_of_other (hr : s0.sRuns i op s) (hbad : regOk ((s.tile i.tile).index i.word.toNat) size = false) :
    s0.sReg i op size f = (s.sIssued i).sFault i.tile 0x03 (s.tile i.tile).pc := by
  simp only [State.sReg, State.sRow_of_runs _ hr, State.sIssued_tile, State.issued_index, hbad, Bool.false_eq_true, if_false]

end Page

/-! Staging slots (08 R177). -/

/-- A staging map with a word in it; a word 0 is not listed. -/
def stagePut (st : KMap Word) (k v : Nat) : KMap Word := if v = 0 then kdel st k else kput st k (BitVec.ofNat 32 v)

theorem kget_stagePut {st : KMap Word} (hst : KMap.wf st = true) (k v j : Nat) :
    kget (stagePut st k v) j 0 = if j = k then BitVec.ofNat 32 v else kget st j 0 := by
  unfold stagePut
  by_cases hv : v = 0
  · simp only [hv, if_true, kget, kget?_kdel hst]
    split_ifs <;> rfl
  · simp only [hv, if_false, kget_kput]

/-! Pushes (08 R176). -/

section Push
variable {s0 s : State} {i : SIssue}

theorem exec_enq_of_runs (hr : s0.sRuns i 0x21 s) :
    exec (.enq i) s0 = .next (s.setTile i.tile ((s.issued i).push s.tn s.sinceEdge s.time (engOfQ (sQ i.word.toNat)) (s.tile i.tile).pc
      ((s.issued i).slotBytes (sQ i.word.toNat) ((s.issued i).slotOf i.word.toNat)))) := by
  refine (congrArg ok (State.sTile_of_runs _ hr)).trans ?_
  rw [← State.sAt_of_runs hr]
  simp only [State.sAt_tn, State.sAt_sinceEdge, State.sAt_time]
  rfl

/-- A push of scratchpad bytes: the address check, then the push of what the read finds. -/
theorem exec_enqs_of_runs (hr : s0.sRuns i 0x22 s) :
    let a := (s.issued i).gr (sEa i.word.toNat)
    let pc := (s.tile i.tile).pc
    let b := ((s.sIssued i).drainSome i.tile).countSpad i.tile 0 64
    exec (.enqs i) s0 = .next (if a % 64 ≠ 0 then (s.sIssued i).sFault i.tile 0x02 pc
      else if spadSize < a + 64 then (s.sIssued i).sFault i.tile 0x03 pc
      else b.setTile i.tile ((b.tile i.tile).push b.tn b.sinceEdge b.time (engOfQ (sQ i.word.toNat)) pc ((b.tile i.tile).spad.read a 64))) := by
  refine (congrArg ok (State.sRow_of_runs _ hr)).trans ?_
  simp only [State.sIssued_tile, State.ecc_of_runs hr, State.withEcc]
  rfl

end Push

/-- Settles O13: a register access by its check, a staging word as an entry of its map, a push by its address check and the room in the queue. -/
theorem sPageAndQueues : Obligations.SPageAndQueues := by
  unfold Obligations.SPageAndQueues
  constructor
  · intro s0 s i t x y w o s1
    have lands {op size : Nat} (f) (hr : s0.sRuns i op s) (hok : regOk o size = true) :
        ok (s0.sReg i op size f) = .next (f s1 y o) := congrArg ok (State.sReg_of_register f hr hok)
    have faults {op size : Nat} (f) (hr : s0.sRuns i op s) (hbad : regOk o size = false) :
        ok (s0.sReg i op size f) = .next (s1.sFault t 0x03 x.pc) := congrArg ok (State.sReg_of_other f hr hbad)
    refine ⟨fun hr hok => ?_, fun hr hok => ?_, lands _, lands _, faults _, faults _, faults _, faults _⟩
    · exact (lands _ hr hok).trans (congrArg ok (State.setTile_sIssued ..))
    · exact (lands _ hr hok).trans (congrArg ok (State.setTile_sIssued ..))
  · intro s0 s i t x y w e pushed s2 y2
    refine ⟨fun hr => ⟨stagePut y.stage (stageKey (sQ w) (y.slotOf w) (sWord w)) (y.gr (sEa w)), ?_, fun hst k => kget_stagePut hst ..⟩,
      fun hr => ?_, fun hr hal hin => ?_, fun hr hal => ?_⟩
    · exact congrArg ok (State.sTile_of_runs _ hr)
    · exact exec_enq_of_runs hr
    · exact (exec_enqs_of_runs hr).trans (congrArg ok ((if_neg (not_not.2 hal)).trans (if_neg (Nat.not_lt.2 hin))))
    · exact (exec_enqs_of_runs hr).trans (congrArg ok (if_pos hal))

end Sys2Proof.Machine
end

section
/-! S's sync and landing counters, and what the end of a cycle releases (12 R254 to R262; 11 R238): O14. -/

namespace Sys2Proof.Machine

/-! Waits and takes as S issues them. -/

section Issue
variable {s0 s : State} {i : SIssue} {op : Nat}

/-- A row that changes only the tile, at the tick, cycle and time of the state in which S issues. -/
theorem State.sTile_of_runs_now (f : Nat → Nat → Nat → Tile → Tile) (hr : s0.sRuns i op s) :
    s0.sTile i op (fun x _ => f s0.tn s0.sinceEdge s0.time x) = s.setTile i.tile (f s.tn s.sinceEdge s.time (s.issued i)) := by
  rw [State.sTile_of_runs _ hr, ← State.sAt_of_runs hr, State.sAt_tn, State.sAt_sinceEdge, State.sAt_time]

theorem exec_signal_of_runs (hr : s0.sRuns i 0x28 s) : exec (.signal i) s0 =
    .next ((s.sIssued i).signalLocal i.tile 7 (sCtr i.word.toNat) ((s.issued i).gr (sEa i.word.toNat))) := by
  refine (congrArg ok (State.sRow_of_runs _ hr)).trans ?_
  simp only [State.sIssued_tile]
  rfl

theorem exec_set_of_runs (hr : s0.sRuns i 0x2D s) : exec (.set i) s0 =
    .next ((s.sIssued i).sync i.tile 9 (fun x => x.setCtr s.tn (sCtr i.word.toNat) ((s.issued i).gr (sEa i.word.toNat)))) := by
  refine (congrArg ok (State.sRow_of_runs _ hr)).trans ?_
  simp only [State.sIssued_tile]
  rfl

/-- TAKE: the operand's range, then the take (12 R257). -/
theorem exec_take_of_runs (hr : s0.sRuns i 0x2C s) :
    let v := (s.issued i).gr (sEa i.word.toNat)
    exec (.take i) s0 = .next (if 2 ^ 31 ≤ v then (s.sIssued i).sFault i.tile 0x01 (s.tile i.tile).pc
      else (s.sIssued i).takeFrom i.tile (sCtr i.word.toNat) v) := by
  refine (congrArg ok (State.sRow_of_runs _ hr)).trans ?_
  simp only [State.sIssued_tile]
  rfl

/-- SIGNAL.R: to the own tile a SIGNAL, else sent if a place is free (12 R258). -/
theorem exec_signalR_of_runs (hr : s0.sRuns i 0x29 s) :
    let y := s.issued i
    let w := i.word.toNat
    let a := y.pair (sEb w)
    let s2 := s.setTile i.tile { y with
      nextTag := y.nextTag + 1, stores := y.stores ++ [⟨y.nextTag, 2, (s.tile i.tile).pc, a, 0xFF, 0, s.time, true, false, false, [], []⟩] }
    exec (.signalR i) s0 = .next (
      if devOf a = s.devId ∧ (s.sIssued i).signalTile (a % 2 ^ 48) = some i.tile.val then (s.sIssued i).signalLocal i.tile 7 (sCtr w) (y.gr (sEa w))
      else if y.storesFull then s.sStall i.tile 7
      else s2.sendSignal (s2.reqOf i.tile .s false y.nextTag a) (sCtr w) (y.gr (sEa w))) := by
  refine (congrArg ok (State.sRow_of_runs _ hr)).trans ?_
  simp only [State.sIssued_tile, State.sAt_of_runs hr, Tile.takeTag, State.setTile_sIssued]
  rfl

variable {t c n : Nat}

theorem State.takeFrom_of_zero : s.takeFrom t c 0 = s := if_pos rfl
theorem State.takeFrom_of_satisfied (hn : n ≠ 0) (hsat : satisfies ((s.tile t).ctr c) n = true) :
    s.takeFrom t c n = s.sync t 11 (fun x => x.setCtr s.tn c ((x.ctr c + 2 ^ 32 - n) % 2 ^ 32)) := (if_neg hn).trans (if_pos hsat)
theorem State.takeFrom_of_unsatisfied (hn : n ≠ 0) (hsat : satisfies ((s.tile t).ctr c) n = false) :
    s.takeFrom t c n =
      s.setTile t (((s.tile t).setWaiting c 2 true).beginWait s.tn s.sinceEdge s.time 2 (c + 512 + 1024 * n) (.counter c n true false)) :=
  (if_neg hn).trans (if_neg (by simp [hsat]))

end Issue

/-! The waiters at the end of a cycle (12 R256, R257, R261, R262). -/

section Waiters
variable {z : Tile} {tn cyc k thr : Nat} {take acq : Bool}

theorem Tile.endCycle_of_closed (h : z.opened = none) : z.endCycle = z := by simp only [Tile.endCycle, h]
theorem Tile.endCycle_of_open {o : SyncCycle} (h : z.opened = some o) :
    z.endCycle = ({ z with opened := none } : Tile).poll o.tn o.cyc := by simp only [Tile.endCycle, h]

section Counter
variable (hw : z.swait = .counter k thr take acq)
include hw

theorem Tile.pollS_of_counter_unsatisfied (hsat : satisfies (z.ctr k) thr = false) : z.pollS tn cyc = z := by
  simp [Tile.pollS, hw, hsat]

theorem Tile.pollS_of_counter_satisfied (hsat : satisfies (z.ctr k) thr = true) :
    z.pollS tn cyc =
      let u := if take then z.setCtr tn k ((z.ctr k + 2 ^ 32 - thr % 2 ^ 32) % 2 ^ 32) else z
      let r := (u.setWaiting k 2 false).unstall.event tn cyc 2 3 (k + 1024 * z.ctr k)
      if acq then r.acquire else r := by
  simp only [Tile.pollS, hw, hsat, if_true]

end Counter

section Landing
variable (hw : z.swait = .landing k thr acq)
include hw

theorem Tile.pollS_of_landing_unsatisfied (hsat : satisfies (z.rd (F.TILE_LC_count k)) thr = false) : z.pollS tn cyc = z := by
  simp [Tile.pollS, hw, hsat]

theorem Tile.pollS_of_landing_satisfied (hsat : satisfies (z.rd (F.TILE_LC_count k)) thr = true) :
    z.pollS tn cyc =
      let r := z.unstall.event tn cyc 2 3 (k + 256 + 1024 * z.rd (F.TILE_LC_count k))
      if acq then r.acquire else r := by
  simp only [Tile.pollS, hw, hsat, if_true]

end Landing

section Head
variable {e : Nat} {h : Cmd} {l : List Cmd} (hq : z.q e = h :: l)
include hq

theorem Tile.pollHead_of_not_due (hnot : h.seen = false ∨ h.rel = true ∨ satisfies (z.ctr h.waitCtr) h.waitThr = false) :
    z.pollHead tn cyc e = z := by
  simp only [Tile.pollHead, hq]
  exact if_neg (by obtain hn | hn | hn := hnot <;> simp [hn])

theorem Tile.pollHead_of_due (hseen : h.seen = true) (hrel : h.rel = false) (hsat : satisfies (z.ctr h.waitCtr) h.waitThr = true) :
    z.pollHead tn cyc e =
      ((z.setQ e ({ h with rel := true } :: l)).setWaiting h.waitCtr e false).event tn cyc e 3 (h.waitCtr + 1024 * z.ctr h.waitCtr) := by
  simp [Tile.pollHead, hq, hseen, hrel, hsat]

end Head

/-- Outside PK1 ordering a head may start when it is released, the tile has a task, and neither a stop nor a halted die holds it. -/
theorem State.headReady_eq_some_iff {s : State} {u e : Nat} {h : Cmd} {l : List Cmd} (hq : (s.tile u).q e = h :: l)
    (hpk : (s.tile u).rd F.TILE_MM_STATUS_pk1 ≠ 1) :
    s.headReady u e = some h ↔ h.rel = true ∧ (s.tile u).live = true ∧ s.stopped = false ∧ s.rd (F.PWR_DIE_halted (u / 150)) = 0 := by
  simp [State.headReady, hq, hpk, and_assoc]

end Waiters

/-- Settles O14: the rows by what each does with its counter, the end of a cycle by what each waiter's test does. -/
theorem sCountersAndWaits : Obligations.SCountersAndWaits := by
  unfold Obligations.SCountersAndWaits
  intro s0 s i t x y w c v tn cy l sat lsat
  have waits {op : Nat} (f : Nat → Nat → Nat → Tile → Tile) (hr : s0.sRuns i op s) :
      ok (s0.sTile i op (fun x _ => f s0.tn s0.sinceEdge s0.time x)) = .next (s.setTile t (f tn cy s.time y)) :=
    congrArg ok (State.sTile_of_runs_now f hr)
  have htile : (s.sIssued i).tile t = y := State.sIssued_tile s i
  have takes (hr : s0.sRuns i 0x2C s) (hsmall : v < 2 ^ 31) : exec (.take i) s0 = .next ((s.sIssued i).takeFrom t c v) :=
    (exec_take_of_runs hr).trans (congrArg ok (if_neg (Nat.not_le.2 hsmall)))
  refine ⟨exec_signal_of_runs, exec_set_of_runs, fun hr => ?_, fun hr => ?_, fun hr => ?_, fun hr => ?_,
    fun hr => ⟨fun hbig => ?_, fun hzero => ?_, fun hsmall hn hsat => ?_, fun hsmall hn hsat => ?_⟩,
    fun hr hroom hother => ?_, fun hr => ⟨fun hdev hown => ?_, fun hfull hother => ?_⟩,
    fun z tn cyc => ⟨Tile.endCycle_of_closed, fun o ho => Tile.endCycle_of_open ho,
      fun k thr take acq hw => ⟨Tile.pollS_of_counter_unsatisfied hw, Tile.pollS_of_counter_satisfied hw⟩,
      fun k thr acq hw => ⟨Tile.pollS_of_landing_unsatisfied hw, Tile.pollS_of_landing_satisfied hw⟩,
      fun e h l hq => ⟨Tile.pollHead_of_not_due hq, Tile.pollHead_of_due hq⟩⟩,
    fun u e h l hq hpk => State.headReady_eq_some_iff hq hpk⟩
  · exact waits (fun tn cyc now x => x.waitOn tn cyc now c (x.gr (sEa w)) false) hr
  · exact waits (fun tn cyc now x => x.waitOn tn cyc now c (x.gr (sEa w)) true) hr
  · exact waits (fun tn cyc now x => x.lwaitOn tn cyc now l (x.gr (sEa w)) false) hr
  · exact waits (fun tn cyc now x => x.lwaitOn tn cyc now l (x.gr (sEa w)) true) hr
  · exact (exec_take_of_runs hr).trans (congrArg ok (if_pos hbig))
  · refine (takes hr (by omega)).trans ?_
    rw [hzero, State.takeFrom_of_zero]
    rfl
  · rw [takes hr hsmall, State.takeFrom_of_satisfied hn (by rw [htile]; exact hsat)]
    rfl
  · rw [takes hr hsmall, State.takeFrom_of_unsatisfied hn (by rw [htile]; exact hsat), htile, State.setTile_sIssued]
    rfl
  · exact (exec_signalR_of_runs hr).trans (congrArg ok ((if_neg hother).trans (if_neg (Bool.eq_false_iff.1 hroom))))
  · exact (exec_signalR_of_runs hr).trans (congrArg ok (if_pos ⟨hdev, hown⟩))
  · exact (exec_signalR_of_runs hr).trans (congrArg ok ((if_neg hother).trans (if_pos hfull)))

end Sys2Proof.Machine
end

section
/-! S's fences, cache invalidations, TIME, EVT, TRAP and HALT, and the end of a fence (11 R240 to R243; 08 R168, R174, R184): O16. -/

namespace Sys2Proof.Machine

/-- An event changes registers of the tile alone. -/
theorem Tile.event_frame (x : Tile) (tn cyc e code arg : Nat) : ∃ r, x.event tn cyc e code arg = { x with regs := r } := by
  unfold Tile.event
  split_ifs <;> exact ⟨_, rfl⟩

@[simp] theorem Tile.event_fails (x : Tile) (tn cyc e code arg : Nat) : (x.event tn cyc e code arg).fails = x.fails := by
  obtain ⟨r, hr⟩ := x.event_frame tn cyc e code arg
  rw [hr]

/-! The rows. -/

section Rows
variable {s0 s : State} {i : SIssue}

theorem exec_fenceLocal_of_runs (hr : s0.sRuns i 0x30 s) : exec (.fenceLocal i) s0 =
    .next ((s.setTile i.tile (((s.issued i).stallFor s.time 6 .fenceLocal).wr F.TILE_MM_STATUS_fence_local 1)).pollFence i.tile) := by
  refine (congrArg ok (State.sRow_of_runs _ hr)).trans ?_
  simp only [State.sIssued_tile, State.setTile_sIssued]
  rfl

theorem exec_fenceRemote_of_runs (hr : s0.sRuns i 0x31 s) :
    let y := s.issued i
    exec (.fenceRemote i) s0 = .next ((s.setTile i.tile
      ((y.stallFor s.time 6 (.fenceRemote (y.rd F.TILE_MM_ISSUED_bytes) y.nextTag)).wr F.TILE_MM_STATUS_fence_remote 1)).pollFence i.tile) := by
  refine (congrArg ok (State.sRow_of_runs _ hr)).trans ?_
  simp only [State.sIssued_tile, State.setTile_sIssued]
  rfl

/-- The tile that S has halted. -/
def State.sHalted (s : State) (i : SIssue) : Tile :=
  ((s.issued i).event s.tn s.sinceEdge 2 8 (s.tile i.tile).pc).wr F.TILE_S_STATUS_state 2

theorem State.sHalted_fails (s : State) (i : SIssue) : (s.sHalted i).fails = (s.issued i).fails :=
  Tile.event_fails ..

/-- HALT: the tile halts, and a write of its that has failed ends the task (11 R242). -/
theorem exec_halt_of_runs (hr : s0.sRuns i 0x3F s) : exec (.halt i) s0 =
    .next (if (s.issued i).fails ≠ [] then
        (s.setTile i.tile ((s.sHalted i).wr F.TILE_MM_STATUS_fence_failed 1)).sFault i.tile 0x0A (s.tile i.tile).pc
      else s.setTile i.tile (s.sHalted i)) := by
  have hrow : exec (.halt i) s0 = .next (if !(s.sHalted i).fails.isEmpty then
        ((s.sIssued i).setTile i.tile ((s.sHalted i).wr F.TILE_MM_STATUS_fence_failed 1)).sFault i.tile 0x0A (s.tile i.tile).pc
      else (s.sIssued i).setTile i.tile (s.sHalted i)) := by
    refine (congrArg ok (State.sRow_of_runs _ hr)).trans ?_
    simp only [State.sIssued_tile]
    rfl
  rw [hrow, State.sHalted_fails, State.setTile_sIssued, State.setTile_sIssued]
  simp only [Bool.not_eq_true', List.isEmpty_eq_false_iff]

end Rows

/-! The end of a fence (11 R240 to R242). -/

section Fence
variable {s : State} {t : Nat}

theorem State.pollFence_of_local (hw : (s.tile t).swait = .fenceLocal) (hacc : (s.tile t).accessesDone = true)
    (hidle : (s.tile t).idleEngines = true) :
    s.pollFence t = s.setTile t ((s.tile t).unstall.wr F.TILE_MM_STATUS_fence_local 0) := by
  simp only [State.pollFence, hw, hacc, hidle, Bool.and_self, if_true]

theorem Tile.writesDone_iff {x : Tile} {upTo : Nat} :
    x.writesDone upTo = true ↔ ∀ e ∈ x.stores, e.own = true ∨ e.signal = true ∨ upTo ≤ e.tag := by
  simp [Tile.writesDone, or_assoc]

variable {issued upTo : Nat} (hw : (s.tile t).swait = .fenceRemote issued upTo)
include hw

theorem State.pollFence_of_remote (hgood : ∀ g ∈ (s.tile t).fails, upTo ≤ g) :
    s.pollFence t =
      if ((s.tile t).rd F.TILE_MM_ACKED_bytes + 2 ^ 64 - issued) % 2 ^ 64 < 2 ^ 63 ∧
          (∀ e ∈ (s.tile t).stores, e.own = true ∨ e.signal = true ∨ upTo ≤ e.tag) then
        s.setTile t ((s.tile t).unstall.wr F.TILE_MM_STATUS_fence_remote 0)
      else s := by
  have hany : (s.tile t).fails.any (fun g => decide (g < upTo)) = false := by simpa using hgood
  simp only [State.pollFence, hw, hany, Bool.false_eq_true, if_false, Bool.and_eq_true, decide_eq_true_eq, Tile.writesDone_iff]

theorem State.pollFence_of_failed (hbad : ∃ g ∈ (s.tile t).fails, g < upTo) :
    s.pollFence t = (s.setTile t ((s.tile t).wr F.TILE_MM_STATUS_fence_failed 1)).tileFault t .s 0x0A ((s.tile t).rd F.TILE_S_PC_pc - 4) := by
  have hany : (s.tile t).fails.any (fun g => decide (g < upTo)) = true := by simpa using hbad
  simp only [State.pollFence, hw, hany, if_true]

end Fence

/-- Settles O16: the rows by what each changes, a fence by what its test finds. -/
theorem sFencesCachesAndEnd : Obligations.SFencesCachesAndEnd := by
  unfold Obligations.SFencesCachesAndEnd
  constructor
  · intro s0 s i t x y w
    have row {op : Nat} (f : Tile → Nat → Tile) (hr : s0.sRuns i op s) : ok (s0.sTile i op f) = .next (s.setTile t (f y x.pc)) :=
      congrArg ok (State.sTile_of_runs f hr)
    have rowNow {op : Nat} (f : Nat → Nat → Nat → Tile → Tile) (hr : s0.sRuns i op s) :
        ok (s0.sTile i op (fun x _ => f s0.tn s0.sinceEdge s0.time x)) = .next (s.setTile t (f s.tn s.sinceEdge s.time y)) :=
      congrArg ok (State.sTile_of_runs_now f hr)
    refine ⟨exec_fenceLocal_of_runs, exec_fenceRemote_of_runs, row _, row _, rowNow (fun tn _ _ x => x.setPair (sRd w) tn),
      rowNow (fun tn cyc _ x => x.event tn cyc 2 6 (sUimm w)), fun hr => congrArg ok (State.sRow_of_runs _ hr), fun hr hgood => ?_, fun hr hbad => ?_⟩
    · exact (exec_halt_of_runs hr).trans (congrArg ok (if_neg (not_not.2 hgood)))
    · exact (exec_halt_of_runs hr).trans (congrArg ok (if_pos hbad))
  · exact fun s t => ⟨State.pollFence_of_local, fun issued upTo hw => State.pollFence_of_remote hw, fun issued upTo hw => State.pollFence_of_failed hw⟩

end Sys2Proof.Machine
end

section
/-! The end of a task (08 R182 to R186; 20 R422): faults, aborts, finished and quiescent tiles, and O26. -/

namespace Sys2Proof.Machine

/-! Fields set together. -/

theorem fld_setFlds_apart {r : Regs} (hr : KMap.wf r = true) {l : List (Fld × Nat)} {g : Fld} (hl : ∀ e ∈ l, e.1.apart g = true) :
    fld (setFlds r l) g = fld r g := by
  induction l generalizing r with
  | nil => rfl
  | cons e l ih =>
    obtain ⟨he, hl'⟩ := List.forall_mem_cons.1 hl
    rw [setFlds, ih (setFld_wf hr e.1 e.2) hl', fld_setFld_apart hr e.1 g e.2 he]

/-- Of fields set together, none laid over an earlier one, each reads as it was set, modulo its width. -/
theorem fld_setFlds {r : Regs} (hr : KMap.wf r = true) {l : List (Fld × Nat)} (hl : (l.map Prod.fst).Pairwise (fun f g => g.apart f = true))
    {f : Fld} {v : Nat} (hmem : (f, v) ∈ l) (hfits : f.lo + f.width ≤ 64) : fld (setFlds r l) f = v % 2 ^ f.width := by
  induction l generalizing r with
  | nil => simp at hmem
  | cons e l ih =>
    obtain ⟨g, w⟩ := e
    obtain ⟨hg, hl'⟩ := List.pairwise_cons.1 hl
    obtain heq | hin := List.mem_cons.1 hmem
    · cases heq
      rw [setFlds, fld_setFlds_apart (setFld_wf hr f v) (fun e he => hg e.1 (List.mem_map_of_mem he)), fld_setFld hr f v hfits]
    · exact ih (setFld_wf hr g w) hl' hin

/-! Events (20 R418 to R420): they change the rings and their pointers. -/

theorem ringEntry_ge (e k : Nat) : 0x4000 ≤ ringEntry e k := by unfold ringEntry; omega

/-- A register below the rings' pointers keeps its value when an event is put. -/
theorem Tile.rget_putEvent (x : Tile) (tn cyc e code arg : Nat) {o : Nat} (ho : o < 0x2808) :
    rget (x.putEvent tn cyc e code arg).regs o = rget x.regs o := by
  have hstamp : ∀ k, o ≠ ringEntry e k := fun k => by have := ringEntry_ge e k; omega
  have hwhat : ∀ k, o ≠ ringEntry e k + 8 := fun k => by have := ringEntry_ge e k; omega
  unfold Tile.putEvent
  rw [Tile.wrs, rget_setFlds_ne]
  · dsimp only
    split_ifs <;> simp only [rget_rput_ne _ _ (hstamp _), rget_rput_ne _ _ (hwhat _)]
  · intro f hf
    simp only [List.mem_cons, List.not_mem_nil, or_false] at hf
    obtain rfl | rfl | rfl := hf <;> (show o ≠ 0x2808 + 8 * e) <;> omega

theorem Tile.rget_event (x : Tile) (tn cyc e code arg : Nat) {o : Nat} (ho : o < 0x2808) :
    rget (x.event tn cyc e code arg).regs o = rget x.regs o := by
  unfold Tile.event
  split_ifs
  · rfl
  · exact rget_setFld_ne _ _ _ (show o ≠ 0x2808 + 8 * e by omega)
  · exact x.rget_putEvent tn cyc e code arg ho

/-! Aborts (08 R184 to R186). -/

/-- An event on each of the four rings. -/
def Tile.eventAll (x : Tile) (tn cyc code arg : Nat) : Tile := x.onRings (fun z e => z.event tn cyc e code arg)

theorem Tile.eventAll_frame (x : Tile) (tn cyc code arg : Nat) : ∃ r, x.eventAll tn cyc code arg = { x with regs := r } := by
  unfold Tile.eventAll Tile.onRings
  generalize [0, 1, 2, 3] = l
  induction l generalizing x with
  | nil => exact ⟨x.regs, rfl⟩
  | cons e l ih =>
    obtain ⟨r, hr⟩ := x.event_frame tn cyc e code arg
    obtain ⟨r', hr'⟩ := ih (x.event tn cyc e code arg)
    exact ⟨r', by rw [List.foldl_cons, hr', hr]⟩

theorem Tile.rget_eventAll (x : Tile) (tn cyc code arg : Nat) {o : Nat} (ho : o < 0x2808) :
    rget (x.eventAll tn cyc code arg).regs o = rget x.regs o := by
  simp only [Tile.eventAll, Tile.onRings, List.foldl_cons, List.foldl_nil, Tile.rget_event _ _ _ _ _ _ ho]

theorem Tile.dQuiet_frame (x : Tile) (tn cyc n : Nat) : ∃ r, x.dQuiet tn cyc n = { x with regs := r } := by
  unfold Tile.dQuiet
  split_ifs
  · exact (x.wr F.TILE_D_STATUS_quiescent 1).event_frame tn cyc 3 0xC n
  · exact ⟨x.regs, rfl⟩

theorem Tile.rget_dQuiet (x : Tile) (tn cyc n : Nat) {o : Nat} (ho : o < 0x2808) (hd : o ≠ 0x1600) :
    rget (x.dQuiet tn cyc n).regs o = rget x.regs o := by
  unfold Tile.dQuiet
  split_ifs
  · exact (Tile.rget_event _ _ _ _ _ _ ho).trans (rget_setFld_ne _ _ _ hd)
  · rfl

/-- The record of an abort, and the state ABORTING. -/
def abortRecord (tn cause origin pc trap : Nat) : List (Fld × Nat) :=
  [(F.TILE_S_ABORT_cause, cause), (F.TILE_S_ABORT_origin, origin), (F.TILE_S_ABORT_valid, 1),
    (F.TILE_S_ABORT_tn_low, tn), (F.TILE_S_ABORT_INFO_pc, pc), (F.TILE_S_ABORT_INFO_trap_code, trap), (F.TILE_S_STATUS_state, 3)]

/-- The fields of that record. -/
def abortFields : List Fld :=
  [F.TILE_S_ABORT_cause, F.TILE_S_ABORT_origin, F.TILE_S_ABORT_valid, F.TILE_S_ABORT_tn_low, F.TILE_S_ABORT_INFO_pc, F.TILE_S_ABORT_INFO_trap_code,
    F.TILE_S_STATUS_state]

theorem abortRecord_fields (tn cause origin pc trap : Nat) : (abortRecord tn cause origin pc trap).map Prod.fst = abortFields := rfl

theorem abortFields_apart : abortFields.Pairwise (fun f g => g.apart f = true) := by decide

/-- Neither the rings nor TILE_D_STATUS holds a field of the record. -/
theorem abortFields_place : ∀ f ∈ abortFields, f.off < 0x2808 ∧ f.off ≠ 0x1600 ∧ f.lo + f.width ≤ 64 := by decide

section Abort
variable (x : Tile) (tn cyc now cause origin pc trap : Nat)

/-- An abort: what it clears, its record, its events, and D, which may be quiescent at once. -/
theorem Tile.abort_eq : x.abort tn cyc now cause origin pc trap =
    (({ x.endCycle.abortClear.clearWaiting.wrs (abortRecord tn cause origin pc trap) with abortAt := now } : Tile).eventAll tn cyc 0xA
      (cause + 256 * origin)).dQuiet tn cyc 0 := rfl

/-- Outside the registers an abort leaves what `abortClear` leaves. -/
theorem Tile.abort_frame : ∃ r, x.abort tn cyc now cause origin pc trap = { x.endCycle.abortClear with regs := r, abortAt := now } := by
  rw [Tile.abort_eq]
  obtain ⟨r, hr⟩ := Tile.dQuiet_frame (({ x.endCycle.abortClear.clearWaiting.wrs (abortRecord tn cause origin pc trap) with
    abortAt := now } : Tile).eventAll tn cyc 0xA (cause + 256 * origin)) tn cyc 0
  obtain ⟨r', hr'⟩ := Tile.eventAll_frame ({ x.endCycle.abortClear.clearWaiting.wrs (abortRecord tn cause origin pc trap) with
    abortAt := now } : Tile) tn cyc 0xA (cause + 256 * origin)
  exact ⟨r, by rw [hr, hr']; rfl⟩

/-- A field of the abort's record reads as the abort wrote it. -/
theorem Tile.rd_abort (hx : KMap.wf x.endCycle.abortClear.clearWaiting.regs = true) {f : Fld} {v : Nat}
    (hmem : (f, v) ∈ abortRecord tn cause origin pc trap) :
    (x.abort tn cyc now cause origin pc trap).rd f = v % 2 ^ f.width := by
  obtain ⟨ho, hd, hfits⟩ := abortFields_place f (List.mem_map_of_mem (f := Prod.fst) hmem)
  rw [Tile.abort_eq, Tile.rd, fld, Tile.rget_dQuiet _ _ _ _ ho hd, Tile.rget_eventAll _ _ _ _ _ ho]
  exact fld_setFlds hx (l := abortRecord ..) abortFields_apart hmem hfits

end Abort

/-! Faults (08 R183, R184). -/

@[simp] theorem State.tile_record (s : State) (r : Rec) (v : Nat) : (s.record r).tile v = s.tile v := by
  obtain ⟨regs, safe, log, out, pcie, i3c, h⟩ := s.record_frame r
  rw [h]
  rfl

@[simp] theorem State.tile_suspect (s : State) (site v : Nat) : (s.suspect site).tile v = s.tile v := by
  unfold State.suspect
  split_ifs <;> rfl

section Fault
variable {s : State} {t : Nat} (e : Engine) (cause pc trap : Nat) (ecc : Option Nat)

theorem State.tileFault_of_not_live (hlive : (s.tile t).live = false) : s.tileFault t e cause pc trap ecc = s := if_pos (by simp [hlive])

theorem State.tile_tileFault_of_live (hlive : (s.tile t).live = true) : (s.tileFault t e cause pc trap ecc).tile t =
    (((s.drainSome t).tile t).endCycle.event s.tn s.sinceEdge (engNo e) 9 cause).abort s.tn s.sinceEdge s.time cause t pc trap := by
  have hsends : ∀ (u : State) (x : Tile) (o : Out), ((u.setTile t x).sends o).tile t = x := fun u x o => u.tile_setTile t x
  simp only [State.tileFault, hlive, Bool.not_true, Bool.false_eq_true, if_false]
  split
  · rw [State.tile_record, State.tile_suspect, hsends]
  · rw [hsends]

end Fault

/-! Finished and quiescent tiles (08 R182, R184; 20 R422). -/

@[simp] theorem State.queue_setTile (s : State) (t : Nat) (x : Tile) (q : Nat) : (s.setTile t x).queue q = s.queue q := rfl
@[simp] theorem State.queue_sends (s : State) (o : Out) (q : Nat) : (s.sends o).queue q = s.queue q := rfl
@[simp] theorem State.queue_setBay (s : State) (b : Nat) (x : Bay) (q : Nat) : (s.setBay b x).queue q = s.queue q := rfl

/-- The packet is the LAUNCH that runs on bay `b`. -/
def launchOf (b : Nat) (p : Pkt) : Bool := p.type == 2 && p.stage == 2 && p.bay == some b

section Bay
variable {s : State} {t : Fin 1200} {b : Nat} (hbay : s.bayOf t = some b)
include hbay

section Finish
variable (hmay : (s.tile t).mayFinish = true) (hgo : s.stopped = false)
include hmay hgo

/-- The tile IDLE, reported, and counted among the finished ones of its bay. -/
def State.tileDone (s : State) (t b : Nat) : State :=
  ((s.setTile t ((s.tile t).wr F.TILE_S_STATUS_state 0)).sends (.tileFinished t)).setBay b
    { s.bay b with finished := (s.bay b).finished ++ [t] }

theorem exec_tileFinish_of_others (hothers : (s.bayTiles b).all (fun u => ((s.bay b).finished ++ [t.val]).contains u) = false) :
    exec (.tileFinish t) s = .next (s.tileDone t b) := by
  simp only [exec, execTileFinish, hbay, hmay, hgo, hothers, Bool.not_false, Bool.and_self, Bool.false_eq_true, if_true, if_false]
  rfl

variable (hlast : (s.bayTiles b).all (fun u => ((s.bay b).finished ++ [t.val]).contains u) = true)
include hlast

/-- The bay's last tile, with a LAUNCH in progress: it completes (08 R182). -/
theorem exec_tileFinish_of_launch {q k : Nat} (hholder : (s.bay b).holder = some q) (hpkt : (s.queue q).busyPkt (launchOf b) = some k) :
    exec (.tileFinish t) s = .next (((s.tileDone t b).completePkt q k).releaseBay b) := by
  unfold launchOf at hpkt
  simp only [exec, execTileFinish, State.tileDone, hbay, hmay, hgo, hlast, hholder, hpkt, State.queue_setBay, State.queue_sends,
    State.queue_setTile, Bool.not_false, Bool.and_self, if_true]
  rfl

theorem exec_tileFinish_of_none (hnone : (s.bay b).holder = none ∨ ∃ q, (s.bay b).holder = some q ∧ (s.queue q).busyPkt (launchOf b) = none) :
    exec (.tileFinish t) s = .next ((s.tileDone t b).releaseBay b) := by
  unfold launchOf at hnone
  obtain hholder | ⟨q, hholder, hpkt⟩ := hnone
  · simp only [exec, execTileFinish, State.tileDone, hbay, hmay, hgo, hlast, hholder, Bool.not_false, Bool.and_self, if_true]
    rfl
  · simp only [exec, execTileFinish, State.tileDone, hbay, hmay, hgo, hlast, hholder, hpkt, State.queue_setBay, State.queue_sends,
      State.queue_setTile, Bool.not_false, Bool.and_self, if_true]
    rfl

end Finish

section Quiescent
variable (hstate : (s.tile t).state = 3) (hquiet : (s.tile t).rd F.TILE_D_STATUS_quiescent = 1)
include hstate hquiet

/-- The tile QUIESCENT, its rings frozen, reported. -/
def State.tileQuiet (s : State) (t : Nat) : State :=
  ((s.setTile t (((s.tile t).wr F.TILE_S_STATUS_state 4).onRings (fun z e => z.freeze s.tn s.sinceEdge e 2))).sends (.tileQuiescent t)).control
    (s.tileNode t) .hub 3 t

/-- The queue that holds the bay and is being destroyed goes on. -/
theorem exec_tileQuiescent_of_stopping {q : Nat} (hholder : (s.bay b).holder = some q) (hq : ((s.tileQuiet t).queue q).state = 4) :
    exec (.tileQuiescent t) s = .next ((s.tileQuiet t).destroyStep q) := by
  unfold State.tileQuiet at *
  simp only [exec, execTileQuiescent, hstate, hquiet, and_self, if_true, hbay, Option.bind_some, hholder, hq]
  rfl

theorem exec_tileQuiescent_of_other (hother : ∀ q, (s.bay b).holder = some q → ((s.tileQuiet t).queue q).state ≠ 4) :
    exec (.tileQuiescent t) s = .next (s.tileQuiet t) := by
  unfold State.tileQuiet at *
  cases hholder : (s.bay b).holder with
  | none =>
    simp only [exec, execTileQuiescent, hstate, hquiet, and_self, if_true, hbay, Option.bind_some, hholder]
    rfl
  | some q =>
    simp only [exec, execTileQuiescent, hstate, hquiet, and_self, if_true, hbay, Option.bind_some, hholder, hother q hholder, if_false]
    rfl

end Quiescent
end Bay

/-- Settles O26: a fault by what it leaves of its tile, an abort by what it clears and by its record, the rows by the bay's holder. -/
theorem tilesFinishAndBecomeQuiescent : Obligations.TilesFinishAndBecomeQuiescent := by
  unfold Obligations.TilesFinishAndBecomeQuiescent
  refine ⟨fun s t e cause pc trap ecc => ⟨State.tileFault_of_not_live e cause pc trap ecc, State.tile_tileFault_of_live e cause pc trap ecc⟩,
    fun x tn cyc now cause origin pc trap => ?_, fun s t b hbay => ?_⟩
  · intro y
    obtain ⟨r, hy⟩ : ∃ r, y = { x.endCycle.abortClear with regs := r, abortAt := now } := x.abort_frame tn cyc now cause origin pc trap
    refine ⟨?_, ?_, ?_, ?_, ?_, ?_, ?_, ?_, ?_, ?_, ?_, ?_, ?_, ?_, ?_, ?_, fun hwf => ?_⟩
    case refine_17 =>
      have record {f : Fld} (v : Nat) (hmem : (f, v) ∈ abortRecord tn cause origin pc trap) : y.rd f = v % 2 ^ f.width :=
        x.rd_abort tn cyc now cause origin pc trap hwf hmem
      have hstate : y.rd F.TILE_S_STATUS_state = 3 := record 3 (by simp [abortRecord])
      exact ⟨hstate, record cause (by simp [abortRecord]), record origin (by simp [abortRecord]), record 1 (by simp [abortRecord]),
        record tn (by simp [abortRecord]), record pc (by simp [abortRecord]), record trap (by simp [abortRecord])⟩
    all_goals rw [hy]; rfl
  · exact ⟨exec_tileFinish_of_others hbay,
      fun hmay hgo hlast => ⟨fun q k => exec_tileFinish_of_launch hbay hmay hgo hlast, exec_tileFinish_of_none hbay hmay hgo hlast⟩,
      fun hstate hquiet => ⟨exec_tileQuiescent_of_other hbay hstate hquiet, fun q => exec_tileQuiescent_of_stopping hbay hstate hquiet⟩⟩

end Sys2Proof.Machine
end

section
/-! A bay's abort, its release and its reset (08 R185; 13 R290, R296, R297): O27. -/

namespace Sys2Proof.Machine

section Abort
variable {s : State} {t : Fin 1200} {b : Nat} (hbay : s.bayOf t = some b) (habort : (s.tile t).aborting = true)
  (hown : (s.tile t).rd F.TILE_S_ABORT_cause < 0x40)
include hbay habort hown

/-- The hub has been told of an abort already: the cause may still count (13 R290). -/
theorem exec_bayAbort_of_later (hlater : (s.bay b).aborted = true) :
    exec (.bayAbort t) s = .next ((s.control (s.tileNode t) .hub 2 t).bayCause b ((s.tile t).rd F.TILE_S_ABORT_cause) t) := by
  simp only [exec, execBayAbort, hbay, habort, hown, decide_true, Bool.and_self, if_true, hlater]
  rfl

variable (hfirst : (s.bay b).aborted = false)
include hfirst

theorem exec_bayAbort_of_unheld (hholder : (s.bay b).holder = none) :
    exec (.bayAbort t) s = .next ((s.control (s.tileNode t) .hub 2 t).hubAbort b 0x40 t) := by
  simp only [exec, execBayAbort, hbay, habort, hown, decide_true, Bool.and_self, if_true, hfirst, Bool.false_eq_true, if_false, hholder]
  rfl

theorem exec_bayAbort_of_held {q : Nat} (hholder : (s.bay b).holder = some q) :
    exec (.bayAbort t) s = .next (((s.control (s.tileNode t) .hub 2 t).hubAbort b 0x40 t).markGuilty q ((s.tile t).rd F.TILE_S_ABORT_cause) t) := by
  simp only [exec, execBayAbort, hbay, habort, hown, decide_true, Bool.and_self, if_true, hfirst, Bool.false_eq_true, if_false, hholder]
  rfl

end Abort

section Reset
variable {s : State} {b : Fin 64}

theorem exec_bayRelease_of_ended (hab : (s.bay b).aborted = true) (hreset : (s.bay b).resetAt = none)
    (hended : (s.bayTiles b).all (fun t => (s.tile t).state == 0 || (s.tile t).state == 4) = true) :
    exec (.bayRelease b) s = .next (s.releaseBay b) := if_pos ⟨hab, hreset, hended⟩

/-- The bay's tiles in reset, the reset timed, counted and logged (13 R297). -/
def State.bayInReset (s : State) (b : Nat) : State :=
  (((((s.forEach (s.bayTiles b) (fun a t => a.setTile t (a.tile t).hubReset)).setBay b { s.bay b with resetAt := some s.time }).wr
    (F.FE_BAY_reset_escalated b) 1).bump F.FE_COUNTS_bay_resets).logs .BAY_RESET [b])

/-- A bay not released in time is reset, and a destroy of the queue that holds it goes on. -/
theorem exec_bayReset_of_held {q : Nat} (hholder : (s.bay b).holder = some q) (hab : (s.bay b).aborted = true) (hreset : (s.bay b).resetAt = none)
    (hgo : s.stopped = false) : exec (.bayReset b) s = .next (
      let s1 := s.bayInReset b
      if 3 ≤ (s1.queue q).state then (s1.setQueue q ((s1.queue q).wr F.FE_Q_DESTROY_escalated 1)).destroyStep q else s1) := by
  have hpass : (s.bay b).aborted = true ∧ (s.bay b).resetAt = none ∧ s.stopped = false := ⟨hab, hreset, hgo⟩
  unfold State.bayInReset
  simp only [exec, execBayReset, hholder, if_pos hpass]
  rfl

/-- A destroy past its time closes when it waits for its fence and holds no bay (13 R296). -/
theorem State.destroyForce_eq (s : State) (q : Nat) : s.destroyForce q =
    if (s.queue q).state = 5 ∧ s.baysOf q = [] ∧ s.stopped = false then
      (s.setQueue q ((s.queue q).wr F.FE_Q_DESTROY_escalated 1)).destroyFenced q
    else s := by
  simp [State.destroyForce, and_assoc]

section End
variable (hreset : (s.bay b).resetAt.isSome = true)
include hreset

theorem exec_bayResetEnd_of_unheld (hholder : (s.bay b).holder = none) : exec (.bayResetEnd b) s = .next (s.releaseBay b) := by
  simp only [exec, execBayResetEnd, hreset, if_true, hholder]
  rfl

theorem exec_bayResetEnd_of_held {q : Nat} (hholder : (s.bay b).holder = some q) :
    exec (.bayResetEnd b) s = .next ((s.releaseBay b).destroyForce q) := by
  simp only [exec, execBayResetEnd, hreset, if_true, hholder]
  rfl

end End
end Reset

/-- Settles O27: each row by whether the bay has been aborted and which queue holds it. -/
theorem baysAbortResetAndRelease : Obligations.BaysAbortResetAndRelease := by
  unfold Obligations.BaysAbortResetAndRelease
  intro s b
  exact ⟨fun t hbay habort hown => ⟨exec_bayAbort_of_later hbay habort hown, exec_bayAbort_of_unheld hbay habort hown,
      fun q hfirst hholder => exec_bayAbort_of_held hbay habort hown hfirst hholder⟩,
    exec_bayRelease_of_ended, fun q => exec_bayReset_of_held, fun q => congrArg ok (s.destroyForce_eq q),
    fun hreset => ⟨exec_bayResetEnd_of_unheld hreset, fun q => exec_bayResetEnd_of_held hreset⟩⟩

end Sys2Proof.Machine
end

section
/-! Answers to a tile's and to the hub's own requests (08 R170; 10 R219, R220; 11 R241, R242; 12 R258; 15 R330; 16 R353; 21 R441): O33. -/

namespace Sys2Proof.Machine

/-! Answers to a tile (10 R220). -/

section Answered
variable {s : State} {t : Nat} {epoch : Byte} (f : State → State)

theorem State.answered_of_epoch (hepoch : (s.tile t).rd F.TILE_D_STATUS_epoch = epoch.toNat) : s.answered t epoch.toNat f = f s :=
  if_pos (by rw [hepoch, Nat.mod_eq_of_lt epoch.isLt])

theorem State.answered_of_stale (hepoch : (s.tile t).rd F.TILE_D_STATUS_epoch ≠ epoch.toNat) :
    s.answered t epoch.toNat f = s.setTile t ((s.tile t).bump F.TILE_D_STATUS_stale) :=
  if_neg (by rw [Nat.mod_eq_of_lt epoch.isLt]; exact hepoch.symm)

end Answered

/-- The number of a tile in a packet. -/
theorem toNat_tileId (t : Fin 1200) : (BitVec.ofNat 11 t).toNat = t := by
  rw [BitVec.toNat_ofNat]
  exact Nat.mod_eq_of_lt (by omega)

section Rows
variable (s : State) (t : Fin 1200) (tag : Word) (epoch : Byte)

theorem exec_landAck_tile (st : Status) (lc : Byte) (n : Nat) : exec (.landAck (BitVec.ofNat 11 t) tag epoch st lc n) s =
    .next (s.answered t epoch.toNat (fun a => a.writeAnswered t tag.toNat st false lc.toNat n)) := by
  simp only [exec, execLandAck, toNat_tileId]
  rw [if_neg (by omega), if_neg (by omega)]
  rfl

theorem exec_unreachable_tile (reason lost : Byte) : exec (.unreachable (BitVec.ofNat 11 t) tag epoch reason lost) s =
    .next (s.answered t epoch.toNat (fun a =>
      if lost = 1 then a.writeAnswered t tag.toNat .dropped true 0xFF 0
      else if lost = 2 then a.readAnswered t tag.toNat .dropped true [] false
      else if lost = 4 then a.signalAnswered t tag.toNat .dropped
      else a)) := by
  simp only [exec, execUnreachable, toNat_tileId]
  rw [if_neg (by omega), if_neg (by omega)]
  rfl

/-- A poisoned completion of a loft read counts, and answers as Completer Abort (22 R451). -/
theorem exec_readResp_of_poisoned {s : State} {t : Fin 1200} {tag : Word} {epoch : Byte} {st : Status} {data : List Byte} {keep : Bool}
    (hloft : s.loftWaits t tag.toNat = true) : exec (.readResp t tag epoch st data keep true) s =
    .next (s.poisoned.answered t epoch.toNat (fun a => a.readAnswered t tag.toNat .ecc false data keep)) := by
  simp only [exec, execReadResp, hloft, Bool.and_self, if_true]
  rfl

end Rows

/-- An OK acknowledgement of a remote write with the counter and the bytes that it names (11 R241). -/
theorem State.writeAnswered_of_ok {s : State} {t tag lc n : Nat} {w : Store}
    (hfind : (s.tile t).stores.find? (fun w => sameTag w.tag tag && !w.signal) = some w) (hown : w.own = false) (hlc : lc = w.lc) (hn : n = w.bytes) :
    let b := s.answerIn t w.addr 3 []
    let z := b.tile t
    let y := ({ z with stores := z.stores.filter (fun e => e.tag != w.tag), reqs := z.reqs.filter (fun e => e.tag != w.tag) } : Tile).dShow
    let s1 := (b.setTile t y).unhold t w.tag
    z.live = true → s.writeAnswered t tag .ok false lc n = ((s1.setTile t ((s1.tile t).acked n)).fenceLook t).dPump t := by
  intro b z y s1 hlive
  have hack : s1.ackOk t w lc n = s1.setTile t ((s1.tile t).acked n) := by simp [State.ackOk, hown, hlc, hn]
  have hlive' : ((s.answerIn t w.addr 3 []).tile t).live = true := hlive
  simp only [State.writeAnswered, hfind, State.ackStore, hlive', Bool.not_true, Bool.false_eq_true, if_false, if_true]
  exact congrArg (fun u => (u.fenceLook t).dPump t) hack

/-! Answers to the hub: copy writes (16 R353) and relayed chunks (21 R441). -/

section Hub
variable {s : State} {tag : Word} {epoch : Byte} {st : Status}

theorem exec_landAck_hub (lc : Byte) (n : Nat) :
    exec (.landAck 0x7FF tag epoch st lc n) s = .next (s.hubAnswered tag.toNat epoch.toNat st false n) := by
  simp only [exec, execLandAck]
  exact if_pos rfl

theorem exec_unreachable_hub (reason lost : Byte) :
    exec (.unreachable 0x7FF tag epoch reason lost) s = .next (s.hubAnswered tag.toNat epoch.toNat .dropped true 0) := by
  simp only [exec, execUnreachable]
  exact if_pos rfl

variable {lost : Bool} {n : Nat}

section Copy
variable (hk : tag.toNat % 2 ^ 24 = copyTag)
include hk

theorem State.hubAnswered_of_copy : s.hubAnswered tag.toNat epoch.toNat st lost n = s.snapAck epoch.toNat st n := by
  rw [State.hubAnswered, Nat.mod_eq_of_lt (show epoch.toNat < 256 from epoch.isLt)]
  exact if_pos hk

end Copy

theorem State.snapAck_of_other {e : Nat} (hother : s.snapState ≠ 2 ∨ e ≠ s.snapN % 256) : s.snapAck e st n = s := if_pos hother

section Copying
variable {e : Nat} (hcopying : s.snapState = 2) (he : e = s.snapN % 256)
include hcopying he

theorem State.snapAck_of_failed (hst : st ≠ .ok) : s.snapAck e st n = (s.logs .SNAP_COPY_FAIL [s.snapN]).snapDrop 6 :=
  (if_neg (by simp [hcopying, he])).trans (if_pos hst)

/-- The copy after an OK acknowledgement. -/
def State.copyAcked (s : State) (n : Nat) : State := { s with snap := { s.snap with acked := s.snap.acked + n } }

theorem State.snapAck_of_ok : s.snapAck e .ok n =
    if s.on F.HUB_SNAP_STATUS_released = true ∧ (s.copyAcked n).snap.acked = s.snap.issued ∧ s.fenced = false then
      ((s.copyAcked n).snapSet 3).board (planCoord s.snap.plan) s.snapN 1
    else s.copyAcked n := by
  refine (if_neg (by simp [hcopying, he])).trans ((if_neg (by simp)).trans ?_)
  simp only [Bool.and_eq_true, beq_iff_eq, Bool.not_eq_true', and_assoc]
  rfl

end Copying

section Relay
variable (hk : 2 ^ 23 ≤ tag.toNat % 2 ^ 24)
include hk

theorem State.hubAnswered_of_relay : s.hubAnswered tag.toNat epoch.toNat st lost n =
    if lost then s.relayFail else s.relayAcked (tag.toNat % 2 ^ 24 - 2 ^ 23) st :=
  (if_neg (show tag.toNat % 2 ^ 24 ≠ 1 by omega)).trans (if_pos hk)

end Relay

end Hub

/-- Settles O33: an answer to a tile by its epoch, one to the hub by what it acknowledges. -/
theorem answersReturnToTheirTile : Obligations.AnswersReturnToTheirTile := by
  unfold Obligations.AnswersReturnToTheirTile
  intro s t tag epoch st data keep lc n reason x u
  refine ⟨fun hepoch => ?_, fun hstale => ?_, ?_⟩
  · have answers (f : State → State) : ok (s.answered t epoch.toNat f) = .next (f s) := congrArg ok (State.answered_of_epoch f hepoch)
    refine ⟨answers _, fun hloft => ?_, (exec_landAck_tile ..).trans (answers _), answers _, (exec_unreachable_tile ..).trans (answers _),
      (exec_unreachable_tile ..).trans (answers _), (exec_unreachable_tile ..).trans (answers _), fun w hfind hown hlc hn => ?_⟩
    · exact (exec_readResp_of_poisoned hloft).trans (congrArg ok (State.answered_of_epoch (s := s.poisoned) _ hepoch))
    · intro b z y s1 hlive
      exact (exec_landAck_tile ..).trans ((answers _).trans (congrArg ok (State.writeAnswered_of_ok hfind hown hlc hn hlive)))
  · have stale (f : State → State) : ok (s.answered t epoch.toNat f) = .next (s.setTile t (x.bump F.TILE_D_STATUS_stale)) :=
      congrArg ok (State.answered_of_stale f hstale)
    exact ⟨stale _, (exec_landAck_tile ..).trans (stale _), stale _, fun lost => (exec_unreachable_tile ..).trans (stale _)⟩
  · intro k acked
    have copies (hk : k = copyTag) (st : Status) (lost : Bool) (n : Nat) :
        s.hubAnswered tag.toNat epoch.toNat st lost n = s.snapAck epoch.toNat st n := State.hubAnswered_of_copy hk
    have relayed (hk : 2 ^ 23 ≤ k) (st : Status) :
        s.hubAnswered tag.toNat epoch.toNat st false n = s.relayAcked (k - 2 ^ 23) st := State.hubAnswered_of_relay hk
    refine ⟨fun hk hcopying he => ⟨fun hst => ?_, ?_, fun hheld => ?_, fun hreleased hacked hfenced => ?_⟩, fun hk hother => ?_, fun hk => ?_⟩
    · exact (exec_landAck_hub ..).trans (congrArg ok ((copies hk ..).trans (State.snapAck_of_failed hcopying he hst)))
    · exact (exec_unreachable_hub ..).trans (congrArg ok ((copies hk ..).trans (State.snapAck_of_failed hcopying he nofun)))
    · have hnot : ¬ (s.on F.HUB_SNAP_STATUS_released = true ∧ acked.snap.acked = s.snap.issued ∧ s.fenced = false) := by
        obtain h | h | h := hheld <;> simp [h]
      exact (exec_landAck_hub ..).trans (congrArg ok ((copies hk ..).trans ((State.snapAck_of_ok hcopying he).trans (if_neg hnot))))
    · exact (exec_landAck_hub ..).trans (congrArg ok ((copies hk ..).trans ((State.snapAck_of_ok hcopying he).trans
        (if_pos ⟨hreleased, hacked, hfenced⟩))))
    · exact (exec_landAck_hub ..).trans (congrArg ok ((copies hk ..).trans (State.snapAck_of_other hother)))
    · intro i
      refine ⟨fun hsent => ?_, fun hnot => ?_, ?_⟩
      · exact (exec_landAck_hub ..).trans (congrArg ok ((relayed hk ..).trans (if_pos ⟨rfl, hsent⟩)))
      · have hgone : ¬ (st = .ok ∧ s.fw.sent.any (fun e => e.1 == i) = true) := by obtain h | h := hnot <;> simp [h]
        exact (exec_landAck_hub ..).trans (congrArg ok ((relayed hk ..).trans (if_neg hgone)))
      · exact (exec_unreachable_hub ..).trans (congrArg ok (State.hubAnswered_of_relay hk))

end Sys2Proof.Machine
end

section
/-! Chain rows (09 R188 to R193): their addition, the drain's rows that pass, the places of a hop's incoming rows; and O28. -/

namespace Sys2Proof.Machine

/-- Column `j` of a sum of rows (09 R188). -/
theorem getD_addRows {own inp : List (BitVec 40)} {j : Nat} (hown : j < own.length) (hinp : j < inp.length) :
    (addRows own inp).val.getD j 0 = BitVec.ofNat 40
      (Fmt.x40.rne ((Val.decode .x40 (inp.getD j 0).toNat).add (Val.decode .x40 (own.getD j 0).toNat)).val).val := by
  have hsum : j < (addRows own inp).val.length := by simp [addRows, collect, hown, hinp]
  rw [List.getD_eq_getElem _ _ hsum, List.getD_eq_getElem _ _ hown, List.getD_eq_getElem _ _ hinp]
  simp [addRows, collect]

/-! The waiting drain's next row (09 R188, R190, R193). -/

/-- The tile with the drain's first row gone from it. -/
def Tile.rowGone (x : Tile) (d : Drain) (rest : List (List (BitVec 40))) : Tile := { x with drain := some { d with rows := rest, row := d.row + 1 } }

section Drain
variable {s : State} {t f k : Nat} {d : Drain} {c : ChainDef} {own : List (BitVec 40)} {rest : List (List (BitVec 40))}
  (hdrain : (s.tile t).drain = some d) (hrows : d.rows = own :: rest) (hchain : s.image.chain? d.chain = some c) (hplace : c.place? t = some k)
include hdrain hrows hchain hplace

theorem State.chainRun_of_first (hk : k = 0) : s.chainRun t (f + 1) =
    ((s.setTile t (((s.tile t).rowGone d rest).raise s.tn false 0)).passRow t c k d.row d.dest own).chainRun t f := by
  simp only [State.chainRun, hdrain, hchain, hrows, hplace, ChainDef.adds, Option.getD_some, hk, bne_self_eq_false, Bool.false_eq_true, if_false]
  rfl

variable (hk : k ≠ 0)
include hk

theorem State.chainRun_of_sum {r : List (BitVec 40)} (hin : (s.tile t).rowIn d.chain d.row = some (r, false)) : s.chainRun t (f + 1) =
    ((s.setTile t (((s.tile t).rowGone d rest).raise s.tn false (addRows own r).flags)).passRow t c k d.row d.dest (addRows own r).val).chainRun t f := by
  simp only [State.chainRun, hdrain, hchain, hrows, hplace, ChainDef.adds, Option.getD_some, bne_iff_ne.2 hk, if_true, hin, Option.map_some]
  rfl

/-- The drain waits for its row to come in. -/
theorem State.chainRun_of_waiting (hin : (s.tile t).rowIn d.chain d.row = none) : s.chainRun t (f + 1) = s.setTile t (s.tile t).showRed := by
  simp only [State.chainRun, hdrain, hchain, hrows, hplace, ChainDef.adds, Option.getD_some, bne_iff_ne.2 hk, if_true, hin, Option.map_none]

/-- The adder's copies differ on the row that came in (R193). -/
theorem State.chainRun_of_mismatch {r : List (BitVec 40)} (hin : (s.tile t).rowIn d.chain d.row = some (r, true)) :
    s.chainRun t (f + 1) = (s.suspect (s.site t)).adderFault c.bay 7 t (s.recOfTile 2 7 0x42 t) := by
  simp only [State.chainRun, hdrain, hchain, hrows, hplace, ChainDef.adds, Option.getD_some, bne_iff_ne.2 hk, if_true, hin, Option.map_some]

end Drain

/-! Where a row goes from a hop (09 R191, R192). -/

section Pass
variable {s : State} {t k row : Nat} {c : ChainDef} {dest : Dword} {v : List (BitVec 40)}

theorem State.passRow_of_hop {h : Hop} (hnext : c.hops[k + 1]? = some h) (hkind : h.kind = 0) : s.passRow t c k row dest v =
    ((s.countMesh t 320).carry (s.tileNode t) (s.tileNode h.id) 4 (reducePacket s.devId s.devId 0 0 c.id 0 row (rowBytes v)) 320).flies
      (.chainRow h.id c.id row v) := by
  simp only [State.passRow, hnext, hkind, if_true]

theorem State.passRow_of_exit {h : Hop} (hnext : c.hops[k + 1]? = some h) (hkind : h.kind ≠ 0) :
    let b := reducePacket s.devId h.id 0 0 c.id 0 row (rowBytes v)
    s.passRow t c k row dest v = ((s.countMesh t 320).carry (s.tileNode t) .hub 4 b 320).sendPkt b := by
  simp only [State.passRow, hnext, hkind, if_false]

theorem State.passRow_of_last (hnext : c.hops[k + 1]? = none) (hown : bits dest 47 1 = 1) :
    let r := collect (v.map (fun w => convert .x40 (redFmt dest) none w.toNat))
    let s1 := s.spadWrite t (bits dest 0 16 * 64 + row * (bits dest 16 16 * 64)) (elemBytes (redFmt dest) r.val)
    let s2 := s1.setTile t ((s1.tile t).raise s1.tn false r.flags)
    s.passRow t c k row dest v = if row = 63 then s2.signalLocal t 5 (bits dest 32 8) 1 else s2 := by
  simp only [State.passRow, hnext, hown, one_ne_zero, if_false]

end Pass

/-! The place of a row that comes in (09 R190). -/

section Place
variable {x : Tile} {chain row : Nat} {v : List (BitVec 40)} {m : Bool}

theorem Tile.placeRow_of_place (hnew : x.rowIn chain row = none) (hroom : x.chainIn.length < 4 ∨ x.chainIn.any (·.1 == chain) = true) :
    x.placeRow chain row v m = { x with chainIn :=
      (if x.chainIn.any (·.1 == chain) then x.chainIn.map (fun b => if b.1 = chain then (b.1, kput b.2 row (v, m)) else b)
      else x.chainIn ++ [(chain, [(row, v, m)])]) } := by
  have hfits : ¬ (((x.rowIn chain row).isSome || (4 ≤ x.chainIn.length && !(x.chainIn.any (·.1 == chain)))) = true) := by
    rcases hroom with hlen | hknown
    · simp [hnew, hlen]
    · simp [hnew, hknown]
  rw [Tile.placeRow, if_neg hfits, apply_ite (fun l => ({ x with chainIn := l } : Tile))]

theorem Tile.placeRow_of_full (hfull : x.rowIn chain row ≠ none ∨ 4 ≤ x.chainIn.length ∧ x.chainIn.any (·.1 == chain) = false) :
    x.placeRow chain row v m = { x with chainHeld := x.chainHeld ++ [(chain, row, v, m)] } := by
  refine if_pos ?_
  rcases hfull with hheld | ⟨hlen, hnew⟩
  · simp [Option.isSome_iff_ne_none.2 hheld]
  · simp [hlen, hnew]

end Place

/-- A row of a chain at a hop that adds, in a tile that is not being aborted. -/
theorem State.chainRow_of_adds {s : State} {t chain row k : Nat} {v : List (BitVec 40)} {m : Bool} {c : ChainDef}
    (hchain : s.image.chain? chain = some c) (hplace : c.place? t = some k) (hk : k ≠ 0) (hgoes : (s.tile t).aborting = false)
    (hlen : v.length = 64) :
    s.chainRow t chain row v m = (s.setTile t ((s.tile t).placeRow chain row v m).showRed).chainGo t := by
  simp [State.chainRow, hchain, hplace, ChainDef.adds, hk, hgoes, hlen]

/-- Settles O28: a drain's row by its hop and what came in, a passed row by the next hop, an incoming row by its place. -/
theorem chainRowsAreHeldAndPass : Obligations.ChainRowsAreHeldAndPass := by
  unfold Obligations.ChainRowsAreHeldAndPass
  refine ⟨fun own inp j => getD_addRows, fun s t f k d c own rest hdrain hrows hchain hplace => ?_, fun s t k row c dest v => ?_, ?_⟩
  · exact ⟨State.chainRun_of_first hdrain hrows hchain hplace, fun r hk => State.chainRun_of_sum hdrain hrows hchain hplace hk,
      State.chainRun_of_waiting hdrain hrows hchain hplace⟩
  · exact ⟨fun h => State.passRow_of_hop, fun h => State.passRow_of_exit, State.passRow_of_last⟩
  · intro s0 s t chain row v m c k hs hchain hplace hk hgoes hlen
    have harrives : exec (.chainRow t chain row v m) s0 =
        .next ((s.setTile t ((s.tile t).placeRow chain.toNat row v m).showRed).chainGo t) :=
      congrArg ok (hs ▸ State.chainRow_of_adds hchain hplace hk hgoes hlen)
    refine ⟨fun hnew hroom => ?_, fun hfull => ?_, fun d own rest r hdrain hd hrows hin => ?_⟩
    · rw [harrives, Tile.placeRow_of_place hnew hroom]
    · rw [harrives, Tile.placeRow_of_full hfull]
    · exact State.chainRun_of_mismatch hdrain hrows (hd ▸ hchain) hplace hk (hd ▸ hin)

end Sys2Proof.Machine
end

section
/-! Rows at vault stations and from other devices (09 R192, R194 to R203): a row's additions to a bank, what a station does with a row, what
REDUCE brings; and O29. -/

namespace Sys2Proof.Machine

/-! A row's additions to a bank (09 R194). -/

/-- A value of a bank with its side flags. -/
def Vault.cell (v : Vault) (key : Nat) : BitVec 320 × Side := (kget v.vals key 0, kget v.flags key 0)

/-- An X40 value added to its place in the bank from `base`. -/
def Vault.addX40 (base : Nat) (a : Vault × Flags × Bool) (p : Nat × BitVec 40) : Vault × Flags × Bool :=
  a.1.addAt (base + p.1) (vaultAdd (a.1.cell (base + p.1)).1 (a.1.cell (base + p.1)).2 (Val.decode .x40 p.2.toNat)) a.2

theorem Vault.addRow_x40 (v : Vault) (b row : Nat) (l : List (BitVec 40)) :
    v.addRow b row (.x40 l) = ((List.range l.length).zip l).foldl (Vault.addX40 (b * 4096 + row * 64)) (v, 0, false) := rfl

theorem Vault.cell_addAt (v : Vault) (key key' : Nat) (r : (BitVec 320 × Side) × Flags × Bool) (acc : Flags × Bool) :
    (v.addAt key r acc).1.cell key' = if key' = key then r.1 else v.cell key' := by
  simp only [Vault.cell, Vault.addAt, kget_kput]
  split <;> rfl

/-- Values added at other places leave a value as it was. -/
theorem Vault.cell_foldl_addX40_of_notMem (base key : Nat) (l : List (Nat × BitVec 40)) (a : Vault × Flags × Bool) (hother : ∀ p ∈ l, key ≠ base + p.1) :
    (l.foldl (Vault.addX40 base) a).1.cell key = a.1.cell key := by
  induction l generalizing a with
  | nil => rfl
  | cons p l ih =>
    rw [List.forall_mem_cons] at hother
    rw [List.foldl_cons, ih _ hother.2, Vault.addX40, Vault.cell_addAt, if_neg hother.1]

/-- Of values added at different places, each adds to the value that stood at its place. -/
theorem Vault.cell_foldl_addX40_of_mem (base : Nat) (l : List (Nat × BitVec 40)) (a : Vault × Flags × Bool) (hapart : (l.map (·.1)).Nodup)
    {p : Nat × BitVec 40} (hp : p ∈ l) : (l.foldl (Vault.addX40 base) a).1.cell (base + p.1) =
      (vaultAdd (a.1.cell (base + p.1)).1 (a.1.cell (base + p.1)).2 (Val.decode .x40 p.2.toNat)).1 := by
  induction l generalizing a with
  | nil => cases hp
  | cons q l ih =>
    rw [List.map_cons, List.nodup_cons] at hapart
    obtain ⟨hq, hapart⟩ := hapart
    have hne {p' : Nat × BitVec 40} (hp' : p' ∈ l) : p'.1 ≠ q.1 := fun he => hq (he ▸ List.mem_map_of_mem hp')
    rw [List.foldl_cons]
    rcases List.mem_cons.1 hp with rfl | htail
    · rw [Vault.cell_foldl_addX40_of_notMem _ _ _ _ (fun p' hp' he => hne hp' (by omega)), Vault.addX40, Vault.cell_addAt, if_pos rfl]
    · have hkeep : (Vault.addX40 base a q).1.cell (base + p.1) = a.1.cell (base + p.1) := by
        rw [Vault.addX40, Vault.cell_addAt, if_neg (fun he => hne htail (by omega))]
      rw [ih _ hapart htail, hkeep]

/-- Column `j` of a row of X40 values added to a bank. -/
theorem Vault.cell_addRow_x40 (v : Vault) (b row : Nat) (l : List (BitVec 40)) {j : Nat} (hj : j < l.length) :
    let key := b * 4096 + row * 64 + j
    (v.addRow b row (.x40 l)).1.cell key = (vaultAdd (v.cell key).1 (v.cell key).2 (Val.decode .x40 (l.getD j 0).toNat)).1 := by
  have hmem : (j, l.getD j 0) ∈ (List.range l.length).zip l :=
    List.mem_iff_getElem.2 ⟨j, by simpa using hj, by simp [hj]⟩
  have hapart : (((List.range l.length).zip l).map (·.1)).Nodup := by
    rw [List.map_fst_zip (by simp)]
    exact List.nodup_range
  exact Vault.cell_foldl_addX40_of_mem (b * 4096 + row * 64) _ (v, 0, false) hapart hmem

/-! What a station does with a row (09 R195 to R197, R200 to R203). -/

/-- How many rounds a round is after the station's oldest. -/
def State.ahead (s : State) (k round : Nat) : Nat := (round + 65536 - s.rd (F.HUB_VST_STATUS_round k)) % 65536

/-- The forwarders of a bank's round with the source of a row; none when a thirty-third would join (09 R200). -/
def State.forwardersWith (s : State) (k b src : Nat) : Option (List Nat) :=
  if src = s.devId then some (kget (s.vault k).fwd b []) else joinForwarder (kget (s.vault k).fwd b []) src

theorem State.forwardersWith_eq_some {s : State} {k b src : Nat} {fw : List Nat} : s.forwardersWith k b src = some fw ↔
    src = s.devId ∧ fw = kget (s.vault k).fwd b [] ∨ src ≠ s.devId ∧ joinForwarder (kget (s.vault k).fwd b []) src = some fw := by
  unfold State.forwardersWith
  split <;> simp [*, eq_comm]

theorem State.forwardersWith_eq_none {s : State} {k b src : Nat} (hsrc : src ≠ s.devId) (hnew : src ∉ kget (s.vault k).fwd b [])
    (hfull : 32 ≤ (kget (s.vault k).fwd b []).length) : s.forwardersWith k b src = none := by
  simp [State.forwardersWith, joinForwarder, hsrc, hnew, hfull]

section Take
variable {s : State} {k src round row : Nat} {r : RowVals} {ecc : Ecc} {m : Bool}

/-- A station without a bay, or before its bay's LAUNCH (R203). -/
theorem State.stationTake_of_off (hoff : (s.vaultDef k).bay = 0xFF ∨ (s.vault k).live = false) :
    s.stationTake k src round row r ecc m = s.redDropped k round := if_pos (by simpa using hoff)

section Live
variable (hbay : (s.vaultDef k).bay ≠ 0xFF) (hlive : (s.vault k).live = true)
include hbay hlive

theorem State.stationTake_of_later (hlater : 2 ≤ s.ahead k round) (hmay : s.ahead k round < 32768) : s.stationTake k src round row r ecc m =
    s.setVault k { s.vault k with held := (s.vault k).held ++ [(src, round, row, r, ecc, m)] } :=
  (if_neg (by simp [hbay, hlive])).trans (if_pos (by simpa using ⟨hlater, hmay⟩))

theorem State.stationTake_of_excess (hexcess : 32768 ≤ s.ahead k round ∨
      s.ahead k round < 2 ∧ 64 * (s.vaultDef k).contributors ≤ kget (s.vault k).rows (round % 2) 0) :
    s.stationTake k src round row r ecc m = s.stationRaise k 0x86 := by
  have hnow : ¬ (2 ≤ s.ahead k round ∧ s.ahead k round < 32768) := by omega
  have hmany : 32768 ≤ s.ahead k round ∨ 64 * (s.vaultDef k).contributors ≤ kget (s.vault k).rows (round % 2) 0 := hexcess.imp_right And.right
  exact (if_neg (by simp [hbay, hlive])).trans ((if_neg (by simpa [State.ahead] using hnow)).trans (if_pos (by simpa [State.ahead] using hmany)))

section Room
variable (hnear : s.ahead k round < 2) (hroom : kget (s.vault k).rows (round % 2) 0 < 64 * (s.vaultDef k).contributors)
include hnear hroom

/-- A row of one of the station's two rounds that awaits it. -/
theorem State.stationTake_of_room : s.stationTake k src round row r ecc m =
    if m then s.stationFault k 7
    else if eccBad ecc then s.stationFault k 8
    else (s.forwardersWith k (round % 2) src).elim (s.stationRaise k 0x86) (fun fw =>
      let a := (s.vault k).addRow (round % 2) row r
      (s.placeRow k (round % 2) (decide (s.ahead k round = 0)) a.1 fw).rowTaken k a.2.1 a.2.2 ecc) := by
  have hnow : ¬ (2 ≤ s.ahead k round ∧ s.ahead k round < 32768) := by omega
  have hfew : ¬ (32768 ≤ s.ahead k round ∨ 64 * (s.vaultDef k).contributors ≤ kget (s.vault k).rows (round % 2) 0) := by omega
  refine (if_neg (by simp [hbay, hlive])).trans ((if_neg (by simpa [State.ahead] using hnow)).trans ((if_neg (by simpa [State.ahead] using hfew)).trans ?_))
  unfold State.forwardersWith
  generalize (if src = s.devId then some (kget (s.vault k).fwd (round % 2) []) else joinForwarder (kget (s.vault k).fwd (round % 2) []) src) = fw
  cases fw <;> rfl

end Room
end Live

/-- A row returned to a forwarder that waits for it (R199). -/
theorem State.vaultReturn_of_awaited {fmt : Nat} {data : List Byte} (hbay : (s.vaultDef k).bay ≠ 0xFF) (hlive : (s.vault k).live = true)
    (hstate : s.rd (F.HUB_VST_STATUS_state k) = 3) (hsrc : src = (s.vaultDef k).forwardTo) (hround : round = s.rd (F.HUB_VST_STATUS_round k)) :
    let rets := kput (s.vault k).rets row data
    let s1 := s.setVault k { s.vault k with rets := rets }
    s.vaultReturn k src round row fmt data = if rets.length < 64 then s1
      else ((((s1.wr (F.HUB_VST_STATUS_state k) 2).stationSend k round fmt (rets.map (·.2))).stationNext k).stationAdmit k).stationRun k :=
  (if_neg (by simp [hbay, hlive])).trans (if_neg (by simp [hstate, hsrc, hround]))

end Take

/-! The rows of the table. -/

theorem exec_vaultRow_of_full {s : State} {k : Fin 64} {src round : BitVec 16} {row : Fin 64} {vals : RowVals} (ecc : Ecc) (m : Bool)
    (hfull : rowFull vals = true) : exec (.vaultRow k src round row vals ecc m) s =
    .next (((s.arrived (.vaultRow k src.toNat round.toNat row vals)).stationTake k src.toNat round.toNat row vals ecc m).stationRun k) :=
  congrArg ok (if_pos hfull)

/-- The number of a row in a packet. -/
theorem toNat_rowByte (row : Fin 64) : (BitVec.ofNat 8 row).toNat = row := by
  rw [BitVec.toNat_ofNat]
  exact Nat.mod_eq_of_lt (by omega)

/-- The numbers of rows and stations end at 63. -/
theorem not_63_lt (k : Fin 64) : ¬ 63 < k.val := by omega

section Reduce
variable {s : State} {src id round : BitVec 16} (fmt : Byte) (row : Fin 64) (data : List Byte) (ecc : Ecc) (m : Bool) (hheard : s.shuns src.toNat = false)
include hheard

section Station
variable {k : Fin 64} (hid : id.toNat = k.val)
include hid

theorem exec_reduce_contribution : exec (.reduce src 1 fmt id round (BitVec.ofNat 8 row) data ecc m) s =
    .next (((s.carry .hub (stationNode k) 5 data data.length).stationTake k src.toNat round.toNat row (dataVals fmt.toNat data) ecc m).stationRun k) := by
  simp only [exec, execReduce, hheard, toNat_rowByte, hid, Bool.false_eq_true, not_63_lt, if_false]
  rfl

theorem exec_reduce_return : exec (.reduce src 2 fmt id round (BitVec.ofNat 8 row) data ecc m) s =
    .next ((s.carry .hub (stationNode k) 5 data data.length).vaultReturn k src.toNat round.toNat row fmt.toNat data) := by
  simp only [exec, execReduce, hheard, toNat_rowByte, hid, Bool.false_eq_true, not_63_lt, if_false]
  rfl

end Station

theorem exec_reduce_of_unknown_chain (hnone : s.image.chain? id.toNat = none) :
    exec (.reduce src 0 fmt id round (BitVec.ofNat 8 row) data ecc m) s = .next (s.logs .CHAIN_MISMATCH [id.toNat, src.toNat]) := by
  simp only [exec, execReduce, hheard, toNat_rowByte, Bool.false_eq_true, not_63_lt, if_false, if_true, hnone]
  rfl

section Chain
variable {c : ChainDef} (hchain : s.image.chain? id.toNat = some c)
include hchain

/-- A row of a chain from the device that its entry hop names enters the hop of this device after it (R192). -/
theorem exec_reduce_of_entry {e h : Hop} {l : List Hop} (hhops : c.hops = e :: h :: l) (hentry : e.kind = 1) (hfrom : e.id = src.toNat) (hlocal : h.kind = 0) :
    exec (.reduce src 0 fmt id round (BitVec.ofNat 8 row) data ecc m) s = .next ((s.carry .hub (s.tileNode h.id) 4 data data.length).chainRow h.id c.id row
      ((elems .x40 64 data).map (BitVec.ofNat 40)) m) := by
  simp only [exec, execReduce, hheard, toNat_rowByte, Bool.false_eq_true, not_63_lt, if_false, if_true, hchain, hhops, hentry, hfrom, hlocal, and_self]
  rfl

theorem exec_reduce_of_mismatch (hnot : ∀ e h l, c.hops = e :: h :: l → ¬ (e.kind = 1 ∧ e.id = src.toNat ∧ h.kind = 0)) :
    exec (.reduce src 0 fmt id round (BitVec.ofNat 8 row) data ecc m) s = .next (s.logs .CHAIN_MISMATCH [id.toNat, src.toNat]) := by
  simp only [exec, execReduce, hheard, toNat_rowByte, Bool.false_eq_true, not_63_lt, if_false, if_true, hchain]
  split
  · next e h l hhops => exact if_neg (hnot e h l hhops)
  · rfl

end Chain
end Reduce

/-- Settles O29: a row by what its station does with it, whichever command brings it; a returned row by whether it is the last; a chain row by
its chain's first two hops. -/
theorem vaultsAddRowByRow : Obligations.VaultsAddRowByRow := by
  unfold Obligations.VaultsAddRowByRow
  intro s s0 k src round row fmt id data v d o dist b n row8
  refine ⟨fun vals ecc fw hfull hbay hlive hnear hroom hecc hfw => ?_, fun l hlen j => ?_, fun vals ecc m hfull hs => ?_, fun hheard => ?_⟩
  · intro a taken
    have htake : (s.stationTake k src.toNat round.toNat row vals ecc false).stationRun k = taken := by
      rw [State.stationTake_of_room hbay hlive hnear hroom, State.forwardersWith_eq_some.2 hfw, hecc]
      rfl
    refine ⟨fun hs => (exec_vaultRow_of_full ecc false hfull).trans (congrArg ok (hs ▸ htake)), fun hs hheard hid hvals => ?_⟩
    exact (exec_reduce_contribution fmt row data ecc false hheard hid).trans (congrArg ok (hs ▸ hvals ▸ htake))
  · intro key w
    have hcell : (v.addRow b row (.x40 l)).1.cell key = (vaultAdd (v.cell key).1 (v.cell key).2 (Val.decode .x40 w)).1 :=
      v.cell_addRow_x40 b row l (by omega)
    exact ⟨congrArg Prod.fst hcell, congrArg Prod.snd hcell⟩
  · have arrives {m : Bool} {s1 : State} (htake : s.stationTake k src.toNat round.toNat row vals ecc m = s1) :
        exec (.vaultRow k src round row vals ecc m) s0 = .next (s1.stationRun k) :=
      (exec_vaultRow_of_full ecc m hfull).trans (congrArg (fun a => ok (State.stationRun a k)) (hs ▸ htake))
    refine ⟨fun hoff => arrives (State.stationTake_of_off hoff), fun hbay hlive =>
      ⟨fun hlater hmay => arrives (State.stationTake_of_later hbay hlive hlater hmay),
        fun hexcess => arrives (State.stationTake_of_excess hbay hlive hexcess), fun hnear hroom => ?_⟩⟩
    have takes (m : Bool) := State.stationTake_of_room (m := m) (src := src.toNat) (row := row) (r := vals) (ecc := ecc) hbay hlive hnear hroom
    refine ⟨arrives (takes true), fun hecc => arrives ?_, fun hecc hsrc hnew hmany => arrives ?_⟩
    · rw [takes, hecc]
      rfl
    · rw [takes, hecc, State.forwardersWith_eq_none hsrc hnew hmany]
      rfl
  · refine ⟨fun hs hid hbay hlive hstate hsrc hround hmore ecc m => ?_, fun hs hid hbay hlive hstate hsrc hround hall ecc m => ?_,
      fun c e h l hchain hhops hentry hfrom hlocal ecc m => exec_reduce_of_entry fmt row data ecc m hheard hchain hhops hentry hfrom hlocal,
      fun hnone ecc m => exec_reduce_of_unknown_chain fmt row data ecc m hheard hnone,
      fun c hchain hnot ecc m => exec_reduce_of_mismatch fmt row data ecc m hheard hchain hnot⟩
    · exact (exec_reduce_return fmt row data ecc m hheard hid).trans (congrArg ok (hs ▸
        (State.vaultReturn_of_awaited hbay hlive hstate hsrc hround).trans (if_pos hmore)))
    · exact (exec_reduce_return fmt row data ecc m hheard hid).trans (congrArg ok (hs ▸
        (State.vaultReturn_of_awaited hbay hlive hstate hsrc hround).trans (if_neg (Nat.not_lt.2 hall))))

end Sys2Proof.Machine
end

section
/-! Requests of D (10 R213, R215): where a request ends, what a READ of a global pattern leaves, and O23 and O24. -/

namespace Sys2Proof.Machine

/-! A request within a row and within 256 bytes of its address. -/

/-- As many places on as there is room for before the next multiple of `k`. -/
theorem add_div_of_room {i j k : Nat} (hroom : i % k + j < k) : (i + j) / k = i / k := by
  have hj : j < k := by omega
  rw [Nat.add_div_eq_of_add_mod_lt (by rwa [Nat.mod_eq_of_lt hj]), Nat.div_eq_of_lt hj, Nat.add_zero]

theorem dSpan_pos {p : List Byte} (hrow : dRow p ≠ 0) (i a : Nat) : 1 ≤ dSpan p i a := by
  have hi : i % dRow p < dRow p := Nat.mod_lt _ (by omega)
  have ha : a % 256 < 256 := Nat.mod_lt _ (by omega)
  exact Nat.le_min.2 ⟨by omega, by omega⟩

theorem dSpan_le_row (p : List Byte) (i a : Nat) : dSpan p i a ≤ dRow p - i % dRow p := Nat.min_le_left _ _

theorem dSpan_le_boundary (p : List Byte) (i a : Nat) : dSpan p i a ≤ 256 - a % 256 := Nat.min_le_right _ _

/-- Settles O23: a request has a byte, and its last byte is no further on than its row and its 256 bytes reach. -/
theorem noRequestCrossesABoundary : Obligations.NoRequestCrossesABoundary := by
  unfold Obligations.NoRequestCrossesABoundary
  intro p i a hrow n
  have hpos : 1 ≤ n := dSpan_pos hrow i a
  have hleft : n ≤ dRow p - i % dRow p := dSpan_le_row p i a
  have hbound : n ≤ 256 - a % 256 := dSpan_le_boundary p i a
  refine ⟨hpos, by omega, ?_, ?_⟩
  · rw [Nat.add_sub_assoc hpos]
    exact add_div_of_room (by omega)
  · rw [Nat.add_sub_assoc hpos]
    exact (add_div_of_room (by omega)).symm

/-- Settles O24: with room in the return buffer and the request table, the piece of a global source takes a tag, an entry and a READ. -/
theorem dAsksForOnePieceAtATime : Obligations.DAsksForOnePieceAtATime := by
  unfold Obligations.DAsksForOnePieceAtATime
  intro s t d x a n hglobal hbuffer htable y s1
  exact (if_neg (by simpa using hbuffer)).trans ((if_neg (by simpa using hglobal)).trans (if_neg (by simpa using htable)))

end Sys2Proof.Machine
end

section
/-! The commands of D (10 R211, R217, R219): what a command does as it starts, or the fault of its first failing check; and O22. -/

namespace Sys2Proof.Machine

/-! The row of an opcode: its effect, or the fault of the first check that fails. -/

section Rows
variable {s0 : State} {t op : Nat} {c : Cmd} (f : State → Cmd → State) (hready : (s0.endCycle t).headReady t 3 = some c)
  (hroom : ((s0.endCycle t).tile t).dRun.length < 8) (hop : c.op = op)
include hready hroom hop

theorem State.dRowOf_of_pass (hpass : ((s0.endCycle t).tile t).dCheck c = none) : s0.dRowOf t op f = f (s0.endCycle t) c := by
  simp only [State.dRowOf, hready, hpass]
  rw [if_neg (Nat.not_le.2 hroom), if_neg (by simp [hop])]

theorem State.dRowOf_of_fault {code : Nat} {a : Option Int} (hfail : ((s0.endCycle t).tile t).dCheck c = some (code, a)) :
    s0.dRowOf t op f = ((s0.endCycle t).startHead t 3 c).dFault t code (a.map addr64) c.pc := by
  simp only [State.dRowOf, hready, hfail]
  rw [if_neg (Nat.not_le.2 hroom), if_neg (by simp [hop])]

end Rows

/-! Each row with the command at the queue's head passing its checks. -/

/-- The tile with slot `n` of its streams armed with the pattern `p` (R217). -/
def Tile.arm (x : Tile) (n : Nat) (p : List Byte) : Tile :=
  { x.wr F.TILE_D_STREAMS_armed (x.rd F.TILE_D_STREAMS_armed ||| 2 ^ n) with streams := kput x.streams n p }
/-- The tile with slot `n` of its streams disarmed (R217). -/
def Tile.disarm (x : Tile) (n : Nat) : Tile :=
  { x.wr F.TILE_D_STREAMS_armed (x.rd F.TILE_D_STREAMS_armed - (if bitOf (x.rd F.TILE_D_STREAMS_armed) n then 2 ^ n else 0)) with
    streams := kdel x.streams n }

section Starts
variable {s0 : State} {t : Fin 1200} {c : Cmd} (hready : (s0.endCycle t).headReady t 3 = some c)
  (hroom : ((s0.endCycle t).tile t).dRun.length < 8) (hpass : ((s0.endCycle t).tile t).dCheck c = none)
include hready hroom hpass

theorem exec_dNop_of_pass (hop : c.op = 0) : exec (.dNop t) s0 = .next ((s0.endCycle t).dBegin t c [] none) :=
  congrArg ok (State.dRowOf_of_pass _ hready hroom hop hpass)

/-- A D.COPY runs its own pattern on the tile that keep leaves. -/
theorem exec_dCopy_of_pass (hop : c.op = 1) (e : Ecc) : exec (.dCopy t e) s0 =
    .next (((s0.endCycle t).setTile t (if dKeep c.bytes then ((s0.endCycle t).tile t).arm (c.f1 58) c.bytes
      else (s0.endCycle t).tile t)).dStart t c c.bytes e) :=
  congrArg ok (State.dRowOf_of_pass _ hready hroom hop hpass)

theorem exec_dRun_of_pass (hop : c.op = 2) (e : Ecc) {p : List Byte} (hpattern : ((s0.endCycle t).tile t).dPattern c = some p) :
    exec (.dRun t e) s0 = .next ((s0.endCycle t).dStart t c p e) := by
  refine congrArg ok ((State.dRowOf_of_pass _ hready hroom hop hpass).trans ?_)
  rw [hpattern, Option.getD_some]

theorem exec_dDrop_of_pass (hop : c.op = 3) : exec (.dDrop t) s0 =
    .next (((s0.endCycle t).setTile t (((s0.endCycle t).tile t).disarm (c.f1 58))).dBegin t c [] none) :=
  congrArg ok (State.dRowOf_of_pass _ hready hroom hop hpass)

end Starts

/-- Settles O22: each row by what its command does as it starts, and by `dRowOf_of_fault` where a check fails. -/
theorem dCommandsStart : Obligations.DCommandsStart := by
  unfold Obligations.DCommandsStart
  rintro s0 s t c rfl hready hroom x n armed
  refine ⟨fun hpass => ⟨exec_dNop_of_pass hready hroom hpass, fun hop hkeep => ?_, fun hop hkeep => ?_,
    fun hop p hpattern => exec_dRun_of_pass hready hroom hpass hop .ok hpattern, exec_dDrop_of_pass hready hroom hpass⟩,
    fun code a hfail => ?_⟩
  · rw [exec_dCopy_of_pass hready hroom hpass hop, hkeep]
    rfl
  · rw [exec_dCopy_of_pass hready hroom hpass hop, hkeep]
    rfl
  · have faults {op : Nat} (f : State → Cmd → State) (hop : c.op = op) := congrArg ok (State.dRowOf_of_fault f hready hroom hop hfail)
    exact ⟨faults _, fun hop e => faults _ hop, fun hop e => faults _ hop, faults _⟩

end Sys2Proof.Machine
end

section
/-! Timeouts of D's responses, of an abort of D and of write acknowledgements (10 R219, R220; 11 R242): O25. -/

namespace Sys2Proof.Machine

section Timeouts
variable {s : State} {t : Fin 1200} {tag : Word}

/-- An entry of a tile that lives has waited 1 ms. -/
theorem exec_dRespTimeout_of_waiting {r : DReq} (hlive : (s.tile t).live = true)
    (hfind : (s.tile t).reqs.find? (fun r => r.tag % 2 ^ 24 == tag.toNat % 2 ^ 24) = some r) :
    exec (.dRespTimeout t tag) s = .next (s.dFault t 0xA (some r.addr) ((s.tile t).reqPc r)) := by
  simp only [exec, execDRespTimeout, hfind]
  exact if_pos hlive

theorem exec_dAbortTimeout_of_aborting (hstate : (s.tile t).state = 3) (hquiet : (s.tile t).rd F.TILE_D_STATUS_quiescent = 0) :
    exec (.dAbortTimeout t) s = .next (s.setTile t
      ((({ s.tile t with reqs := [] } : Tile).dShow.wr F.TILE_D_ABORT_BYTES_abandoned (s.tile t).dWriteBytes).dQuiet
        s.tn s.sinceEdge (s.tile t).dWriteBytes)) :=
  if_pos ⟨hstate, hquiet⟩

/-- The first remote write with the tag, not of the loft, has no failure recorded yet. -/
theorem exec_writeAckTimeout_of_waiting {w : Store} (hlive : (s.tile t).live = true)
    (hfind : (s.tile t).stores.find? (fun w => sameTag w.tag tag.toNat && !w.signal && !w.own) = some w)
    (hfar : s.isLoft w.addr = false) (hnew : (s.tile t).fails.contains w.tag = false) :
    exec (.writeAckTimeout t tag) s = .next ((s.failWrite t w 6 0 0).fenceLook t) := by
  simp only [exec, execWriteAckTimeout, hfind]
  exact if_neg (by rw [hlive, hfar, hnew]; decide)

end Timeouts

/-- Settles O25: each timeout where what it waits for is still there. -/
theorem dAndWriteTimeouts : Obligations.DAndWriteTimeouts := by
  unfold Obligations.DAndWriteTimeouts
  exact ⟨fun s t tag r hlive hfind => exec_dRespTimeout_of_waiting hlive hfind,
    fun s t hstate hquiet => exec_dAbortTimeout_of_aborting hstate hquiet,
    fun s t tag w hlive hfind hfar hnew => exec_writeAckTimeout_of_waiting hlive hfind hfar hnew⟩

end Sys2Proof.Machine
end

section
/-! Sync counters (12): the threshold test, the ways into a counter from outside its tile, and O15 and O34. -/

namespace Sys2Proof.Machine

/-- Settles O15: the difference of two words is the difference of their values modulo 2³². -/
theorem thresholdsCompareModulo : Obligations.ThresholdsCompareModulo := by
  intro c t
  have hdiff : (c - t).toNat = (c.toNat + 2 ^ 32 - t.toNat % 2 ^ 32) % 2 ^ 32 := by
    rw [BitVec.toNat_sub]; omega
  rw [satisfies, hdiff]

/-- The two halves of a written word (12 R267, R269): a counter's number and its value. -/
theorem counterWord_halves (c : Byte) (v : Word) :
    (c.toNat + 2 ^ 32 * v.toNat) % 256 = c.toNat ∧ (c.toNat + 2 ^ 32 * v.toNat) / 2 ^ 32 % 2 ^ 32 = v.toNat := by omega

/-- A signal at a counter window of this device that its table permits, while the device is awake. -/
theorem State.signalAs_of_permitted {s : State} {m : Master} {r : Req} {t n v : Nat} (hdev : devOf r.addr.toNat = s.devId)
    (htile : s.signalTile (r.addr.toNat % 2 ^ 48) = some t) (hp : s.permits m (.spad t 0) 2 false = true) (hmb : s.pwrMb = false)
    (hloft : ∀ o, s.target (r.addr.toNat % 2 ^ 48) 1 ≠ .loft o) :
    s.signalAs m r n v =
      ((s.carryIn r 1 6 (signalPacket s.devId s.devId r n v) 0).signalRemote (s.reqNode r) t n v).sendSigStatus r
        (if (s.tile t).aborting then .dropped else .ok) := by
  cases htgt : s.target (r.addr.toNat % 2 ^ 48) 1 with
  | loft o => exact absurd htgt (hloft o)
  | _ => simp [-Nat.reducePow, State.signalAs, State.forAnother, hdev, htgt, htile, hp, hmb]

/-- A write of TILE_SYNC_SIGNAL by a master is a remote signal from the hub. -/
theorem State.tileWrite_syncSignal (s : State) (m : Master) (t : Nat) (c : Byte) (v : Word) :
    s.tileWrite (some m) t 0x1A08 8 (c.toNat + 2 ^ 32 * v.toNat) = s.signalRemote .hub t c.toNat v.toNat := by
  obtain ⟨hc, hv⟩ := counterWord_halves c v
  have hrow : ∃ row, findRow tileRows 0x1A08 = some row ∧ widthOk row 8 = true := by decide
  obtain ⟨row, hrow, hw⟩ := hrow
  simp only [State.tileWrite, Nat.reduceMod, Nat.reduceSub, hrow, hw, hc, hv]
  rfl

/-- A write of TILE_SYNC_SET by a master sets the counter for the CPC in ON, and is refused to every other. -/
theorem State.tileWrite_syncSet (s : State) (m : Master) (t : Nat) (c : Byte) (v : Word) :
    s.tileWrite (some m) t 0x1A10 8 (c.toNat + 2 ^ 32 * v.toNat) = if m = .cpc ∧ s.pwrOn = true
      then s.setByHand t c.toNat v.toNat 1 else s.refuseSet t (masterCode m) c.toNat v.toNat := by
  obtain ⟨hc, hv⟩ := counterWord_halves c v
  have hrow : ∃ row, findRow tileRows 0x1A10 = some row ∧ widthOk row 8 = true := by decide
  obtain ⟨row, hrow, hw⟩ := hrow
  simp [-Nat.reducePow, State.tileWrite, hrow, hw, hc, hv, State.syncSet]

/-- A whole write of TILE_DIG_CFGn takes its bits and empties the slot (20 R424). -/
theorem State.tileWrite_digCfg {s : State} {m : Master} {t : Nat} {n : Fin 16} {v : Nat} {row : RegRow}
    (hrow : findRow tileRows (0x3000 + 0x100 * n.val) = some row) :
    let o := 0x3000 + 0x100 * n.val
    s.tileWrite (some m) t o 8 v = s.setTile t
      (({ s.tile t with regs := rput (s.tile t).regs o (mergeWrite row (rget (s.tile t).regs o) o 8 v) } : Tile).emptySlot n) := by
  intro o
  have hreg : o - o % 8 = o := by omega
  have hslot : 0x3000 ≤ o ∧ o < 0x4000 ∧ o % 0x100 = 0 := by omega
  have hn : (o - 0x3000) / 0x100 = n.val := by omega
  have hw : widthOk row 8 = true := by simp [widthOk]
  have hprobe : o ≠ 0x1118 ∧ o ≠ 0x1A08 ∧ o ≠ 0x1A10 := by omega
  obtain ⟨h1, h2, h3⟩ := hprobe
  simp only [State.tileWrite, hreg, show findRow tileRows o = some row from hrow, hw, h1, h2, h3, if_pos hslot, hn, Bool.not_true, Bool.false_eq_true,
    if_false]

/-- Settles O34: one lemma for each way into a counter from outside its tile. -/
theorem countersAreReachedFromOutside : Obligations.CountersAreReachedFromOutside := by
  unfold Obligations.CountersAreReachedFromOutside
  intro s m t c v
  refine ⟨fun r hdark harr hdev htile hp hmb hloft hstop => ?_, fun b src n => rfl, fun h => ?_, fun h => ?_, fun h hthere => ?_,
    fun n w row h hrow => ?_⟩
  · show execSignalPacket r c v s = _
    simp [execSignalPacket, hdark, hstop, harr, State.signalAs_of_permitted hdev htile hp hmb hloft, ok]
  · exact congrArg ok ((State.guarded_of_lets _ h).trans (s.tileWrite_syncSignal m t c v))
  · exact congrArg ok ((State.guarded_of_lets _ h).trans (s.tileWrite_syncSet m t c v))
  · refine congrArg ok ((State.guarded_of_lets _ h).trans ?_)
    have ht : (BitVec.ofNat 11 t.val).toNat = t.val := by rw [BitVec.toNat_ofNat]; omega
    simp [ht, hthere, State.setByHand]
  · intro o
    exact congrArg ok ((State.guarded_of_lets _ h).trans (State.tileWrite_digCfg hrow))

end Sys2Proof.Machine
end

section
/-! LAUNCH at a tile (08 R180): what stays of its registers, its general registers, its engines. -/

namespace Sys2Proof.Machine

/-! Registers outside a range. -/

theorem filter_wf {α : Type} {m : KMap α} (h : KMap.wf m = true) (p : Nat × α → Bool) : KMap.wf (m.filter p) = true := by
  induction m with
  | nil => rfl
  | cons e m ih =>
    rw [List.filter_cons]
    split
    · exact KMap.wf_of_lt (ih (KMap.wf_tail h)) fun d hd => KMap.wf_lt h d (List.mem_of_mem_filter hd)
    · exact ih (KMap.wf_tail h)

theorem dropRegs_wf {r : Regs} (h : KMap.wf r = true) (lo hi : Nat) : KMap.wf (dropRegs r lo hi) = true := filter_wf h _

/-- A register of the range reads 0, every other stays. -/
theorem rget_dropRegs (r : Regs) (lo hi o : Nat) : rget (dropRegs r lo hi) o = if lo ≤ o ∧ o < hi then 0 else rget r o := by
  induction r with
  | nil => simp [dropRegs, rget, kget, kget?]
  | cons e r ih =>
    unfold dropRegs at ih ⊢
    rw [List.filter_cons]
    by_cases hkey : o = e.1
    · by_cases hin : lo ≤ o ∧ o < hi
      · rw [if_pos hin] at ih
        rw [if_neg (by simpa [← hkey, not_or] using hin), ih, if_pos hin]
      · rw [if_pos (by simp only [← hkey, Bool.or_eq_true, decide_eq_true_eq]; omega), if_neg hin]
        simp [rget, kget, kget?, hkey]
    · have hskip : ∀ m : Regs, rget (e :: m) o = rget m o := fun m => by simp [rget, kget, kget?, hkey]
      split <;> simp only [hskip, ih]

theorem rget_dropRegs_out (r : Regs) {lo hi o : Nat} (h : o < lo ∨ hi ≤ o) : rget (dropRegs r lo hi) o = rget r o := by
  rw [rget_dropRegs, if_neg (by omega)]

/-! The parts of a LAUNCH. -/

section Parts
variable (x : Tile)

theorem Tile.emptySlot_wf (h : KMap.wf x.regs = true) (n : Nat) : KMap.wf (x.emptySlot n).regs = true := by
  simp only [Tile.emptySlot, Tile.wr]
  exact setFld_wf (rput_wf (rput_wf (rput_wf (dropRegs_wf h _ _) _ _) _ _) _ _) _ _

theorem Tile.rget_emptySlot (n : Nat) {o : Nat} (ho : o < 0x3000) : rget (x.emptySlot n).regs o = rget x.regs o := by
  have hnext : o ≠ (F.TILE_DIG_STATUS_next n).off := by
    show o ≠ 0x3008 + 256 * n
    omega
  simp only [Tile.emptySlot, Tile.wr]
  rw [rget_setFld_ne _ _ _ hnext, rget_rput_ne _ _ (by omega), rget_rput_ne _ _ (by omega), rget_rput_ne _ _ (by omega),
    rget_dropRegs_out _ (by omega)]

theorem Tile.emptySlots_frame (l : List Nat) : ∃ r, l.foldl Tile.emptySlot x = { x with regs := r } := by
  induction l generalizing x with
  | nil => exact ⟨x.regs, rfl⟩
  | cons n l ih =>
    obtain ⟨r, hr⟩ := ih (x.emptySlot n)
    exact ⟨r, hr⟩

theorem Tile.emptySlots_wf (h : KMap.wf x.regs = true) (l : List Nat) : KMap.wf (l.foldl Tile.emptySlot x).regs = true := by
  induction l generalizing x with
  | nil => exact h
  | cons n l ih => exact ih _ (x.emptySlot_wf h n)

theorem Tile.rget_emptySlots (l : List Nat) {o : Nat} (ho : o < 0x3000) : rget (l.foldl Tile.emptySlot x).regs o = rget x.regs o := by
  induction l generalizing x with
  | nil => rfl
  | cons n l ih => exact (ih _).trans (x.rget_emptySlot n ho)

theorem Tile.clearRed_wf (h : KMap.wf x.regs = true) : KMap.wf x.clearRed.regs = true := by
  simp only [Tile.clearRed]
  exact rput_wf (rput_wf (dropRegs_wf h _ _) _ _) _ _

theorem Tile.clearCounters_wf (h : KMap.wf x.regs = true) : KMap.wf x.clearCounters.regs = true := dropRegs_wf (dropRegs_wf h _ _) _ _

theorem Tile.blankEngines_wf (h : KMap.wf x.regs = true) : KMap.wf x.blankEngines.regs = true := setFld_wf (setFld_wf (setFld_wf h _ _) _ _) _ _

/-- A counter's register reads 0 once the counters are cleared, and the reduction registers cleared after them leave it. -/
theorem Tile.rget_clearCounters {o : Nat} (h : (0x1800 ≤ o ∧ o < 0x1A00) ∨ (0x2000 ≤ o ∧ o < 0x2800)) :
    rget x.clearCounters.clearRed.regs o = 0 := by
  have hclear : rget x.clearCounters.regs o = 0 := by
    show rget (dropRegs (dropRegs x.regs 0x2000 0x2800) 0x1800 0x1A00) o = 0
    rw [rget_dropRegs, rget_dropRegs]
    obtain h | h := h
    · exact if_pos h
    · exact (if_neg (by omega)).trans (if_pos h)
  rw [← hclear]
  simp only [Tile.clearRed]
  rw [rget_rput_ne, rget_rput_ne, rget_dropRegs_out]
  · simp only [F.TILE_RED_RX_addr]; omega
  · simp only [F.TILE_RED_CHAIN_addr]; omega
  · simp only [F.TILE_RED_STATUS_in_blocks]; omega

theorem Tile.thaw_frame (e : Nat) (only : Option Nat) : ∃ r, x.thaw e only = { x with regs := r } := by
  unfold Tile.thaw
  split_ifs
  · exact ⟨_, rfl⟩
  · exact ⟨x.regs, rfl⟩

theorem Tile.rget_thaw (e : Nat) (only : Option Nat) {o : Nat} (ho : o < 0x2808) : rget (x.thaw e only).regs o = rget x.regs o := by
  unfold Tile.thaw
  split_ifs
  · refine rget_setFlds_ne _ _ fun f hf => ?_
    simp only [List.mem_cons, List.not_mem_nil, or_false] at hf
    obtain rfl | rfl := hf <;> (show o ≠ 0x2808 + 8 * e) <;> omega
  · rfl

/-- Every ring thawed. -/
def Tile.thawAll (x : Tile) : Tile := x.onRings (fun w e => w.thaw e none)

theorem Tile.thawAll_frame : ∃ r, x.thawAll = { x with regs := r } := by
  unfold Tile.thawAll Tile.onRings
  generalize [0, 1, 2, 3] = l
  induction l generalizing x with
  | nil => exact ⟨x.regs, rfl⟩
  | cons e l ih =>
    obtain ⟨r, hr⟩ := x.thaw_frame e none
    obtain ⟨r', hr'⟩ := ih (x.thaw e none)
    exact ⟨r', by rw [List.foldl_cons, hr', hr]⟩

theorem Tile.rget_thawAll {o : Nat} (ho : o < 0x2808) : rget x.thawAll.regs o = rget x.regs o := by
  simp only [Tile.thawAll, Tile.onRings, List.foldl_cons, List.foldl_nil, Tile.rget_thaw _ _ _ ho]

end Parts

/-! The tile after LAUNCH. -/

/-- The fields that a LAUNCH sets. -/
def launchSets (l : LaunchInfo) (ep : Nat) : List (Fld × Nat) :=
  [(F.TILE_M_STATUS_mode, l.mode), (F.TILE_M_STATUS_seeded, 0), (F.TILE_M_STATUS_busy, 0), (F.TILE_M_STATUS_drain_full, 0),
   (F.TILE_V_STATUS_busy, 0), (F.TILE_V_STATUS_mv_busy, 0), (F.TILE_S_STATUS_state, 1), (F.TILE_S_STATUS_stall, 0),
   (F.TILE_S_PC_pc, l.entry), (F.TILE_S_CODE_BASE_base, l.base), (F.TILE_S_ABORT_cause, 0), (F.TILE_S_ABORT_origin, 0),
   (F.TILE_S_ABORT_valid, 0), (F.TILE_S_ABORT_tn_low, 0), (F.TILE_S_ABORT_INFO_pc, 0), (F.TILE_S_ABORT_INFO_trap_code, 0),
   (F.TILE_D_STATUS_epoch, ep), (F.TILE_D_STATUS_outstanding, 0), (F.TILE_D_STATUS_ahead, 0), (F.TILE_D_STATUS_busy, 0),
   (F.TILE_D_STREAMS_armed, 0), (F.TILE_D_STREAMS_running, 0), (F.TILE_MM_STATUS_pk1, b2n l.pk1), (F.TILE_MM_STATUS_fence_local, 0),
   (F.TILE_MM_STATUS_fence_remote, 0), (F.TILE_MM_STATUS_fence_failed, 0), (F.TILE_MM_ISSUED_bytes, 0), (F.TILE_MM_ACKED_bytes, 0),
   (F.TILE_MM_FENCE_ERR_cause, 0), (F.TILE_MM_FENCE_ERR_engine, 0), (F.TILE_MM_FENCE_ERR_lc_sent, 0),
   (F.TILE_MM_FENCE_ERR_lc_acked, 0), (F.TILE_MM_FENCE_ERR_bytes_sent, 0), (F.TILE_MM_FENCE_ERR_bytes_acked, 0),
   (F.TILE_MM_FENCE_ERR_tn_low, 0), (F.TILE_MM_FENCE_ADDR_addr, 0)]

/-- Their places: apart from one another, below the landing counters and the rings. -/
theorem launchSets_apart (l : LaunchInfo) (ep : Nat) :
    ((launchSets l ep).map Prod.fst).Pairwise (fun f g => g.apart f = true) := by
  simp only [launchSets, List.map_cons, List.map_nil]
  decide

theorem launchSets_place (l : LaunchInfo) (ep : Nat) : ∀ f ∈ (launchSets l ep).map Prod.fst, f.off < 0x1800 ∧ f.lo + f.width ≤ 64 := by
  simp only [launchSets, List.map_cons, List.map_nil]
  decide

section Launch
variable (x : Tile) (l : LaunchInfo) (t rank tn cyc : Nat)

/-- The tile cleared for a task: engines, counters, reduction registers and digest slots. -/
def Tile.cleared (x : Tile) : Tile := (List.range 16).foldl Tile.emptySlot x.blankEngines.clearCounters.clearRed

/-- The launch epoch that a LAUNCH begins. -/
def Tile.nextEpoch (x : Tile) : Nat := (x.rd F.TILE_D_STATUS_epoch + 1) % 256

theorem Tile.launch_eq : x.launch l t rank tn cyc =
    (({ x.cleared.wrs (launchSets l x.nextEpoch) with g := launchRegs l t rank } : Tile).thawAll).eventAll tn cyc 1 (l.bay + 64 * x.nextEpoch) := rfl

/-- Outside the registers a LAUNCH leaves the engines blank and the general registers as it lists them. -/
theorem Tile.launch_frame : ∃ r, x.launch l t rank tn cyc = { x.blankEngines with regs := r, g := launchRegs l t rank } := by
  rw [Tile.launch_eq]
  obtain ⟨r0, hr0⟩ := Tile.emptySlots_frame x.blankEngines.clearCounters.clearRed (List.range 16)
  obtain ⟨r1, hr1⟩ := Tile.thawAll_frame ({ x.cleared.wrs (launchSets l x.nextEpoch) with g := launchRegs l t rank } : Tile)
  obtain ⟨r2, hr2⟩ := Tile.eventAll_frame (({ x.cleared.wrs (launchSets l x.nextEpoch) with g := launchRegs l t rank } : Tile).thawAll) tn cyc 1
    (l.bay + 64 * x.nextEpoch)
  refine ⟨r2, ?_⟩
  rw [hr2, hr1, Tile.cleared, hr0]
  rfl

theorem Tile.rget_launch {o : Nat} (ho : o < 0x2808) :
    rget (x.launch l t rank tn cyc).regs o = rget (setFlds x.cleared.regs (launchSets l x.nextEpoch)) o := by
  rw [Tile.launch_eq, Tile.rget_eventAll _ _ _ _ _ ho, Tile.rget_thawAll _ ho]
  rfl

/-- A field that a LAUNCH sets reads as it was set. -/
theorem Tile.rd_launch (hx : KMap.wf x.regs = true) {f : Fld} {v : Nat} (hmem : (f, v) ∈ launchSets l x.nextEpoch) :
    (x.launch l t rank tn cyc).rd f = v % 2 ^ f.width := by
  obtain ⟨hoff, hfits⟩ := launchSets_place l x.nextEpoch f (List.mem_map_of_mem (f := Prod.fst) hmem)
  have hwf : KMap.wf x.cleared.regs = true := Tile.emptySlots_wf _ (Tile.clearRed_wf _ (Tile.clearCounters_wf _ (x.blankEngines_wf hx))) _
  rw [Tile.rd, fld, Tile.rget_launch _ _ _ _ _ _ (by omega)]
  exact fld_setFlds hwf (launchSets_apart l _) hmem hfits

/-- The register of a landing or a sync counter reads 0. -/
theorem Tile.rget_launch_counter {o : Nat} (h : (0x1800 ≤ o ∧ o < 0x1A00) ∨ (0x2000 ≤ o ∧ o < 0x2800)) :
    rget (x.launch l t rank tn cyc).regs o = 0 := by
  rw [Tile.rget_launch _ _ _ _ _ _ (by omega), rget_setFlds_ne]
  · exact (Tile.rget_emptySlots _ _ (by omega)).trans (Tile.rget_clearCounters _ h)
  · intro e he
    have := (launchSets_place l x.nextEpoch e.1 (List.mem_map_of_mem he)).1
    omega

theorem Tile.rd_launch_counter {f : Fld} (h : (0x1800 ≤ f.off ∧ f.off < 0x1A00) ∨ (0x2000 ≤ f.off ∧ f.off < 0x2800)) :
    (x.launch l t rank tn cyc).rd f = 0 := by
  rw [Tile.rd, fld, Tile.rget_launch_counter _ _ _ _ _ _ h]
  simp [bits]

end Launch

/-- A general register that a LAUNCH puts: 0 is not listed. -/
def launchPut (m : KMap Word) (e : Nat × Nat) : KMap Word := if e.2 = 0 then m else kput m e.1 (BitVec.ofNat 32 e.2)

theorem launchRegs_eq (l : LaunchInfo) (t rank : Nat) : launchRegs l t rank =
    [(1, t), (2, rank), (3, l.count), (4, l.args % 2 ^ 32), (5, l.args / 2 ^ 32), (6, l.bay), (7, l.dev)].foldl launchPut [] := rfl

/-- It reads as it was put, where the map did not list it. -/
theorem kget_launchPut {m : KMap Word} {k : Nat} (v : Nat) (h : kget m k 0#32 = 0#32) (n : Nat) :
    kget (launchPut m (k, v)) n 0#32 = if n = k then BitVec.ofNat 32 v else kget m n 0#32 := by
  unfold launchPut
  split
  · next hv => split <;> simp_all
  · exact kget_kput _ _ _ _ _

@[simp] theorem kget_nil {α : Type} (n : Nat) (d : α) : kget ([] : KMap α) n d = d := rfl

/-- Registers put one after another, under different numbers: each reads as it was put. -/
theorem kget_foldl_launchPut {l : List (Nat × Nat)} (hl : (l.map Prod.fst).Nodup) {m : KMap Word} (hm : ∀ e ∈ l, kget m e.1 0#32 = 0#32) (n : Nat) :
    kget (l.foldl launchPut m) n 0#32 = ((l.lookup n).map (BitVec.ofNat 32)).getD (kget m n 0#32) := by
  induction l generalizing m with
  | nil => rfl
  | cons e l ih =>
    obtain ⟨k, v⟩ := e
    obtain ⟨hk, hl'⟩ := List.nodup_cons.1 hl
    obtain ⟨hkm, hm'⟩ := List.forall_mem_cons.1 hm
    have hrest : ∀ e ∈ l, kget (launchPut m (k, v)) e.1 0#32 = 0#32 := fun e he => by
      have hne : e.1 ≠ k := fun h => hk (List.mem_map.2 ⟨e, he, h⟩)
      rw [kget_launchPut v hkm, if_neg hne, hm' e he]
    rw [List.foldl_cons, ih hl' hrest, kget_launchPut v hkm, List.lookup_cons]
    by_cases hn : n = k
    · have hnone : l.lookup n = none := List.lookup_eq_none_iff.2 fun e he => by
        simpa using fun h : n = e.1 => hk (List.mem_map.2 ⟨e, he, h.symm.trans hn⟩)
      simp [hn, hn ▸ hnone]
    · simp [hn, beq_eq_false_iff_ne.2 hn]

/-- The general registers at cycle 0 (08 R180). -/
theorem kget_launchRegs (l : LaunchInfo) (t rank n : Nat) : kget (launchRegs l t rank) n 0#32 = ((List.lookup n
    [(1, t), (2, rank), (3, l.count), (4, l.args % 2 ^ 32), (5, l.args / 2 ^ 32), (6, l.bay), (7, l.dev)]).map (BitVec.ofNat 32)).getD 0#32 := by
  rw [launchRegs_eq]
  exact kget_foldl_launchPut (by simp) (by simp) n

/-! The general registers of a launched tile. -/
section Registers
variable (x : Tile) (l : LaunchInfo) (t rank tn cyc : Nat)

theorem Tile.gr_launch (n : Nat) : (x.launch l t rank tn cyc).gr n = if n = 0 then 0 else ((List.lookup n
    [(1, t), (2, rank), (3, l.count), (4, l.args % 2 ^ 32), (5, l.args / 2 ^ 32), (6, l.bay), (7, l.dev)]).map (BitVec.ofNat 32)).getD 0#32 |>.toNat := by
  obtain ⟨r, hr⟩ := x.launch_frame l t rank tn cyc
  rw [show (x.launch l t rank tn cyc).gr n = _ from congrArg (fun z : Tile => z.gr n) hr, ← kget_launchRegs]
  rfl

/-- g1 to g7 as R180 lists them. -/
theorem Tile.gr_launch_listed (ht : t < 2 ^ 32) (hrank : rank < 2 ^ 32) (hcount : l.count < 2 ^ 32) (hargs : l.args < 2 ^ 64)
    (hbay : l.bay < 2 ^ 32) (hdev : l.dev < 2 ^ 32) :
    let y := x.launch l t rank tn cyc
    y.gr 1 = t ∧ y.gr 2 = rank ∧ y.gr 3 = l.count ∧ y.gr 4 = l.args % 2 ^ 32 ∧ y.gr 5 = l.args / 2 ^ 32 ∧ y.gr 6 = l.bay ∧ y.gr 7 = l.dev := by
  intro y
  simp only [y, Tile.gr_launch]
  refine ⟨?_, ?_, ?_, ?_, ?_, ?_, ?_⟩ <;> simp [List.lookup] <;> omega

theorem Tile.gr_launch_other {n : Nat} (hn : n = 0 ∨ 7 < n) : (x.launch l t rank tn cyc).gr n = 0 := by
  have hunlisted : ∀ k, 1 ≤ k → k ≤ 7 → (n == k) = false := fun k h1 h7 => beq_eq_false_iff_ne.2 (by omega)
  rw [Tile.gr_launch]
  simp [List.lookup, hunlisted]

end Registers

end Sys2Proof.Machine
end

section
/-! The start of a queue's packets (13 R275 to R286), and O37. -/

namespace Sys2Proof.Machine

section Start
variable {s : State} {q k : Nat} {p : Pkt} {f : Nat → Bool} {g : State → Nat → Pkt → State} (hnext : (s.queue q).next? = some (k, p))
  (hserved : s.served q = true) (htype : f p.type = true)
include hnext hserved htype

/-- The next packet of the queue served, of the row's type and well formed, has its meaning. -/
theorem State.start_of_ok (hok : p.ok = true) : s.start q f g = (g (s.startPkt q k p) k { p with started := true }).settle q := by
  simp [State.start, hnext, hserved, htype, hok]

/-- A malformed one marks its queue GUILTY (13 R279). -/
theorem State.start_of_malformed (hbad : p.ok = false) : s.start q f g = (s.startPkt q k p).markGuilty q 0x82 0x7FF := by
  simp [State.start, hnext, hserved, htype, hbad]

end Start

theorem State.badBay_iff (s : State) (b : Nat) : s.badBay b = true ↔ s.image? = none ∨ s.image.bay? b = none ∨ s.bayTiles b = [] := by
  simp [State.badBay, or_assoc]

/-- Settles O37: a LAUNCH's tile by the layers of what it clears and sets, a packet's start by its type. -/
theorem packetsDoAsTheirTypesSay : Obligations.PacketsDoAsTheirTypesSay := by
  unfold Obligations.PacketsDoAsTheirTypesSay
  constructor
  · intro x l t rank tn cyc hx y
    have hset : ∀ {f v}, (f, v) ∈ launchSets l x.nextEpoch → y.rd f = v % 2 ^ f.width := x.rd_launch l t rank tn cyc hx
    have hstate : y.state = 1 := hset (v := 1) (by simp [launchSets])
    have hpc : y.pc = l.entry % 2 ^ 24 := hset (by simp [launchSets])
    have hbase : y.rd F.TILE_S_CODE_BASE_base = l.base % 2 ^ 64 := hset (by simp [launchSets])
    have hseeded : y.rd F.TILE_M_STATUS_seeded = 0 := hset (v := 0) (by simp [launchSets])
    have hepoch : y.rd F.TILE_D_STATUS_epoch = (x.rd F.TILE_D_STATUS_epoch + 1) % 256 :=
      (hset (v := x.nextEpoch) (by simp [launchSets])).trans (Nat.mod_mod _ _)
    have hctr : ∀ n, n < 256 → y.ctr n = 0 := fun n hn => x.rd_launch_counter l t rank tn cyc (.inr (by simp only [F.TILE_SYNC_count]; omega))
    have hlc : ∀ n, n < 64 → y.rd (F.TILE_LC_count n) = 0 := fun n hn =>
      x.rd_launch_counter l t rank tn cyc (.inl (by simp only [F.TILE_LC_count]; omega))
    obtain ⟨r, hr⟩ := x.launch_frame l t rank tn cyc
    have hy : y = { x.blankEngines with regs := r, g := launchRegs l t rank } := hr
    refine ⟨?_, ?_, ?_, ?_, ?_, ?_, ?_, ?_, ?_, ?_, ?_, ?_, ?_, ?_, ?_, ?_, ?_, ?_, ?_, ?_, hctr, hlc, hstate, hpc, hbase, hseeded, hepoch,
      x.gr_launch_listed l t rank tn cyc, fun n => x.gr_launch_other l t rank tn cyc⟩ <;> rw [hy] <;> rfl
  · intro s q k p0 hnext hserved a p n8 b d
    have starts : ∀ {f g}, f p0.type = true → p0.ok = true → ok (s.start q f g) = .next ((g a k p).settle q) := fun hf hok =>
      congrArg ok (State.start_of_ok hnext hserved hf hok)
    refine ⟨fun hok => ⟨fun ht => starts (by simp [ht]) hok, fun ht => ⟨fun hbad => ?_, fun h1 h2 h3 => ⟨fun hfree hgo => ?_, fun hwait => ?_⟩⟩,
      fun ht => starts (by simp [ht]) hok, fun ht => starts (by simp [ht]) hok, fun ht v errs => starts (by simp [ht]) hok,
      fun ht => starts (by simp [ht]) hok, fun ht => ⟨fun he => ?_, fun he => ?_⟩, fun ht => starts (by simp [ht]) hok,
      fun ht => starts (by simp [ht]) hok⟩, fun hbad => ?_⟩
    · refine (starts (by simp [ht]) hok).trans ?_
      rw [if_pos ((a.badBay_iff b).2 hbad)]
    · have hgood : ¬ a.badBay b = true := by simp [a.badBay_iff, h1, h2, h3]
      refine (starts (by simp [ht]) hok).trans ?_
      rw [if_neg hgood, if_pos (by simp [b, p, hfree, hgo])]
    · have hgood : ¬ a.badBay b = true := by simp [a.badBay_iff, h1, h2, h3]
      refine (starts (by simp [ht]) hok).trans ?_
      rw [if_neg hgood, if_neg (by simpa [b, p, imp_iff_not_or] using hwait)]
    · refine (starts (by simp [ht]) hok).trans ?_
      rw [if_pos he]
    · refine (starts (by simp [ht]) hok).trans ?_
      rw [if_neg he]
    · intro bad
      have fails : ∀ {f g}, f p0.type = true → ok (s.start q f g) = .next bad := fun hf =>
        congrArg ok (State.start_of_malformed hnext hserved hf hbad)
      refine ⟨fun ht => fails ?_, fun ht => fails (by simp [ht]), fun ht => fails (by simp [ht]), fun ht => fails (by simp [ht]),
        fun ht v errs => fails (by simp [ht]), fun ht => fails (by simp [ht]), fun ht => fails (by simp [ht]), fun ht => fails (by simp [ht]),
        fun ht => fails (by simp [ht])⟩
      simp only [Bool.or_eq_true, beq_iff_eq, decide_eq_true_eq]
      omega

end Sys2Proof.Machine
end

section
/-! What ends the wait of a packet (13 R280 to R287), and O38. -/

namespace Sys2Proof.Machine

section Waits
variable {s : State} {q : Fin 32768}

theorem exec_fencePoll_of_waiting {k n : Nat} {v : Option Dword} {errs : List BurstErr} (hready : s.feReady = true)
    (hk : nthIdx (fun p => p.started && !p.done && p.type == 5 && p.stage == 1) (s.queue q).pkts n = some k) :
    exec (.fencePoll q v errs n) s = .next ((s.fenceRead q k ((s.queue q).pkts.getD k { bytes := [] }) v errs).settle q) := by
  show execFencePoll q v errs s n = _
  simp only [execFencePoll, hready, if_true, hk, ok]

theorem exec_tickWaitExpiry_of_come {k : Nat} (hgo : s.stopped = false)
    (hk : (s.queue q).busyPkt (fun p => p.type == 6 && p.stage == 1 && le p.bytes 16 8 ≤ s.tn) = some k) :
    exec (.tickWaitExpiry q) s = .next (s.completePkt q k) := by
  show execTickWaitExpiry q s = _
  simp only [execTickWaitExpiry, hgo, Bool.false_eq_true, if_false, hk, ok]

/-- The state in which the oldest confirmation of a queue no longer waits: `l` are the others. -/
def State.confirmedLeft (s : State) (q : Nat) (l : List Nat) : State := s.setQueue q { s.queue q with confirm := l }

section Confirm
variable {c : Nat} {l : List Nat} (hc : (s.queue q).confirm = c :: l)
include hc

/-- A packet's own write is confirmed: the packet completes. -/
theorem exec_fenceWriteConfirm_packet {k : Nat} (h0 : c = 0) (hk : (s.queue q).busyPkt (fun p => p.type == 4 || p.type == 8) = some k) :
    exec (.fenceWriteConfirm q true) s = .next ((s.confirmedLeft q l).completePkt q k) := by
  show execFenceWriteConfirm q true s = _
  simp [execFenceWriteConfirm, hc, h0, hk, State.confirmed, State.confirmedLeft, ok]

/-- A completion fence with its message is confirmed (13 R281). -/
theorem exec_fenceWriteConfirm_message (h1 : c = 1) :
    exec (.fenceWriteConfirm q true) s = .next ((s.confirmedLeft q l).qMsix q) := by
  show execFenceWriteConfirm q true s = _
  simp [execFenceWriteConfirm, hc, h1, State.confirmed, State.confirmedLeft, ok]

theorem exec_fenceWriteConfirm_fence (h23 : c = 2 ∨ c = 3) : exec (.fenceWriteConfirm q true) s = .next (s.confirmedLeft q l) := by
  show execFenceWriteConfirm q true s = _
  obtain rfl | rfl := h23 <;> simp [execFenceWriteConfirm, hc, State.confirmed, State.confirmedLeft, ok]

theorem exec_fenceWriteConfirm_failed (h4 : c < 4) :
    exec (.fenceWriteConfirm q false) s = .next ((s.confirmedLeft q l).badCompletion.1.writeFault q) := by
  show execFenceWriteConfirm q false s = _
  have hne : c ≠ 4 ∧ c ≠ 5 ∧ c ≠ 6 := by omega
  simp [execFenceWriteConfirm, hc, hne, State.confirmed, State.confirmedLeft, ok]

/-- The GUILTY sequence goes on whether its fence was confirmed or failed (13 R291). -/
theorem exec_fenceWriteConfirm_guilty (h4 : c = 4) (hst : (s.queue q).state = 2) (good : Bool) :
    exec (.fenceWriteConfirm q good) s = .next (((s.confirmedLeft q l).confirmed good).guiltyEnd q) := by
  show execFenceWriteConfirm q good s = _
  simp [execFenceWriteConfirm, hc, h4, hst, State.confirmedLeft, ok]

/-- So does a destroy (13 R296). -/
theorem exec_fenceWriteConfirm_destroy (h5 : c = 5) (hst : (s.queue q).state = 5) (good : Bool) :
    exec (.fenceWriteConfirm q good) s = .next (((s.confirmedLeft q l).confirmed good).destroyFenced q) := by
  show execFenceWriteConfirm q good s = _
  simp [execFenceWriteConfirm, hc, h5, hst, State.confirmedLeft, ok]

theorem exec_fenceWriteConfirm_cancelled (h6 : c = 6) (good : Bool) :
    exec (.fenceWriteConfirm q good) s = .next ((s.confirmedLeft q l).confirmed good) := by
  show execFenceWriteConfirm q good s = _
  simp [execFenceWriteConfirm, hc, h6, State.confirmedLeft, ok]

end Confirm
end Waits

/-- A copy unit's work done (13 R285): what was read, whether all of it, and what the writing left; the unit is free. -/
def State.copied (s : State) (d : Nat) (data : Option (List Byte)) (errs : List BurstErr) : State × Bool × Nat :=
  let c := kget s.disp d {}
  let l := cut256 (c.len / 256 + 2)
  let r := s.copyRead (c.space % 2) c.src data errs (l c.src c.len)
  let o := r.1.copyData c r.2.1
  let w := o.1.copyWrite (c.space / 2 % 2) c.dst o.2 (l c.dst c.len)
  (({ w.1 with disp := kput w.1.disp d ({} : Disp) } : State).wr (F.FE_DISP_busy d) 0, r.2.2, w.2)

section Copy
variable {s s1 : State} {d : Fin 4} {data : Option (List Byte)} {errs : List BurstErr} {confirmed good : Bool} {q w : Nat}
  (hq : (kget s.disp d {}).queue = some q) (hcopied : s.copied d data errs = (s1, good, w))
include hq hcopied

theorem exec_copyUnitDone_of_good {k : Nat} (hgood : good = true) (hw : w = 0 ∨ w = 1 ∧ confirmed = true)
    (hk : (s1.queue q).busyPkt (fun p => p.type == 3) = some k) :
    exec (.copyUnitDone d data errs confirmed) s = .next (s1.completePkt q k) := by
  show execCopyUnitDone d data errs s confirmed = _
  simp only [State.copied, Prod.mk.injEq] at hcopied
  obtain ⟨hs1, hg, hw'⟩ := hcopied
  have hall : (w == 0 || w == 1 && confirmed) = true := by simpa using hw
  simp only [execCopyUnitDone, hq, hs1, hg, hw', hgood, hall, hk, Bool.and_self, if_true, ok]

/-- A piece that cannot be read or written, or a confirmation that shows an error, fails the COPY. -/
theorem exec_copyUnitDone_of_bad (hbad : ¬ (good = true ∧ (w = 0 ∨ w = 1 ∧ confirmed = true))) :
    exec (.copyUnitDone d data errs confirmed) s = .next ((s1.confirmed (w != 1 || confirmed)).feCause q 0x88) := by
  show execCopyUnitDone d data errs s confirmed = _
  simp only [State.copied, Prod.mk.injEq] at hcopied
  obtain ⟨hs1, hg, hw'⟩ := hcopied
  have hnot : ¬ (good && (w == 0 || w == 1 && confirmed)) = true := by simpa using hbad
  simp only [execCopyUnitDone, hq, hs1, hg, hw', if_neg hnot, ok]

end Copy

/-- Settles O38: one lemma for each event that ends a wait. -/
theorem waitingPacketsEnd : Obligations.WaitingPacketsEnd := by
  unfold Obligations.WaitingPacketsEnd
  intro s q x
  refine ⟨fun k n v errs => exec_fencePoll_of_waiting, fun k => exec_tickWaitExpiry_of_come, fun c l hc => ?_, fun d c data confirmed errs hc hq => ?_,
    fun h => congrArg ok (if_pos h)⟩
  · intro s1 s2 either
    have heither : ∀ good, (s.confirmedLeft q l).confirmed good = either good := fun good => by cases good <;> rfl
    refine ⟨fun h0 k => exec_fenceWriteConfirm_packet hc h0, exec_fenceWriteConfirm_message hc, exec_fenceWriteConfirm_fence hc,
      exec_fenceWriteConfirm_failed hc, fun h4 hst good => ?_, fun h5 hst good => ?_, fun h6 good => ?_⟩
    · rw [exec_fenceWriteConfirm_guilty hc h4 hst, heither]
    · rw [exec_fenceWriteConfirm_destroy hc h5 hst, heither]
    · rw [exec_fenceWriteConfirm_cancelled hc h6, heither]
  · intro l r o w s1
    subst hc
    have hcopied : s.copied d data errs = (s1, r.2.2, w.2) := rfl
    refine ⟨fun k hgood hw hk => exec_copyUnitDone_of_good hq hcopied hgood hw hk, fun hbad => ?_, fun hw hconf => ?_⟩
    · rw [exec_copyUnitDone_of_bad hq hcopied (by rintro ⟨hg, hw⟩; obtain ⟨h, -⟩ | h := hbad <;> [simp [hg] at h; omega])]
      have hshown : (w.2 != 1 || confirmed) = true := by
        obtain ⟨-, h | h⟩ | h := hbad
        · simp [h]
        · simp [h]
        · simp; omega
      rw [hshown]; rfl
    · rw [exec_copyUnitDone_of_bad hq hcopied (by simp [hw, hconf]), hw, hconf]
      rfl

end Sys2Proof.Machine
end

section
/-! Doorbells, ring fetches and the operations of a queue (13 R271, R272, R292, R296, R299), and O39. -/

namespace Sys2Proof.Machine

section Operations
variable {s : State} {q : Nat}

/-- A doorbell within the ring sets the tail (13 R271). -/
theorem State.doorbell_of_within {t : Nat} (hst : (s.queue q).state = 1 ∨ (s.queue q).state = 2)
    (hlow : ((s.queue q).tail + 2 ^ 32 - (s.queue q).head) % 2 ^ 32 ≤ (t + 2 ^ 32 - (s.queue q).head) % 2 ^ 32)
    (hhigh : (t + 2 ^ 32 - (s.queue q).head) % 2 ^ 32 ≤ (s.queue q).entries) :
    s.doorbell q t = s.setQueue q ((s.queue q).wr F.FE_Q_PTR_tail t) := (if_pos hst).trans (if_pos ⟨hlow, hhigh⟩)

theorem State.doorbell_of_beyond {t : Nat} (hst : (s.queue q).state = 1 ∨ (s.queue q).state = 2)
    (hout : (t + 2 ^ 32 - (s.queue q).head) % 2 ^ 32 < ((s.queue q).tail + 2 ^ 32 - (s.queue q).head) % 2 ^ 32 ∨
      (s.queue q).entries < (t + 2 ^ 32 - (s.queue q).head) % 2 ^ 32) :
    s.doorbell q t = s.feCause q 0x84 := (if_pos hst).trans (if_neg (by omega))

theorem State.doorbell_of_idle {t : Nat} (h1 : (s.queue q).state ≠ 1) (h2 : (s.queue q).state ≠ 2) :
    s.doorbell q t = s.logs .FE_DB_IGNORED [q] := if_neg (by simp [h1, h2])

theorem State.create_of_ok (hst : (s.queue q).state = 0) (hcfg : (s.queue q).cfgOk = true) :
    s.create q = ((s.setQueue q (({ regs := rput (rput (rput (s.queue q).regs 0x18 0) 0x30 0x7FF00) 0x38 0 } : Queue).wrs
      [(F.FE_Q_STATE_destroyed, 0), (F.FE_Q_STATE_reset_done, 0)])).qState q 1).partitionCheck q := by
  simp [State.create, hst, hcfg]

theorem State.create_of_badCfg (hst : (s.queue q).state = 0) (hcfg : (s.queue q).cfgOk = false) : s.create q = s.logs .FE_Q_BADCFG [q] := by
  simp [State.create, hst, hcfg]

theorem State.create_of_busy (hst : (s.queue q).state ≠ 0) : s.create q = s.logs .FE_Q_BUSY [q] := if_pos hst

end Operations

/-- RING_FETCH of an ACTIVE queue that fetches no JUMP's buffer reads its ring. -/
theorem exec_ringFetch_of_ring {s : State} {q : Fin 32768} {data : Option (List Byte)} {errs : List BurstErr} {n i : Nat}
    (hn : n = (s.queue q).fetchCount) (hi : i = (s.queue q).fetchedTo) (hst : (s.queue q).state = 1) (hready : s.feReady = true)
    (hjump : (s.queue q).jump = none) : exec (.ringFetch q data errs) s = .next (s.fetchNext q n i data errs) := by
  show execRingFetch q data errs s = _
  simp [execRingFetch, hst, hready, hjump, hn, hi, ok]

/-- Settles O39: a register operation that is let through is its function, and each clause is one case of it. -/
theorem queuesAreOperated : Obligations.QueuesAreOperated := by
  unfold Obligations.QueuesAreOperated
  intro s m q x gone y
  refine ⟨fun t h => ?_, fun h => ?_, fun h => congrArg ok (State.guarded_of_lets _ h), fun n i data errs hn hi hst hready hjump => ?_⟩
  · intro there here
    have rings : ∀ {u}, s.doorbell q t.toNat = u → exec (.doorbell m q t) s = .next u := fun hu =>
      congrArg ok ((State.guarded_of_lets _ h).trans hu)
    exact ⟨fun hst hlow hhigh => rings (State.doorbell_of_within hst hlow hhigh), fun hst hout => rings (State.doorbell_of_beyond hst hout),
      fun h1 h2 => rings (State.doorbell_of_idle h1 h2)⟩
  · have creates : ∀ {u}, s.create q = u → exec (.create m q) s = .next u := fun hu => congrArg ok ((State.guarded_of_lets _ h).trans hu)
    have destroys : ∀ {u}, s.destroy q = u → exec (.destroy m q) s = .next u := fun hu => congrArg ok ((State.guarded_of_lets _ h).trans hu)
    have resumes : ∀ {u}, s.resume q = u → exec (.resume m q) s = .next u := fun hu => congrArg ok ((State.guarded_of_lets _ h).trans hu)
    exact ⟨fun hst hcfg => creates (State.create_of_ok hst hcfg), fun hst hcfg => creates (State.create_of_badCfg hst hcfg),
      fun hst => creates (State.create_of_busy hst), fun hst => destroys (if_pos hst), fun h1 h2 => destroys (if_neg (not_or.2 ⟨h1, h2⟩)),
      fun hst hdone => resumes (if_pos ⟨hst, hdone⟩), fun hnot => resumes (if_neg (by rw [not_and_or]; exact hnot))⟩
  · intro r
    rw [exec_ringFetch_of_ring hn hi hst hready hjump]
    exact ⟨fun l hl => congrArg ok (State.fetchNext_of_some (Prod.ext rfl hl)), fun hl => congrArg ok (State.fetchNext_of_none (Prod.ext rfl hl))⟩

end Sys2Proof.Machine
end

section
/-! HBM (14): bursts written and read, the decoder, scrubbing and temperature, and O40. -/

namespace Sys2Proof.Machine

/-! A request that touches one burst. -/

/-- A string that does not leave its burst is one piece. -/
theorem pieces_of_one {o n : Nat} (hpos : 0 < n) (hfit : o % 32 + n ≤ 32) : pieces (n / 32 + 2) o 0 n = [(0, n)] := by
  have hmin : min n (32 - o % 32) = n := by omega
  have hne : n ≠ 0 := by omega
  rw [pieces.eq_def]
  simp only [if_neg hne, hmin, Nat.sub_self, Nat.zero_add]
  rw [pieces.eq_def]
  rfl

theorem sub_all {l : List Byte} {n : Nat} (h : l.length ≤ n) : sub l 0 n = l := by
  rw [sub, List.drop_zero, List.take_of_length_le h]

@[simp] theorem State.busErrs_nil (s : State) (pc o addr j : Nat) : s.busErrs pc o addr [] j = s := rfl
@[simp] theorem errsOf_nil (j : Nat) : errsOf [] j = [] := rfl

section OneBurst
variable {s : State} {r : Region} {a addr pc o n : Nat} {data : List Byte} {errs : List BurstErr} (hplace : s.image.place r a = (pc, o))
include hplace

theorem State.hbmWrite_whole (hlen : data.length = 32) (ha : a % 32 = 0) :
    s.hbmWrite r a addr data [] = (s.burstStore pc o 32 data, 32) := by
  have hps : pieces (data.length / 32 + 2) a 0 data.length = [(0, 32)] := by
    rw [pieces_of_one (by omega) (by omega), hlen]
  simp [State.hbmWrite, hps, hplace, sub_all hlen.le]

/-- A piece shorter than its burst is a read, the bytes put in, and a write of the burst (14 R306). -/
theorem State.hbmWrite_part (hpos : 0 < data.length) (hlen : data.length < 32) (hfit : a % 32 + data.length ≤ 32) :
    let rd := (s.busErrs pc o addr errs 0).burstRead pc o addr (errsOf errs 0) false
    (rd.2 = none → s.hbmWrite r a addr data errs =
      (rd.1.setStack (pc / 32) ((rd.1.stack (pc / 32)).bump F.HBM_ECC_COUNTS_dropped_writes), 0)) ∧
    (∀ b, rd.2 = some b → s.hbmWrite r a addr data errs =
      (rd.1.burstStore pc (o / 32 * 32) data.length (b.take (o % 32) ++ data ++ b.drop (o % 32 + data.length)), data.length)) := by
  intro rd
  have hps : pieces (data.length / 32 + 2) a 0 data.length = [(0, data.length)] := pieces_of_one hpos hfit
  have hne : data.length ≠ 32 := by omega
  refine ⟨fun hnone => ?_, fun b hsome => ?_⟩
  · have hrd : (s.busErrs pc o addr errs 0).burstRead pc o addr (errsOf errs 0) false = (rd.1, none) := Prod.ext rfl hnone
    simp [State.hbmWrite, hps, hplace, hne, hrd]
  · have hrd : (s.busErrs pc o addr errs 0).burstRead pc o addr (errsOf errs 0) false = (rd.1, some b) := Prod.ext rfl hsome
    simp [State.hbmWrite, hps, hplace, hne, hrd, sub_all le_rfl]

/-- A whole burst read without errors of the bus. -/
theorem State.hbmRead_whole (ha : a % 32 = 0) (ho : o % 32 = 0) {d : List Byte} (hd : d.length = 32)
    (hrd : (s.burstRead pc o addr [] false).2 = some d) : (s.hbmRead r a 32 addr []).2 = some d := by
  have hps : pieces (32 / 32 + 2) a 0 32 = [(0, 32)] := pieces_of_one (by omega) (by omega)
  simp [State.hbmRead, hps, hplace, hrd, ho, sub_all hd.le]

end OneBurst

/-! The place of a burst. -/

theorem toRow_aligned {o : Nat} (ho : o % 32 = 0) (row : Nat) : toRow o row % 32 = 0 := by
  unfold toRow
  rw [Nat.shiftLeft_eq, Nat.shiftLeft_eq]
  omega

theorem redirect_aligned {o : Nat} (ho : o % 32 = 0) (l : List Retire) (pc : Nat) : redirect l pc o % 32 = 0 := by
  unfold redirect
  split
  · exact toRow_aligned ho _
  · exact ho

theorem State.hbmPhys_aligned (s : State) (pc : Nat) {o : Nat} (ho : o % 32 = 0) : s.hbmPhys pc o % 32 = 0 := by
  have := redirect_aligned ho (s.stack (pc / 32)).active (pc % 32)
  unfold State.hbmPhys hbmKey
  omega

/-! The decoder (14 R304). -/

theorem rsDecode_of_clean {er : List Nat} {errs : List (Nat × Byte)} (h : ∀ b ∈ syndromes errs, b = 0) : rsDecode er errs = some [] := by
  have hall : (syndromes errs).all (· == 0) = true := by simpa using h
  simp only [rsDecode, hall, if_true]

theorem rsDecode_nil (er : List Nat) : rsDecode er [] = some [] := rsDecode_of_clean (by decide)

/-- The patterns of lines that the decoder tries beside the erased lines: at most (4 − f) / 2 of the others. -/
def tried (er : List Nat) : List (List Nat) := chooseUpTo ((4 - er.length) / 2) ((List.range 36).filter (fun k => !er.contains k))

theorem rsDecode_of_errors {er : List Nat} {errs : List (Nat × Byte)} (h : ¬ (syndromes errs).all (· == 0) = true) : rsDecode er errs =
    ((tried er).findSome? (fun ls => tryLines (syndromes errs) (er ++ ls))).map (fun l => l.filter (fun e => e.2 != 0)) := if_neg h

/-- An uncorrectable burst fits no pattern. -/
theorem tryLines_of_rsDecode_none {er : List Nat} {errs : List (Nat × Byte)} (h : rsDecode er errs = none) :
    ∀ ls ∈ tried er, tryLines (syndromes errs) (er ++ ls) = none := by
  by_cases hz : (syndromes errs).all (· == 0) = true
  · rw [rsDecode_of_clean (by simpa using hz)] at h
    cases h
  · rw [rsDecode_of_errors hz, Option.map_eq_none_iff] at h
    exact List.findSome?_eq_none_iff.1 h

/-- A correction fits the syndromes at the lines of one pattern. -/
theorem tryLines_of_rsDecode_some {er : List Nat} {errs fix : List (Nat × Byte)} (h : rsDecode er errs = some fix) (hfix : fix ≠ []) :
    ∃ ls ∈ tried er, ∃ l, tryLines (syndromes errs) (er ++ ls) = some l ∧ fix = l.filter (fun e => e.2 != 0) := by
  by_cases hz : (syndromes errs).all (· == 0) = true
  · rw [rsDecode_of_clean (by simpa using hz)] at h
    cases h
    exact absurd rfl hfix
  · rw [rsDecode_of_errors hz, Option.map_eq_some_iff] at h
    obtain ⟨l, hl, rfl⟩ := h
    obtain ⟨ls, hmem, htry⟩ := List.exists_of_findSome?_eq_some hl
    exact ⟨ls, hmem, l, htry, rfl⟩

/-! Bursts read (14 R305). -/

section Read
variable {s : State} {pc o addr : Nat} {errs : List (Nat × Byte)}

/-- A burst without errors. -/
theorem State.burstRead_of_clean (hbad : s.hbmBad.contains (s.hbmPhys pc (o / 32 * 32) / 32) = false)
    (hdec : rsDecode ((s.stack (pc / 32)).erased (pc % 32)) errs = some []) :
    s.burstRead pc o addr errs false = (s.count (36 + 2 * (pc / 32)) 32, some (xorLines (s.hbm.read (s.hbmPhys pc (o / 32 * 32)) 32) errs)) := by
  simp only [State.burstRead, Bool.false_eq_true, if_false, hbad, hdec]

/-- A corrected burst: counted, recorded, its lines charged, its row's history kept. -/
theorem State.burstRead_of_corrected {e : Nat × Byte} {l : List (Nat × Byte)} (hbad : s.hbmBad.contains (s.hbmPhys pc (o / 32 * 32) / 32) = false)
    (hdec : rsDecode ((s.stack (pc / 32)).erased (pc % 32)) errs = some (e :: l)) :
    let st := pc / 32
    let po := s.hbmPhys pc (o / 32 * 32) % 0xC0000000
    let lines := (e :: l).map (·.1)
    s.burstRead pc o addr errs false =
      (((((s.count (36 + 2 * st) 32).setStack st ((s.stack st).bump F.HBM_ECC_COUNTS_corrected)).hbmRecord 1 0 st (pc % 32) (bankOf po) (rowOf po)
        (burstOf po) lines addr).hbmCharge st (pc % 32) lines).hbmHistory st (pc % 32) (bankOf po) (rowOf po) (burstOf po)
          (lines.any (fun n => !((s.stack st).erased (pc % 32)).contains n)) false,
       some (xorLines (xorLines (s.hbm.read (s.hbmPhys pc (o / 32 * 32)) 32) errs) (e :: l))) := by
  simp only [State.burstRead, Bool.false_eq_true, if_false, hbad, hdec]

/-- An uncorrectable one: counted and recorded, its row a candidate. -/
theorem State.burstRead_of_uncorrectable (h : s.hbmBad.contains (s.hbmPhys pc (o / 32 * 32) / 32) = true ∨
      rsDecode ((s.stack (pc / 32)).erased (pc % 32)) errs = none) :
    let st := pc / 32
    let po := s.hbmPhys pc (o / 32 * 32) % 0xC0000000
    s.burstRead pc o addr errs false =
      ((((s.count (36 + 2 * st) 32).setStack st (((s.stack st).bump F.HBM_ECC_COUNTS_uncorrectable).wr F.HBM_LAST_UE_addr addr)).hbmRecord 2 1 st
        (pc % 32) (bankOf po) (rowOf po) (burstOf po) [] addr).hbmCandidate st (pc % 32) (bankOf po) (rowOf po), none) := by
  have hnone : (if s.hbmBad.contains (s.hbmPhys pc (o / 32 * 32) / 32) = true then none
      else rsDecode ((s.stack (pc / 32)).erased (pc % 32)) errs) = none := by
    obtain h | h := h
    · exact if_pos h
    · rw [h, ite_self]
  simp only [State.burstRead, Bool.false_eq_true, if_false, hnone]

end Read

/-! A burst written (14 R306, R314). -/

/-- The new spare's row of a row that is being mirrored. -/
def State.mirrorOf (s : State) (pc o : Nat) : Option Retire :=
  (s.stack (pc / 32)).build.find? (fun e => e.pc == pc % 32 && e.bank == bankOf o && e.row == rowOf o)

section Store
variable {s : State} {pc o n : Nat} {data : List Byte}

/-- A stored burst stands at its place, which is then no longer marked uncorrectable. -/
theorem State.burstStore_of_alone (h : s.mirrorOf pc o = none) : ∃ regs, s.burstStore pc o n data =
    { s with regs := regs, hbm := s.hbm.write (s.hbmPhys pc o) data, hbmBad := s.hbmBad.filter (· != s.hbmPhys pc o / 32) } := by
  unfold State.mirrorOf at h
  unfold State.burstStore
  rw [h]
  exact ⟨_, rfl⟩

/-- In a row that is being mirrored it stands at the new spare too. -/
theorem State.burstStore_of_mirrored {e : Retire} (h : s.mirrorOf pc o = some e) : ∃ regs, s.burstStore pc o n data =
    { s with
      regs := regs
      hbm := (s.hbm.write (s.hbmPhys pc o) data).write (hbmKey pc (toRow o (49120 + e.spare))) data
      hbmBad := (s.hbmBad.filter (· != s.hbmPhys pc o / 32)).filter (· != hbmKey pc (toRow o (49120 + e.spare)) / 32) } := by
  unfold State.mirrorOf at h
  unfold State.burstStore
  rw [h]
  exact ⟨_, rfl⟩

end Store

theorem Mem.read_congr {m u : Mem} {a n : Nat} (h : ∀ b, a ≤ b → b < a + n → m.get b = u.get b) : m.read a n = u.read a n := by
  induction n generalizing a with
  | zero => rfl
  | succ n ih =>
    rw [Mem.read, Mem.read, h a le_rfl (by omega), ih fun b hlow hhigh => h b (by omega) (by omega)]

/-- A memory keeps what was written at a place when the same is written at a place that does not overlap it partly. -/
theorem Mem.read_write_again {m : Mem} (hm : m.wf = true) {a b : Nat} {l : List Byte} (h : b = a ∨ b + l.length ≤ a ∨ a + l.length ≤ b) :
    ((m.write a l).write b l).read a l.length = l := by
  obtain rfl | h := h
  · exact Mem.read_write (Mem.write_wf hm _ _) _ _
  · exact (Mem.read_congr fun c hlow hhigh => Mem.get_write_out _ _ _ _ (by omega)).trans (Mem.read_write hm a l)

theorem xorLines_nil (l : List Byte) : xorLines l [] = l := by
  refine List.ext_getElem (by simp [xorLines]) fun i _ hi => ?_
  simp [xorLines, hi]

section ReadsBack
variable {s : State} {pc o : Nat} {data : List Byte} (hwf : s.hbm.wf = true) (ho : o % 32 = 0) (hlen : data.length = 32)
include hwf

theorem State.burstStore_wf (n : Nat) : (s.burstStore pc o n data).hbm.wf = true := by
  cases h : s.mirrorOf pc o with
  | none => obtain ⟨_, hw⟩ := State.burstStore_of_alone (n := n) (data := data) h; rw [hw]; exact Mem.write_wf hwf _ _
  | some e => obtain ⟨_, hw⟩ := State.burstStore_of_mirrored (n := n) (data := data) h; rw [hw]; exact Mem.write_wf (Mem.write_wf hwf _ _) _ _

include ho hlen

/-- A stored burst reads back. -/
theorem State.burstRead_burstStore (n z : Nat) : ((s.burstStore pc o n data).burstRead pc o z [] false).2 = some data := by
  have hburst : o / 32 * 32 = o := by omega
  have hk := s.hbmPhys_aligned pc ho
  cases h : s.mirrorOf pc o with
  | none =>
    obtain ⟨_, hw⟩ := State.burstStore_of_alone (n := n) (data := data) h
    have hphys : (s.burstStore pc o n data).hbmPhys pc (o / 32 * 32) = s.hbmPhys pc o := by rw [hw, hburst]; rfl
    rw [State.burstRead_of_clean (by rw [hphys, hw]; simp) (rsDecode_nil _), xorLines_nil, hphys, hw]
    exact congrArg some (hlen ▸ Mem.read_write hwf _ data)
  | some e =>
    obtain ⟨_, hw⟩ := State.burstStore_of_mirrored (n := n) (data := data) h
    have hphys : (s.burstStore pc o n data).hbmPhys pc (o / 32 * 32) = s.hbmPhys pc o := by rw [hw, hburst]; rfl
    have hspare : hbmKey pc (toRow o (49120 + e.spare)) % 32 = 0 := by
      have := toRow_aligned ho (49120 + e.spare)
      unfold hbmKey
      omega
    rw [State.burstRead_of_clean (by rw [hphys, hw]; simp) (rsDecode_nil _), xorLines_nil, hphys, hw]
    exact congrArg some (hlen ▸ Mem.read_write_again hwf (by omega))

omit hwf ho

/-- Bytes outside the burst's place and its mirror stay. -/
theorem State.get_burstStore_out (n : Nat) {b : Nat} (hout : b < s.hbmPhys pc o ∨ s.hbmPhys pc o + 32 ≤ b)
    (hmirror : ∀ e, s.mirrorOf pc o = some e →
      b < hbmKey pc (toRow o (49120 + e.spare)) ∨ hbmKey pc (toRow o (49120 + e.spare)) + 32 ≤ b) :
    (s.burstStore pc o n data).hbm.get b = s.hbm.get b := by
  rw [← hlen] at hout
  cases h : s.mirrorOf pc o with
  | none =>
    obtain ⟨_, hw⟩ := State.burstStore_of_alone (n := n) (data := data) h
    rw [hw]
    exact Mem.get_write_out _ _ _ _ hout
  | some e =>
    obtain ⟨_, hw⟩ := State.burstStore_of_mirrored (n := n) (data := data) h
    rw [hw]
    exact (Mem.get_write_out _ _ _ _ (hlen ▸ hmirror e h)).trans (Mem.get_write_out _ _ _ _ hout)

end ReadsBack

theorem State.burstStore_image (s : State) (pc o n : Nat) (data : List Byte) : (s.burstStore pc o n data).image = s.image := by
  unfold State.burstStore
  split <;> rfl

/-! Scrubbing and temperature (14 R308 to R310). -/

theorem exec_hbmScrub_of_serving {s : State} {st : Fin 16} {pc : Fin 32} {errs : List BurstErr} (hserves : (s.stack st).rd F.HBM_STATUS_state = 1) :
    let g := kget (s.stack st).scrub pc 0
    let n := (g + 1) % 12582912
    exec (.hbmScrub st pc errs) s = .next ((s.setStack st { s.stack st with
      scrub := if n = 0 then kdel (s.stack st).scrub pc else kput (s.stack st).scrub pc n }).scrubGranule (32 * st.val + pc.val) (256 * g) errs) :=
  if_neg (not_not.2 hserves)

theorem refreshCode_of_hot {t : Nat} (h : 95 < t) (old : Nat) (a b : Bool) : refreshCode old t a b = 2 := if_pos h

theorem refreshCode_of_warm {t : Nat} (h : 85 < t) (old : Nat) (a b : Bool) : 1 ≤ refreshCode old t a b := by
  unfold refreshCode
  rw [if_pos h]
  split_ifs <;> omega

/-- Settles O40: a whole burst is stored at its place and read back from it, a part of one is read, mixed and stored, and a read goes by what the
decoder answers. -/
theorem hbmScrubsAndWatchesTemperature : Obligations.HbmScrubsAndWatchesTemperature := by
  unfold Obligations.HbmScrubsAndWatchesTemperature
  refine ⟨fun s r a addr data pc o hplace hoa => ⟨fun hwf ha hlen => ?_, fun errs hpos hlt hfit => State.hbmWrite_part hplace hpos hlt hfit⟩,
    fun s pc o addr errs => ?_, fun er errs => ⟨rsDecode_of_clean, tryLines_of_rsDecode_none, fun fix => tryLines_of_rsDecode_some⟩,
    fun s st pc errs => exec_hbmScrub_of_serving, fun s st temp => rfl, fun s m st h => congrArg ok (State.guarded_of_lets _ h),
    fun old t a b => ⟨fun h => refreshCode_of_hot h old a b, fun h => refreshCode_of_warm h old a b⟩⟩
  · intro w
    have hw : w = (s.burstStore pc o 32 data, 32) := State.hbmWrite_whole hplace hlen ha
    rw [hw]
    have ho : o % 32 = 0 := by omega
    refine ⟨rfl, State.burstStore_wf hwf 32, fun z => ?_, fun b hout hmirror => State.get_burstStore_out hlen 32 hout hmirror⟩
    exact State.hbmRead_whole ((congrArg (fun i : Image => i.place r a) (s.burstStore_image pc o 32 data)).trans hplace) ha ho hlen
      (State.burstRead_burstStore hwf ho hlen 32 z)
  · intro st x k po er s0 rd
    refine ⟨State.burstRead_of_clean, fun e l hbad hdec => ?_, State.burstRead_of_uncorrectable⟩
    rw [show rd = _ from State.burstRead_of_corrected hbad hdec]
    exact ⟨rfl, rfl⟩

end Sys2Proof.Machine
end

section
/-! The retirement of HBM rows (14 R311 to R316), and O41. -/

namespace Sys2Proof.Machine

theorem exec_hbmRowCopyDone_of_building {s : State} {st : Fin 16} {bad : List (Nat × Nat)} (h : (s.stack st).rd F.HBM_RET_STATUS_state = 1) :
    let build := (s.stack st).build
    let s1 := ((List.range build.length).zip build).foldl (fun a p => a.copyRow st p.2 ((bad.filter (·.1 == p.1)).map (·.2))) s
    exec (.hbmRowCopyDone st bad) s = .next ((s1.setStack st ((s1.stack st).wr F.HBM_RET_STATUS_state 2)).hbmAutoSwap st) :=
  if_neg (not_not.2 h)

section Operations
variable {s : State} {m : Master} {st : Fin 16} (hlet : s.lets m (stackOff st 0x20) = true)
include hlet

theorem exec_hbmRetAdd_of_array (h : (s.stack st).rd F.HBM_RET_ADD_row ≤ 49151) : exec (.hbmRetAdd m st) s = .next
    (s.hbmCandidate st ((s.stack st).rd F.HBM_RET_ADD_pc) ((s.stack st).rd F.HBM_RET_ADD_bank) ((s.stack st).rd F.HBM_RET_ADD_row)) :=
  congrArg ok ((State.guarded_of_lets _ hlet).trans (if_neg (Nat.not_lt.2 h)))

theorem exec_hbmRetAdd_of_outside (h : 49151 < (s.stack st).rd F.HBM_RET_ADD_row) : exec (.hbmRetAdd m st) s = .next (s.retBusy st) :=
  congrArg ok ((State.guarded_of_lets _ hlet).trans (if_pos h))

section Schedule
variable {e : State × Nat × Nat} (hready : (s.stack st).rd F.HBM_RET_STATUS_state = 2)
  (he : s.enterAct ((s.stack st).rd F.HBM_RET_SWAP_TN_tn) 4 (1 + 256 * st.val) 3 = e)
include hready he

/-- The swap is entered: the new generation is SCHEDULED. -/
theorem exec_hbmRetSchedule_of_entered (h : e.2.1 = 0) :
    exec (.hbmRetSchedule m st) s = .next (e.1.setStack st ((e.1.stack st).wr F.HBM_RET_STATUS_state 3)) := by
  obtain ⟨b, c, k⟩ := e
  obtain rfl : c = 0 := h
  refine congrArg ok ((State.guarded_of_lets _ hlet).trans ?_)
  simp only [hready, he, ne_eq, not_true_eq_false, if_false]

/-- Its tick is not two ticks away. -/
theorem exec_hbmRetSchedule_of_late (h : e.2.1 = 1) : exec (.hbmRetSchedule m st) s = .next (e.1.logs .HBM_LATE [st.val]) := by
  obtain ⟨b, c, k⟩ := e
  obtain rfl : c = 1 := h
  refine congrArg ok ((State.guarded_of_lets _ hlet).trans ?_)
  simp only [hready, he, ne_eq, not_true_eq_false, if_false]

end Schedule

theorem exec_hbmRetSchedule_of_busy (h : (s.stack st).rd F.HBM_RET_STATUS_state ≠ 2) :
    exec (.hbmRetSchedule m st) s = .next (s.retBusy st) := congrArg ok ((State.guarded_of_lets _ hlet).trans (if_pos h))

theorem exec_hbmRetDiscard_of_generation (h : (s.stack st).rd F.HBM_RET_STATUS_state ≠ 0) : exec (.hbmRetDiscard m st) s = .next
    (((s.cancelActs (isHbmSwap st)).setStack st ({ (s.stack st).wr F.HBM_RET_STATUS_state 0 with build := [] } : Stack).sync).hbmBuild st) :=
  congrArg ok ((State.guarded_of_lets _ hlet).trans (if_neg h))

theorem exec_hbmRetDiscard_of_idle (h : (s.stack st).rd F.HBM_RET_STATUS_state = 0) : exec (.hbmRetDiscard m st) s = .next (s.retBusy st) :=
  congrArg ok ((State.guarded_of_lets _ hlet).trans (if_pos h))

end Operations

/-- The due swap of a SCHEDULED generation puts it in force, saves it, and lets the next one build (14 R313, R316). -/
theorem exec_hbmTableSwap_of_scheduled {s s1 : State} {a : Act} {st : Nat} (hdue : s.takeDue 4 (fun a => a.arg % 256 == 1) = some (a, s1))
    (hst : a.arg / 256 % 256 = st) (h : (s1.stack st).rd F.HBM_RET_STATUS_state = 3) :
    let z := s1.stack st
    let g := z.rd F.HBM_RET_STATUS_generation + 1
    exec .hbmTableSwap s = .next
      (((s1.setStack st ((({ z with active := z.nextTable, build := [], saved := z.nextTable, savedGen := g } : Stack).sync).wrs
        [(F.HBM_RET_STATUS_state, 0), (F.HBM_RET_STATUS_generation, g)])).newTable st z.active z.nextTable).hbmBuild st) := by
  subst hst
  show execHbmTableSwap s = _
  simp only [execHbmTableSwap, hdue, h, ne_eq, not_true_eq_false, if_false, ok]

/-- A new generation keeps each entry of the active one that no new entry replaces (14 R311). -/
theorem Stack.mem_nextTable_of_active {z : Stack} {e : Retire} (he : e ∈ z.active)
    (hkept : ∀ n ∈ z.build, ¬ (n.pc = e.pc ∧ n.bank = e.bank ∧ n.row = e.row)) : e ∈ z.nextTable := by
  refine List.mem_append_left _ (List.mem_filter.2 ⟨he, ?_⟩)
  simpa [and_assoc] using hkept

/-- Settles O41: one lemma for each operation of retirement and each state it finds. -/
theorem rowsAreRetired : Obligations.RowsAreRetired := by
  unfold Obligations.RowsAreRetired
  intro s m st x
  refine ⟨fun bad => exec_hbmRowCopyDone_of_building, fun hlet => ⟨exec_hbmRetAdd_of_array hlet, exec_hbmRetAdd_of_outside hlet, fun hready => ?_,
    exec_hbmRetSchedule_of_busy hlet, exec_hbmRetDiscard_of_generation hlet, exec_hbmRetDiscard_of_idle hlet⟩, fun a s1 hdue hst => ?_⟩
  · intro e
    exact ⟨exec_hbmRetSchedule_of_entered hlet hready rfl, exec_hbmRetSchedule_of_late hlet hready rfl⟩
  · intro z g
    exact ⟨fun h => exec_hbmTableSwap_of_scheduled hdue hst h, fun e he hkept => Stack.mem_nextTable_of_active he hkept⟩

end Sys2Proof.Machine
end

section
/-! Link flits (15 R322 to R325), and O42. -/

namespace Sys2Proof.Machine

@[simp] theorem State.port_record (s : State) (r : Rec) (p : Nat) : (s.record r).port p = s.port p := by
  rw [State.port, State.record_ports]
  rfl

@[simp] theorem State.port_fecRecord (s : State) (p : Nat) (fixed : Bool) (q : Nat) : (s.fecRecord p fixed).port q = s.port q := by
  unfold State.fecRecord State.portRecord
  split
  · exact s.port_record _ q
  · rfl

/-- The port with a flit's codewords counted. -/
def Port.fecCounted (x : Port) (fixed : Nat) (bad : Bool) : Port := (x.bump F.LNK_FEC_corrected fixed).bump F.LNK_FEC_uncorrectable (b2n bad)

/-- The device once a flit has arrived at a port in HELLO or UP: its codewords counted and recorded. -/
def State.flitCounted (s : State) (p fixed : Nat) (bad : Bool) : State :=
  (s.setPort p ((s.port p).fecCounted fixed bad)).fecRecord p (fixed != 0 && !bad)

/-- A flit without an uncorrectable codeword, whole, and with its CRC (15 R322). -/
def FlitGood (flit : List Byte) (bad : Bool) : Prop := bad = false ∧ flit.length = 256 ∧ le flit 252 4 = (crc32 (flit.take 252)).toNat

theorem flitGood_iff (flit : List Byte) (bad : Bool) :
    FlitGood flit bad ↔ (bad || flit.length != 256 || le flit 252 4 != (crc32 (flit.take 252)).toNat) = false := by
  simp [FlitGood, and_assoc]

section Flit
variable {s : State} {p : Fin 32} {flit : List Byte} {fixed : Nat} {bad : Bool}

theorem State.port_flitCounted (s : State) (p fixed : Nat) (bad : Bool) :
    (s.flitCounted p fixed bad).port p = (s.port p).fecCounted fixed bad := by
  simp [State.flitCounted]

section Hello
variable (hst : (s.port p).rd F.LNK_STATUS_state = 2)
include hst

theorem exec_linkFlit_hello_of_good (hgood : FlitGood flit bad) (hkind : le flit 0 2 / 4096 = 1) :
    exec (.linkFlit p flit bad fixed) s = .next ((s.flitCounted p fixed bad).helloFlit p flit) := by
  show execLinkFlit p flit bad s fixed = _
  rw [flitGood_iff] at hgood
  simp only [execLinkFlit, hst, hgood, hkind, BEq.rfl, Bool.true_or, Bool.false_eq_true, if_true, if_false, ok]
  rfl

theorem exec_linkFlit_hello_of_bad (hbad : ¬ FlitGood flit bad) : exec (.linkFlit p flit bad fixed) s = .next
    ((s.flitCounted p fixed bad).setPort p (((s.port p).fecCounted fixed bad).bump F.LNK_ERRS_crc_fail)) := by
  show execLinkFlit p flit bad s fixed = _
  rw [flitGood_iff, Bool.not_eq_false] at hbad
  simp only [execLinkFlit, hst, hbad, BEq.rfl, Bool.true_or, if_true, ok, ← State.port_flitCounted]
  rfl

end Hello

section Up
variable (hst : (s.port p).rd F.LNK_STATUS_state = 3)
include hst

/-- A bad flit at an UP port: counted and recorded, and a failure of the expected one unless that has failed already. -/
theorem exec_linkFlit_up_of_bad (hbad : ¬ FlitGood flit bad) :
    let x := (s.port p).fecCounted fixed bad
    let s2 := ((s.flitCounted p fixed bad).setPort p (x.bump F.LNK_ERRS_crc_fail)).portRecord 1 9 8 p
    exec (.linkFlit p flit bad fixed) s = .next (if x.failSeq = none ∨ le flit 0 2 % 4096 = x.expect then s2.flitFail p else s2) := by
  show execLinkFlit p flit bad s fixed = _
  rw [flitGood_iff, Bool.not_eq_false] at hbad
  simp only [execLinkFlit, hst, hbad, BEq.rfl, Bool.or_true, Nat.reduceEqDiff, ne_eq, not_true_eq_false, if_true, if_false, ok,
    ← State.port_flitCounted]
  rfl

/-- What a good flit of a kind does once its acknowledgement and credits are taken. -/
def State.flitTaken (s : State) (p : Nat) (x : Port) (flit : List Byte) : State :=
  let seq := le flit 0 2 % 4096
  let kind := le flit 0 2 / 4096
  if kind = 1 then
    (if seq = x.expect then s.dataFlit p flit
     else if x.failSeq ≠ none ∨ 2048 ≤ (seq + 4096 - x.expect) % 4096 then s.sendCtl p 0 x.ack 0 0
     else s.flitFail p)
  else if kind = 2 then (s.setPort p ((s.port p).bump F.LNK_ERRS_retries)).resend p (le flit 2 2 % 4096)
  else if kind = 3 then s.portRetrain p
  else s

/-- What a good flit acknowledges: a NAK the flits before the number it names. -/
def flitAcks (flit : List Byte) : Nat := if le flit 0 2 / 4096 = 2 then (le flit 2 2 % 4096 + 4095) % 4096 else le flit 2 2 % 4096

theorem exec_linkFlit_up_of_good (hgood : FlitGood flit bad) :
    let x := (s.port p).fecCounted fixed bad
    exec (.linkFlit p flit bad fixed) s = .next
      ((((s.flitCounted p fixed bad).setPort p ((x.acked (flitAcks flit)).credit (le flit 4 1 % 8) (le flit 5 1))).flitTaken p x flit).egressDrain
        p) := by
  show execLinkFlit p flit bad s fixed = _
  rw [flitGood_iff] at hgood
  simp only [execLinkFlit, hst, hgood, BEq.rfl, Bool.or_true, Nat.reduceEqDiff, Bool.false_eq_true, ne_eq, not_true_eq_false, if_true, if_false,
    ok, ← State.port_flitCounted]
  rfl

end Up
end Flit

/-- Settles O42: at an UP port by the kind of a good flit, in HELLO by whether it is good. -/
theorem flitsAreTakenInOrder : Obligations.FlitsAreTakenInOrder := by
  unfold Obligations.FlitsAreTakenInOrder
  intro s p flit fixed bad st x s0 good seq kind ack s1
  refine ⟨fun hst => ⟨exec_linkFlit_hello_of_good hst, exec_linkFlit_hello_of_bad hst⟩, fun hst hgood => ?_, fun hst hbad =>
    exec_linkFlit_up_of_bad hst hbad⟩
  have takes : ∀ {a u}, flitAcks flit = a → (s1 a).flitTaken p x flit = u → exec (.linkFlit p flit bad fixed) s = .next (u.egressDrain p) := by
    rintro _ _ rfl rfl
    exact exec_linkFlit_up_of_good hst hgood
  refine ⟨fun hk hseq => ?_, fun hk hseq hold => ?_, fun hk hseq hnone hahead => ?_, fun hk => ?_, fun hk => ?_, fun hk => ?_⟩
  · exact takes (if_neg (by omega)) ((if_pos hk).trans (if_pos hseq))
  · exact takes (if_neg (by omega)) ((if_pos hk).trans ((if_neg hseq).trans (if_pos hold)))
  · exact takes (if_neg (by omega)) ((if_pos hk).trans ((if_neg hseq).trans (if_neg (not_or.2 ⟨not_not.2 hnone, Nat.not_le.2 hahead⟩))))
  · exact takes (if_neg (by omega)) ((if_neg (by omega)).trans ((if_neg (by omega)).trans (if_neg (by omega))))
  · exact takes (if_pos hk) ((if_neg (by omega)).trans (if_pos hk))
  · exact takes (if_neg (by omega)) ((if_neg (by omega)).trans ((if_neg (by omega)).trans (if_pos hk)))

end Sys2Proof.Machine
end

section
/-! The states of a link port (15 R321, R324, R330, R334), and O43. -/

namespace Sys2Proof.Machine

section Port
variable {s : State} {p : Fin 32}

section Trained
variable (hst : (s.port p).rd F.LNK_STATUS_state = 1)
include hst

/-- A port whose good lanes fill no half goes DOWN instead of training (15 R321). -/
theorem exec_linkTrained_of_lost (hlost : (s.port p).widthLost = true) : exec (.linkTrained p) s = .next (s.portDown p) := by
  show execLinkTrained p s = _
  simp only [execLinkTrained, hst, hlost, if_true, ok]

theorem exec_linkTrained_of_good (hgood : (s.port p).widthLost = false) : exec (.linkTrained p) s = .next
    (((s.setPort p ((s.port p).wrs [(F.LNK_STATUS_state, 2), (F.LNK_STATUS_spare_for, (s.port p).spareTo)])).applyWidth p).sends
      (.flit p (mkFlit 0 1 0 0 0 0 (ctrlPacket s.devId 1 (leBytes 8 s.groupDigest) [])))) := by
  show execLinkTrained p s = _
  simp only [execLinkTrained, hst, hgood, Bool.false_eq_true, if_true, if_false, ok]

theorem exec_linkTrainTimeout_of_training : exec (.linkTrainTimeout p) s = .next
    ((s.setPort p ((s.port p).wrs [(F.LNK_STATUS_state, 0), (F.LNK_EVENT_train_fail, 1)])).raised .LNK_TRAIN_FAIL [p.val]) := if_pos hst

end Trained

section Retrained
variable (hst : (s.port p).rd F.LNK_STATUS_state = 4)
include hst

theorem exec_linkRetrained_of_lost (hlost : (s.port p).widthLost = true) : exec (.linkTrained p) s = .next (s.portDown p) := by
  show execLinkTrained p s = _
  simp only [execLinkTrained, hst, hlost, Nat.reduceEqDiff, if_true, if_false, ok]

/-- A retrained port is UP and sends its store again. -/
theorem exec_linkRetrained_of_good (hgood : (s.port p).widthLost = false) :
    let s1 := (s.setPort p { (s.port p).wrs [(F.LNK_STATUS_state, 3), (F.LNK_STATUS_spare_for, (s.port p).spareTo)] with fails := 0 }).applyWidth p
    exec (.linkTrained p) s = .next ((s1.sendAll (((s1.port p).store).map (fun e => .flit p e.2))).egressDrain p) := by
  show execLinkTrained p s = _
  simp only [execLinkTrained, hst, hgood, Nat.reduceEqDiff, Bool.false_eq_true, if_true, if_false, ok]

theorem exec_linkRetrainTimeout_of_retraining : exec (.linkRetrainTimeout p) s = .next (s.portDown p) := if_pos hst

end Retrained

/-- The head packet of a channel that has waited its 1 ms is dropped (15 R330). -/
theorem exec_egressStallDrop_of_waiting {vc : BitVec 3} {e : Nat × List Byte}
    (he : (s.port p).egress.find? (fun e => pktVc e.2 == vc.toNat) = some e) (hgo : s.stopped = false) :
    exec (.egressStallDrop p vc) s = .next
      (((((s.setPort p { (s.port p).wr F.LNK_EVENT_stall 1 with egress := (s.port p).egress.erase e }).hubEvent).portRecord 2 12 6 p).dropPkt p 4
        e.2).freed p e.2) := by
  show execEgressStallDrop p vc s = _
  simp only [execEgressStallDrop, he, hgo, Bool.false_eq_true, if_false, ok]

end Port

/-- A lane that fails in an E port past training: marked, raised, and the port retrains or goes DOWN (15 R321). -/
theorem State.markLane_of_new {s : State} {p l : Nat} (hp : p < 16) (hnew : (s.port p).laneBad l = false)
    (hst : 2 ≤ (s.port p).rd F.LNK_STATUS_state) :
    let y := (s.port p).wrs [(F.LNK_STATUS_bad_lanes, (s.port p).rd F.LNK_STATUS_bad_lanes + 2 ^ l), (F.LNK_EVENT_lane_bad, 1)]
    let z := { y with nextHalf := decide (2 ≤ y.badLanes.length), marked := (s.port p).marked ++ [l] }
    let s1 := (s.setPort p z).raised .LNK_LANE_BAD [p, l]
    s.markLane p l = if z.widthLost then s1.portDown p else s1.portRetrain p :=
  if_neg (by simp only [hnew, Bool.false_eq_true, false_or]; omega)

theorem State.portRetrain_eq (s : State) (p : Nat) : s.portRetrain p = if (s.port p).rd F.LNK_STATUS_state = 3
    then (s.setPort p { ((s.port p).wr F.LNK_STATUS_state 4).bump F.LNK_STATUS_retrains with trainAt := s.time }).logs .LNK_RETRAIN [p]
    else s := by
  simp only [State.portRetrain, State.portUp, beq_iff_eq]

/-- Training starts at a DOWN port, but for the O ports of an isolated engine (01 R21). -/
theorem State.portTrain_eq (s : State) (p : Nat) :
    s.portTrain p = if (s.port p).rd F.LNK_STATUS_state ≠ 0 ∨ (16 ≤ p ∧ (s.oe (decide (24 ≤ p))).isolated = true) then s
      else s.setPort p { (s.port p).wrs [(F.LNK_STATUS_state, 1), (F.LNK_STATUS_retrains, 0)] with trainAt := s.time } := by
  unfold State.portTrain
  by_cases hiso : 16 ≤ p ∧ (s.oe (decide (24 ≤ p))).isolated = true
  · simp [hiso]
  · by_cases hst : (s.port p).rd F.LNK_STATUS_state = 0 <;> simp [hiso, hst]

/-- Settles O43: one lemma for each event of a port; what brings it DOWN and drops its store is its definition. -/
theorem portsChangeState : Obligations.PortsChangeState := by
  unfold Obligations.PortsChangeState
  intro s m p x
  refine ⟨fun hst => ⟨exec_linkTrained_of_lost hst, exec_linkTrained_of_good hst, exec_linkTrainTimeout_of_training hst⟩,
    fun hst => ⟨exec_linkRetrained_of_good hst, exec_linkRetrained_of_lost hst, exec_linkRetrainTimeout_of_retraining hst⟩,
    fun lane => ⟨rfl, rfl, rfl⟩, fun lane h => if_pos h, fun hp => congrArg ok (if_pos hp),
    fun h => ⟨congrArg ok (State.guarded_of_lets _ h), congrArg ok (State.guarded_of_lets _ h), congrArg ok (State.guarded_of_lets _ h)⟩,
    fun vc e => exec_egressStallDrop_of_waiting, fun lane => State.markLane_of_new, s.portRetrain_eq p, s.portTrain_eq p, rfl, rfl⟩

end Sys2Proof.Machine
end

section
/-! Snapshots (16 R348 to R357): the cut, the copy, the commit, and O45. -/

namespace Sys2Proof.Machine

theorem exec_snapshotCut_of_due {s s1 : State} {a : Act} (hdue : s.takeDue 2 = some (a, s1)) :
    exec .snapshotCut s = .next ((s1.cut (a.arg % 2 ^ 32)).cutEnds a.slot true) := by
  show execSnapshotCut s = _
  simp only [execSnapshotCut, hdue, ok]

theorem State.on_of_rd_zero {s : State} {f : Fld} (h : s.rd f = 0) : s.on f = false := by simp [State.on, h]

/-- Once every tensor is read the manifest is sent and the reads are released (16 R351 to R353): `s1` is `s` once the mover has
read, `ds` are the tensors' digests. -/
def State.released (s s1 : State) (ds : List Nat) : State :=
  (s1.copyAll ((s1.manifest ds).length / 256 + 1) (devAddr (planHolder s.snap.plan) (0x1000 + s.slotAt (s.rd F.HUB_SNAP_STATUS_slot)))
    (s1.manifest ds)).wr F.HUB_SNAP_STATUS_released 1

section Release
variable {s s1 : State} {errs : List (List BurstErr)} {confirmed : Bool} (hst : s.snapState = 2) (hreads : s.rd F.HUB_SNAP_STATUS_released = 0)
include hst hreads

/-- A tensor that cannot be read drops the snapshot (16 R353). -/
theorem exec_snapRelease_of_unread (hmove : s.moveAll errs s.snap.tensors 0x400000 [] = (s1, none)) :
    exec (.snapRelease errs confirmed) s = .next ((s1.logs .SNAP_COPY_FAIL [s.snapN]).snapDrop 6) := by
  show execSnapRelease s errs confirmed = _
  simp only [execSnapRelease, hst, State.on_of_rd_zero hreads, hmove, Bool.false_eq_true, ne_eq, not_true_eq_false, or_self, if_false, ok]

section Read
variable {ds : List Nat} (hmove : s.moveAll errs s.snap.tensors 0x400000 [] = (s1, some ds))
include hmove

/-- With every tensor read, the release fence decides (16 R352). -/
theorem exec_snapRelease_of_read : exec (.snapRelease errs confirmed) s = .next
    (let f := planFence s.snap.plan
     let w := (s.released s1 ds).hubWrite (f % 2) (f / 8 * 8) (leBytes 8 s.snapN)
     if f = 0 then (s.released s1 ds).raised .SNAP_RELEASED [s.snapN]
     else if w.2 = 0 ∨ w.2 = 1 ∧ confirmed = true then w.1.raised .SNAP_RELEASED [s.snapN] else w.1.confirmed (w.2 != 1)) := by
  show execSnapRelease s errs confirmed = _
  simp only [execSnapRelease, hst, State.on_of_rd_zero hreads, hmove, Bool.false_eq_true, ne_eq, not_true_eq_false, or_self, if_false, ok,
    State.released]
  exact (apply_ite _ _ _ _).symm

end Read
end Release

section Poll
variable {s s1 : State} {w : List Byte} (hst : s.snapState = 3) (hmember : s.member = true)
  (hread : s.hubRead 0 (devAddr s.devId (0x20000 + s.buddyBase)) 8 none [] = (s1, some w))
include hst hmember hread

/-- In HELD a MEMBER follows its commit word, once it is that of its snapshot (16 R356). -/
theorem exec_snapCommitPoll_of_read : exec .snapCommitPoll s = .next
    (if le w 0 4 ≠ s.snapN then s1 else if le w 4 1 = 1 then s1.snapCommit else if le w 4 1 = 2 then (s1.snapSet 0).snapFail 7 else s1) := by
  show execSnapCommitPoll s = _
  simp only [execSnapCommitPoll, hst, hmember, hread, Bool.true_eq_false, ne_eq, not_true_eq_false, or_self, if_false, ok]
  split_ifs <;> rfl

end Poll

/-- Settles O45: the release by what the mover reads and by its fence, the poll by the commit word. -/
theorem snapshotsAreCutCopiedAndDecided : Obligations.SnapshotsAreCutCopiedAndDecided := by
  unfold Obligations.SnapshotsAreCutCopiedAndDecided
  refine fun s => ⟨fun a s1 => exec_snapshotCut_of_due, fun hst hreads errs confirmed => ?_, fun hst hlate => if_pos ⟨hst, hlate⟩,
    fun n a hcoord => ?_, fun hst hmember => ?_, fun m h => ⟨congrArg ok (State.guarded_of_lets _ h), congrArg ok (State.guarded_of_lets _ h)⟩⟩
  · intro r
    refine ⟨fun hnone => exec_snapRelease_of_unread hst hreads (Prod.ext rfl hnone), fun ds hsome => ?_⟩
    intro m s2 s3 f w
    have run := exec_snapRelease_of_read (confirmed := confirmed) hst hreads (show s.moveAll errs s.snap.tensors 0x400000 [] = (r.1, some ds) from
      Prod.ext rfl hsome)
    exact ⟨fun h0 => run.trans (congrArg ok (if_pos h0)), fun h0 hw => run.trans (congrArg ok ((if_neg h0).trans (if_pos hw))),
      fun h0 hw => run.trans (congrArg ok ((if_neg h0).trans (if_neg hw)))⟩
  · show execSnapCommitTimeout s = _
    simp only [execSnapCommitTimeout, hcoord, ok]
  · intro r
    have run : ∀ w, r.2 = some w → _ := fun w hw => exec_snapCommitPoll_of_read hst hmember
      (show s.hubRead 0 (devAddr s.devId (0x20000 + s.buddyBase)) 8 none [] = (r.1, some w) from Prod.ext rfl hw)
    exact ⟨fun w hw hn => ⟨fun h1 => (run w hw).trans (congrArg ok ((if_neg (not_not.2 hn)).trans (if_pos h1))),
      fun h2 => (run w hw).trans (congrArg ok ((if_neg (not_not.2 hn)).trans ((if_neg (by omega)).trans (if_pos h2))))⟩,
      fun w hw hn => (run w hw).trans (congrArg ok (if_pos hn))⟩

end Sys2Proof.Machine
end

section
/-! The shelf engine's commands, RESTORE, REPLAY_CHECK and WITNESS (16 R359 to R365; 22 R455 to R459), and O46. -/

namespace Sys2Proof.Machine

/-- A command that ends badly with a copy in progress stops the copy (22 R459). -/
theorem State.shelfFailed_of_job {s : State} {j : ShelfJob} (hjob : s.snap.job = some j) :
    s.shelfFailed = ((s.shelfStop.bump F.SHELF_ERRS_resets).nvmeEnable.nvmeQueues).shelfFree := by
  simp only [State.shelfFailed, hjob, Option.isSome_some, if_true, State.nvmeReset]

section ShelfCommands
variable {s : State} {j : ShelfJob} {a : Nat} (hjob : s.snap.job = some j) (hcmd : s.shelf.cmdAt = some a)
include hjob hcmd

/-- The completion of the outstanding command frees its queue entry, and brings the copy's next one. -/
theorem exec_shelfIoComplete_good : exec (.shelfIoComplete true) s = .next
    (((({ s with shelf := { s.shelf with cmdAt := none } } : State).nvmeReg 0x100C 4 s.shelf.ioTail).shelfStep j).shelfFree) := by
  show execShelfIoComplete true s = _
  simp only [execShelfIoComplete, hjob, hcmd, Option.isNone_some, Bool.false_eq_true, if_false, if_true, ok]

theorem exec_shelfIoComplete_bad :
    let s1 := ({ s with shelf := { s.shelf with cmdAt := none } } : State).nvmeReg 0x100C 4 s.shelf.ioTail
    exec (.shelfIoComplete false) s = .next ((s1.shelfStop.bump F.SHELF_ERRS_resets).nvmeEnable.nvmeQueues).shelfFree := by
  intro s1
  show execShelfIoComplete false s = _
  rw [← State.shelfFailed_of_job (s := s1) hjob]
  simp only [execShelfIoComplete, hjob, hcmd, Option.isNone_some, Bool.false_eq_true, if_false, ok]
  rfl

theorem exec_shelfCmdTimeout_of_copy (hst : s.snapState ≠ 4) :
    exec .shelfCmdTimeout s = .next ((s.shelfStop.bump F.SHELF_ERRS_resets).nvmeEnable.nvmeQueues).shelfFree := by
  show execShelfCmdTimeout s = _
  rw [← State.shelfFailed_of_job hjob]
  simp only [execShelfCmdTimeout, hst, hjob, hcmd, false_and, if_false, Option.isSome_some, Bool.and_self, if_true, ok]

end ShelfCommands

/-- A Read of a restore that is late ends the restore (16 R362). -/
theorem exec_shelfCmdTimeout_of_restore {s : State} {a : Nat} (hst : s.snapState = 4) (hread : s.shelf.readAt = some a) :
    exec .shelfCmdTimeout s = .next (((((s.snapSet 0).readsAt none).shelfFailed).loseTensors s.snap.manifest).snapFail 0x10) :=
  if_pos ⟨hst, by rw [hread]; rfl⟩

/-! RESTORE (16 R362). -/

/-- The source of a restore read for its checks: a shelf's header and manifest, and what a source that cannot be read leaves. -/
def State.restoreFetched (s : State) (src : SourceIn) : State :=
  ((if s.rd F.HUB_SNAP_SRC_kind = 1 ∧ s.rd F.SHELF_STATUS_state = 2 then s.shelfFetch s.srcBase 0 none (src.shelfHeader.take 4096) 2 else s).srcFetch
    0x1000 none src.manifest).srcFailed src

section Restore
variable {s : State} {m : Master} {src : SourceIn} (hlet : s.lets m snapCtrl = true)
include hlet

theorem exec_restore_of_busy (hbusy : s.snapState ≠ 0 ∨ s.noBayHeld = false) : exec (.restore m src) s = .next (s.snapFail 1) :=
  congrArg ok ((State.guarded_of_lets _ hlet).trans (if_pos hbusy))

section Accepted
variable (hst : s.snapState = 0) (hfree : s.noBayHeld = true)
include hst hfree

theorem exec_restore_of_failed {c : Nat} (hc : s.restoreCheck src = some c) :
    exec (.restore m src) s = .next ((s.restoreFetched src).snapFail c) := by
  refine congrArg ok ((State.guarded_of_lets _ hlet).trans ((if_neg (by simp [hst, hfree])).trans ?_))
  simp only [hc]
  rfl

theorem exec_restore_of_passed (hc : s.restoreCheck src = none) : exec (.restore m src) s = .next
    (({ (s.restoreFetched src).snapSet 4 with snap := { (s.restoreFetched src).snap with manifest := src.manifest } } : State).readsAt
      (if s.rd F.HUB_SNAP_SRC_kind = 1 then some s.time else none)) := by
  refine congrArg ok ((State.guarded_of_lets _ hlet).trans ((if_neg (by simp [hst, hfree])).trans ?_))
  simp only [hc]
  rfl

end Accepted
end Restore

section RestoreEnds
variable {s : State} {src : SourceIn} (hst : s.snapState = 4)
include hst

/-- The state once the restore has left its state 4 and its Reads. -/
def State.restoreOver (s : State) : State := (s.snapSet 0).readsAt none

theorem exec_restoreComplete_of_unreachable (h : src.reachable = false) : exec (.restoreComplete src) s = .next
    (((s.restoreOver.srcFailed src).loseTensors s.snap.manifest).snapFail 0x10) := by
  show execRestoreComplete src s = _
  simp only [execRestoreComplete, hst, h, ne_eq, not_true_eq_false, if_false, Bool.not_false, if_true, ok]
  rfl

variable (h : src.reachable = true)
include h

/-- Check 6 fails: the tensors stay undefined. -/
theorem exec_restoreComplete_of_differing {s1 : State} {id : Nat}
    (hcheck : s.restoreOver.restoreTensors s.snap.manifest src.tensors = (s1, some id)) : exec (.restoreComplete src) s = .next
    (((s1.loseTensors s.snap.manifest).wr F.HUB_SNAP_RESULT_bad_tensor id).snapFail 0x15) := by
  unfold State.restoreOver at hcheck
  show execRestoreComplete src s = _
  simp only [execRestoreComplete, hst, h, hcheck, ne_eq, not_true_eq_false, if_false, Bool.not_true, Bool.false_eq_true, ok]

theorem exec_restoreComplete_of_equal {s1 : State}
    (hcheck : s.restoreOver.restoreTensors s.snap.manifest src.tensors = (s1, none)) :
    let n := le s.snap.manifest 8 4
    exec (.restoreComplete src) s = .next
      ((((s1.restoreRest s.snap.manifest).setLast n
        (if s.rd F.HUB_SNAP_SRC_kind = 0 then s.rd F.HUB_SNAP_SRC_slot else s.rd F.HUB_SNAP_LAST_slot) (b2n (witnessOk src.witness n))
        (le s.snap.manifest 16 8)).wrs [(F.HUB_SNAP_RESULT_restored, 1), (F.HUB_SNAP_RESULT_replay, 0)]).raised .RESTORE_DONE [n]) := by
  unfold State.restoreOver at hcheck
  show execRestoreComplete src s = _
  simp only [execRestoreComplete, hst, h, hcheck, ne_eq, not_true_eq_false, if_false, Bool.not_true, Bool.false_eq_true, ok]

end RestoreEnds

/-! REPLAY_CHECK and WITNESS (16 R361, R365). -/

/-- The witness record read for REPLAY_CHECK is that of the next step of the restored snapshot. -/
def replayFits (src : SourceIn) (mf : List Byte) : Bool :=
  src.reachable && witnessOk src.witness (le mf 8 4) && le src.witness 8 8 == le mf 16 8 + 1 && le src.witness 4 1 == le mf 76 1

section Replay
variable {s : State} {m : Master} {src : SourceIn} (hlet : s.lets m snapCtrl = true)
include hlet

theorem exec_replayCheck_of_outside (h : s.rd F.HUB_SNAP_RESULT_restored = 0) : exec (.replayCheck m src) s = .next (s.snapFail 1) :=
  congrArg ok ((State.guarded_of_lets _ hlet).trans (if_pos h))

section Window
variable (h : s.rd F.HUB_SNAP_RESULT_restored = 1)
include h

theorem exec_replayCheck_of_unfit (hfit : replayFits src s.snap.manifest = false) :
    exec (.replayCheck m src) s = .next (((s.srcFetch 0 none src.witness).srcFailed src).wr F.HUB_SNAP_RESULT_replay 3) := by
  refine congrArg ok ((State.guarded_of_lets _ hlet).trans ((if_neg (by omega)).trans (if_pos ?_)))
  rw [Bool.not_eq_true']
  exact hfit

theorem exec_replayCheck_of_fit (hfit : replayFits src s.snap.manifest = true) :
    let len := le s.snap.manifest 76 1
    let r := ((s.srcFetch 0 none src.witness).srcFailed src).readOrFree (le s.snap.manifest 80 8) len
    exec (.replayCheck m src) s = .next (r.1.wr F.HUB_SNAP_RESULT_replay (if r.2 = sub src.witness 16 len then 1 else 2)) := by
  refine congrArg ok ((State.guarded_of_lets _ hlet).trans ((if_neg (by omega)).trans (if_neg ?_)))
  rw [Bool.not_eq_true', Bool.not_eq_false]
  exact hfit

end Window

/-- A witness record is due: the last committed snapshot is this one, its loss has a place, and none has been written. -/
def State.witnessDue (s : State) : Bool :=
  s.on F.HUB_SNAP_LAST_valid && s.rd F.HUB_SNAP_LAST_snapshot == s.snapN && planLossLen s.snap.plan != 0 && s.rd F.HUB_SNAP_LAST_witness == 0

theorem exec_witness_of_not_due (h : s.witnessDue = false) : exec (.witness m) s = .next (s.snapFail 1) := by
  refine congrArg ok ((State.guarded_of_lets _ hlet).trans (if_pos ?_))
  rw [Bool.not_eq_true']
  exact h

theorem exec_witness_of_due (h : s.witnessDue = true) :
    let len := planLossLen s.snap.plan
    let r := s.readOrFree (planLossAddr s.snap.plan) len
    let body := leBytes 4 s.snapN ++ leBytes 1 len ++ leBytes 3 0 ++ leBytes 8 (s.rd F.HUB_SNAP_LAST_STEP_step + 1) ++ r.2 ++ List.replicate (64 - len) 0
    exec (.witness m) s = .next
      ((r.1.cpcPut (devAddr (planHolder s.snap.plan) (s.slotAt (s.rd F.HUB_SNAP_LAST_slot))) (body ++ sha384 body)).wr
        F.HUB_SNAP_LAST_witness 1).saveSnap := by
  refine congrArg ok ((State.guarded_of_lets _ hlet).trans (if_neg ?_))
  rw [Bool.not_eq_true', Bool.not_eq_false]
  exact h

end Replay

/-- Settles O46: one lemma for each end of a shelf command, of a restore and of its checks, of REPLAY_CHECK and of WITNESS. -/
theorem shelfCopiesRestoreAndReplay : Obligations.ShelfCopiesRestoreAndReplay := by
  unfold Obligations.ShelfCopiesRestoreAndReplay
  refine fun s m => ⟨fun j a hjob hcmd => ?_, fun a => exec_shelfCmdTimeout_of_restore, fun hlet src => ?_, fun o put d => rfl, fun src hst => ?_,
    fun hlet => ?_⟩
  · intro s1
    exact ⟨exec_shelfIoComplete_good hjob hcmd, exec_shelfIoComplete_bad hjob hcmd, exec_shelfCmdTimeout_of_copy hjob hcmd⟩
  · intro onShelf fetched
    exact ⟨exec_restore_of_busy hlet, fun hst hfree => ⟨fun c => exec_restore_of_failed hlet hst hfree, exec_restore_of_passed hlet hst hfree⟩,
      exec_replayCheck_of_outside hlet, fun h => ⟨exec_replayCheck_of_unfit hlet h, exec_replayCheck_of_fit hlet h⟩⟩
  · intro mf n s0 r
    exact ⟨exec_restoreComplete_of_unreachable hst, fun h => ⟨fun id hid => exec_restoreComplete_of_differing hst h (Prod.ext rfl hid),
      fun hnone => exec_restoreComplete_of_equal hst h (Prod.ext rfl hnone)⟩⟩
  · intro len due r body
    exact ⟨exec_witness_of_not_due hlet, exec_witness_of_due hlet⟩

end Sys2Proof.Machine
end

section
/-! The safety monitor (17 R367 to R384): watchdogs, tests and repairs, the order of its records, and O49. -/

namespace Sys2Proof.Machine

theorem exec_engineWatchdog_of_busy {s : State} {t : Fin 1200} {e : Engine} {b : Nat} (hbay : s.bayOf t = some b)
    (hlive : (s.tile t).endCycle.live = true) (hgo : s.stopped = false) (hbusy : (s.tile t).endCycle.engineBusy e = true)
    (hrun : e = .s ∨ s.rd (F.PWR_DIE_halted (t / 150)) = 0) : exec (.engineWatchdog t e) s = .next
      (((s.suspect (s.site t)).record { s.recOfTile 2 14 0x42 t with detail := [BitVec.ofNat 8 (engNo e)] }).safetyStop b t) := by
  have hrun' : (e == .s || s.rd (F.PWR_DIE_halted (t / 150)) == 0) = true := by simpa using hrun
  show execEngineWatchdog t e s = _
  simp only [execEngineWatchdog, hbay, hlive, hgo, hbusy, hrun', Bool.not_false, Bool.and_self, if_true, ok]

theorem exec_selftestSlot_of_due {s s1 : State} {a : Act} (hdue : s.takeDue 6 = some (a, s1)) :
    let s2 := s1.forEach (List.range 8) State.withdraw
    exec .selftestSlot s = .next (s2.testBays ((s2.image.bays.map (·.id)).filter (bitOf a.arg))) := by
  show execSelftestSlot s = _
  simp only [execSelftestSlot, hdue, ok]

/-- The end of a tile's test counts the words that it corrected, but of a test in progress only (17 R367, R370). -/
theorem exec_selftestDone_tile (s : State) (t : Fin 1200) (pass : Bool) (words : List Nat) (bad : Option Nat) :
    exec (.selftestDone (.tile t) pass words bad) s = .next (if s.testingTile t = true
      then ((words.foldl (fun a o => a.spadCorrected t o) s).spadLatent t bad).tileTested t pass else s.tileTested t pass) :=
  congrArg ok (apply_ite (fun u : State => u.tileTested t pass) ..)

theorem exec_safetyDegraded_of_old {s : State} {b : Fin 64} (hbay : s.image.bay? b ≠ none) (hnew : s.rd (F.SAFE_ST_AGE_degraded b) = 0)
    (hon : s.pwrMb = false) (hage : 500 * msCycles < s.bayAge b) : exec (.safetyDegraded b) s = .next
      (((s.wrs [(F.SAFE_ST_AGE_degraded b, 1), (F.SAFE_STATUS_degraded, 1)]).raised .SAFETY_DEGRADED [b.val]).record
        { sev := 1, cls := 16, kind := 1, bay := b }) := by
  refine if_neg ?_
  simpa [hnew, hon] using ⟨hbay, hage⟩

theorem exec_pretestDone_of_running {s : State} {k : Nat} (pass : Bool) (us : Word) (h : s.safe.pretest = some (k, 1)) :
    let s1 : State := { s with safe := { s.safe with pretest := none }, pwr := { s.pwr with sites := s.pwr.sites.filter (· != k) } }
    let s2 := s1.wrs [(F.SAFE_REPAIR_STATUS_state, if pass then 2 else 3), (F.SAFE_REPAIR_STATUS_elapsed_us, us.toNat)]
    exec (.pretestDone pass us) s = .next (if s2.siteState k = 2 then s2 else s2.setSite k (if pass then 0 else 2)) := by
  show execPretestDone pass us s = _
  simp only [execPretestDone, h, ok]

/-! PRETEST (17 R378). -/
section Pretest
variable {s : State} {m : Master} {die : BitVec 3} {row col : BitVec 4} (hlet : s.lets m safeRepair = true)
include hlet

theorem exec_pretest_of_running (h : (s.repairSite die row col).safe.pretest.isSome = true) :
    exec (.pretest m die row col) s = .next (s.repairSite die row col) :=
  congrArg ok ((State.guarded_of_lets _ hlet).trans (if_pos h))

section Free
variable (hfree : (s.repairSite die row col).safe.pretest = none)
include hfree

theorem exec_pretest_of_refused (h : 10 ≤ row.toNat ∨ ((s.repairSite die row col).image?.bind (·.tileAt (siteNo die row col))).isSome = true ∨
    (s.repairSite die row col).pwrOn = false) :
    exec (.pretest m die row col) s = .next ((s.repairSite die row col).wr F.SAFE_REPAIR_STATUS_state 3) :=
  congrArg ok ((State.guarded_of_lets _ hlet).trans ((if_neg (by simp [hfree])).trans (if_pos h)))

theorem exec_pretest_of_unmapped (hrow : row.toNat < 10)
    (hsite : ((s.repairSite die row col).image?.bind (·.tileAt (siteNo die row col))).isSome = false) (hon : (s.repairSite die row col).pwrOn = true) :
    let b := s.repairSite die row col
    let k := siteNo die row col
    exec (.pretest m die row col) s = .next (({ b with safe := { b.safe with pretest := some (k, 0) }, pwr := { b.pwr with
      siteQ := kput b.pwr.siteQ die.toNat (kget b.pwr.siteQ die.toNat [] ++ [k]) } } : State).wr F.SAFE_REPAIR_STATUS_state 1) :=
  congrArg ok ((State.guarded_of_lets _ hlet).trans ((if_neg (by simp [hfree])).trans (if_neg (by simp [hsite, hon]; omega))))

end Free

end Pretest

/-! Records (17 R383). -/

theorem State.record_of_merges {s : State} {r : Rec} (h : (s.countRec r.sev).recMerges r = true) :
    s.record r = (s.countRec r.sev).mergeRec := if_pos h

/-- The ring after a record that takes an entry of its own. -/
def State.recorded (s : State) (r : Rec) : State :=
  ((s.countRec r.sev).placeRec r).logs .ERROR_RECORD [r.sev, r.cls, r.kind]

/-- A state whose safety interrupt is sent, where SAFE_CTRL enables it. -/
def State.safetyMsix (s : State) : State := if s.on F.SAFE_CTRL_irq_en then s.msix (s.rd F.SAFE_CTRL_vector) else s

section Unmerged
variable {s : State} {r : Rec} (h : (s.countRec r.sev).recMerges r = false)
include h

theorem State.record_of_corrected (hsev : r.sev = 1) : s.record r = s.recorded r :=
  (if_neg (by simp [h])).trans (if_pos hsev)
theorem State.record_of_contained (hsev : r.sev = 2) : s.record r = (s.recorded r).safetyMsix.ibi 1 :=
  (if_neg (by simp [h])).trans ((if_neg (by omega)).trans (congrArg (State.ibi · 1) (if_neg (by omega))))
theorem State.record_of_uncontained (hsev : r.sev = 3) :
    s.record r = ((s.recorded r).safetyMsix.wr F.SAFE_STATUS_uncontained 1).ibi 1 :=
  (if_neg (by simp [h])).trans ((if_neg (by omega)).trans (congrArg (State.ibi · 1) (if_pos hsev)))

end Unmerged

/-- With room in the ring the record takes the next entry. -/
theorem State.placeRec_of_room {s : State} {r : Rec} (h : s.recUnread < 512) :
    let n := s.safe.recs
    let b := recBytes n s.tn s.sinceEdge 1 r
    let w := s.rd F.SAFE_REC_PTR_write
    let s1 : State := { s with safe := { s.safe with recs := n + 1 } }
    let s2 := ((s1.orderRec b (min s.recUnread n) w n).wr F.SAFE_REC_PTR_write ((w + 1) % 512)).newestRec w
    s.placeRec r = { s2 with safe := { s2.safe with full := if s.recUnread = 511 then 1 else 0 } } := if_pos h

section FullRing
variable {s : State} {r : Rec} (hfull : 512 ≤ s.recUnread)
include hfull

theorem State.placeRec_of_corrected (hsev : r.sev = 1) : s.placeRec r = s.bump F.SAFE_REC_PTR_lost :=
  (if_neg (by omega)).trans (if_pos hsev)

section Overwrite
variable (hsev : r.sev ≠ 1)
include hsev

/-- In a full ring the oldest unread CORRECTED record is overwritten. -/
theorem State.placeRec_over_corrected {k : Nat} (hk : s.oldestCorrected = some k) :
    let n := s.safe.recs
    let s1 : State := { s with safe := { s.safe with recs := n + 1 } }
    s.placeRec r = ((s1.orderRec (recBytes n s.tn s.sinceEdge 1 r) (min 512 n) k n).bump F.SAFE_REC_PTR_lost).newestRec k := by
  refine (if_neg (by omega)).trans ((if_neg hsev).trans ?_)
  simp only [hk, Option.getD_some, Option.isNone_some, Bool.false_and, Bool.false_eq_true, if_false]

/-- Without one the oldest record is overwritten, and the pointers move when it stands at the write pointer (log 62). -/
theorem State.placeRec_over_oldest (hk : s.oldestCorrected = none) :
    let n := s.safe.recs
    let w := s.rd F.SAFE_REC_PTR_write
    let s1 : State := { s with safe := { s.safe with recs := n + 1 } }
    let s2 := ((s1.orderRec (recBytes n s.tn s.sinceEdge 1 r) (min 512 n) s.oldestRec n).bump F.SAFE_REC_PTR_lost).newestRec s.oldestRec
    s.placeRec r = if s.oldestRec = w then s2.wrs [(F.SAFE_REC_PTR_write, (w + 1) % 512), (F.SAFE_REC_PTR_read, (w + 1) % 512)] else s2 := by
  refine (if_neg (by omega)).trans ((if_neg hsev).trans ?_)
  simp only [hk, Option.getD_none, Option.isNone_none, Bool.true_and, beq_iff_eq]

end Overwrite

end FullRing

theorem State.orderRec_of_first {s : State} {b : List Byte} {k w n : Nat} (h : s.recAfter b w n = none) :
    s.orderRec b k w n = s.putRec w (renumber b n) := by
  cases k with
  | zero => rfl
  | succ k => simp only [State.orderRec, h, Option.elim_none]

theorem State.orderRec_of_after {s : State} {b : List Byte} {k w n p : Nat} (h : s.recAfter b w n = some p) :
    s.orderRec b (k + 1) w n = (s.putRec w (renumber (s.recAt p) n)).orderRec b k p (n - 1) := by
  simp only [State.orderRec, h, Option.elim_some]

/-- Settles O49: one lemma for each row of the monitor, for the way of a record by its severity and for its place in the ring. -/
theorem theMonitorWatchesTestsAndRecords : Obligations.TheMonitorWatchesTestsAndRecords := by
  unfold Obligations.TheMonitorWatchesTestsAndRecords
  refine fun s m => ⟨fun t e b => exec_engineWatchdog_of_busy, fun a s1 => exec_selftestSlot_of_due, fun t pass words => ?_,
    fun k pass words bad => rfl, fun b => exec_safetyDegraded_of_old, fun pass us k => exec_pretestDone_of_running pass us, fun hlet die row col => ?_,
    fun hlet => ?_, fun r => ?_, fun r => ?_, fun b k w n => ⟨State.orderRec_of_first, fun p => State.orderRec_of_after⟩⟩
  · intro s1
    exact ⟨fun h => ⟨(exec_selftestDone_tile ..).trans (congrArg _ (if_pos h)), fun o => (exec_selftestDone_tile ..).trans (congrArg _ (if_pos h))⟩,
      fun h bad => (exec_selftestDone_tile ..).trans (congrArg _ (if_neg (by simp [h])))⟩
  · intro b k
    exact ⟨exec_pretest_of_unmapped hlet, exec_pretest_of_running hlet, exec_pretest_of_refused hlet, congrArg ok (State.guarded_of_lets _ hlet)⟩
  · exact ⟨congrArg ok (State.guarded_of_lets _ hlet), congrArg ok (State.guarded_of_lets _ hlet)⟩
  · intro s1 s2 s3
    exact ⟨State.record_of_merges, fun h => ⟨State.record_of_corrected h, State.record_of_contained h, State.record_of_uncontained h⟩⟩
  · intro n b w s1
    exact ⟨State.placeRec_of_room, State.placeRec_of_corrected,
      fun hfull hsev => ⟨fun k => State.placeRec_over_corrected hfull hsev, State.placeRec_over_oldest hfull hsev⟩⟩

end Sys2Proof.Machine
end

section
/-! Event rings, dumps and counter samples (20 R422, R432 to R436), and O50. -/

namespace Sys2Proof.Machine

section DumpCtrl
variable {s : State} {m : Master} (hlet : s.lets m dumpCtrl = true)
include hlet

theorem exec_dumpArm_of_busy (h : 1 ≤ s.dumpState ∧ s.dumpState ≤ 3) : exec (.dumpArm m) s = .next (s.wr F.HUB_DUMP_STATUS_error 3) :=
  congrArg ok ((State.guarded_of_lets _ hlet).trans (if_pos h))
theorem exec_dumpCancel_of_busy (h : 1 ≤ s.dumpState ∧ s.dumpState ≤ 3) : exec (.dumpCancel m) s = .next (s.dumpEnd 5 4) :=
  congrArg ok ((State.guarded_of_lets _ hlet).trans (if_pos h))

section Free
variable (hfree : s.dumpState = 0 ∨ 3 < s.dumpState)
include hfree

theorem exec_dumpCancel_of_free : exec (.dumpCancel m) s = .next s :=
  congrArg ok ((State.guarded_of_lets _ hlet).trans (if_neg (by omega)))

theorem exec_dumpArm_of_ok (h : s.dumpOk = true) : exec (.dumpArm m) s = .next
    (({ s with dump := { bay := (s.bayOf (s.rd F.HUB_DUMP_CTRL_tile)).getD 0 } } : State).wrs
      [(F.HUB_DUMP_STATUS_state, 1), (F.HUB_DUMP_STATUS_error, 0), (F.HUB_DUMP_STATUS_held, 0)]) :=
  congrArg ok ((State.guarded_of_lets _ hlet).trans ((if_neg (by omega)).trans (if_pos h)))

/-- A range outside those of R433 ends the dump at once (log 39). -/
theorem exec_dumpArm_of_outside (h : s.dumpOk = false) :
    exec (.dumpArm m) s = .next (s.wrs [(F.HUB_DUMP_STATUS_state, 5), (F.HUB_DUMP_STATUS_error, 2)]) :=
  congrArg ok ((State.guarded_of_lets _ hlet).trans ((if_neg (by omega)).trans (if_neg (by simp [h]))))

end Free

end DumpCtrl

/-- The copy of a dump (20 R434): `r` is what the reads give, `w` what the writes do. (Both stand as variables: to unfold a copy at a length
read from the registers makes Lean evaluate it.) -/
theorem exec_dumpCopyDone_of_copied {s : State} {confirmed : Bool} {errs : List BurstErr} (hst : s.dumpState = 3)
    {r : State × List Byte × Bool} {w : State × Nat}
    (hr : s.copyRead 0 (s.rd F.HUB_DUMP_SRC_addr) none errs
      (cut256 (s.rd F.HUB_DUMP_LEN_length / 256 + 2) (s.rd F.HUB_DUMP_SRC_addr) (s.rd F.HUB_DUMP_LEN_length)) = r)
    (hw : r.1.copyWrite (s.rd F.HUB_DUMP_CTRL_dst_space) (s.rd F.HUB_DUMP_DST_addr) r.2.1
      (cut256 (s.rd F.HUB_DUMP_LEN_length / 256 + 2) (s.rd F.HUB_DUMP_DST_addr) (s.rd F.HUB_DUMP_LEN_length)) = w) :
    let w1 := w.1.confirmed (w.2 != 1 || confirmed)
    let d := rawDigest 0 (s.rd F.HUB_DUMP_LEN_length / 8) r.2.1
    exec (.dumpCopyDone confirmed errs) s = .next (if r.2.2 && (w.2 == 0 || w.2 == 1 && confirmed) then
      (w1.dumpEnd 4 0).wrs [(F.HUB_DUMP_DIG_LO_digest, d), (F.HUB_DUMP_DIG_HI_digest, d / 2 ^ 64)]
      else (w1.dumpEnd 5 2).logs .DUMP_ERROR [2]) := by
  obtain ⟨s1, data, good⟩ := r
  obtain ⟨s2, wrote⟩ := w
  show execDumpCopyDone confirmed errs s = _
  simp only [execDumpCopyDone, hst, hr, hw, ne_eq, not_true_eq_false, if_false, ok]
  split <;> rfl

theorem exec_counterSample_of_due {s s1 : State} {a : Act} (hdue : s.takeDue 7 = some (a, s1)) :
    exec .counterSample s = .next (s1.forEach ((List.range 9).filter (bitOf a.arg)) State.sampleOne) := by
  show execCounterSample s = _
  simp only [execCounterSample, hdue, ok]

/-- Settles O50: one lemma for each row of a dump and for the sample. -/
theorem ringsDumpsAndSamples : Obligations.RingsDumpsAndSamples := by
  unfold Obligations.RingsDumpsAndSamples
  refine fun s m => ⟨fun hlet => ⟨congrArg ok (State.guarded_of_lets _ hlet), congrArg ok (State.guarded_of_lets _ hlet)⟩, fun hlet => ?_,
    fun hst confirmed errs => ?_, fun a s1 => exec_counterSample_of_due⟩
  · exact ⟨fun h1 h3 => ⟨exec_dumpArm_of_busy hlet ⟨h1, h3⟩, exec_dumpCancel_of_busy hlet ⟨h1, h3⟩⟩,
      fun h => ⟨exec_dumpCancel_of_free hlet h, exec_dumpArm_of_ok hlet h, exec_dumpArm_of_outside hlet h⟩⟩
  · intro src n r dst w d w1
    have hcopy := exec_dumpCopyDone_of_copied (confirmed := confirmed) hst (r := r) rfl (w := w) rfl
    exact ⟨fun hgood hwrote => hcopy.trans (congrArg _ (if_pos (by simpa [hgood] using hwrote))),
      fun h => hcopy.trans (congrArg _ (if_neg (by grind)))⟩

end Sys2Proof.Machine
end

section
/-! Supplies, starts and resets (18 R385 to R393; 22 R453, R454), what a start keeps, and O51. -/

namespace Sys2Proof.Machine

/-! Registers kept by their masks (18 R391). -/

/-- Registers `r` agree with `old` under a mask of one register. -/
def keptUnder (old r : Regs) (e : Nat × Nat) : Prop := rget r e.1 &&& BitVec.ofNat 64 e.2 = rget old e.1 &&& BitVec.ofNat 64 e.2

/-- One register with the bits of a mask taken from `old`. -/
def keepOne (old r : Regs) (e : Nat × Nat) : Regs :=
  rput r e.1 ((rget r e.1 &&& ~~~(BitVec.ofNat 64 e.2)) ||| (rget old e.1 &&& BitVec.ofNat 64 e.2))

theorem keepBits_cons (old new : Regs) (e : Nat × Nat) (l : List (Nat × Nat)) :
    keepBits old new (e :: l) = keepBits old (keepOne old new e) l := rfl

theorem keepBits_append (old new : Regs) (l k : List (Nat × Nat)) : keepBits old new (l ++ k) = keepBits old (keepBits old new l) k :=
  List.foldl_append ..

theorem keepOne_wf {old r : Regs} (hr : KMap.wf r = true) (e : Nat × Nat) : KMap.wf (keepOne old r e) = true := rput_wf hr ..

theorem keptUnder_keepOne {old r : Regs} (hr : KMap.wf r = true) (e : Nat × Nat) : keptUnder old (keepOne old r e) e := by
  rw [keptUnder, keepOne, rget_rput hr]
  ext i
  simp only [BitVec.getElem_and, BitVec.getElem_or, BitVec.getElem_not]
  grind

/-- Bits that agree already stay so when others are kept. -/
theorem keptUnder.keepOne {old r : Regs} (hr : KMap.wf r = true) {e : Nat × Nat} (h : keptUnder old r e) (d : Nat × Nat) :
    keptUnder old (keepOne old r d) e := by
  by_cases hd : e.1 = d.1
  · rw [keptUnder, hd, Machine.keepOne, rget_rput hr]
    rw [keptUnder, hd] at h
    ext i hi
    have hbit := congrArg (fun v : Dword => v[i]) h
    simp only [BitVec.getElem_and] at hbit
    simp only [BitVec.getElem_and, BitVec.getElem_or, BitVec.getElem_not]
    grind
  · rw [keptUnder, Machine.keepOne, rget_rput_ne _ _ hd]
    exact h

theorem keptUnder_keepBits_of_kept {old : Regs} {e : Nat × Nat} (l : List (Nat × Nat)) {new : Regs} (hnew : KMap.wf new = true)
    (h : keptUnder old new e) : keptUnder old (keepBits old new l) e := by
  induction l generalizing new with
  | nil => exact h
  | cons d l ih => exact ih (keepOne_wf hnew d) (h.keepOne hnew d)

theorem keptUnder_keepBits {old : Regs} {e : Nat × Nat} {l : List (Nat × Nat)} (he : e ∈ l) {new : Regs} (hnew : KMap.wf new = true) :
    keptUnder old (keepBits old new l) e := by
  induction l generalizing new with
  | nil => cases he
  | cons d l ih =>
    rcases List.mem_cons.mp he with rfl | he
    · exact keptUnder_keepBits_of_kept l (keepOne_wf hnew e) (keptUnder_keepOne hnew e)
    · exact ih he (keepOne_wf hnew d)

theorem rget_keepBits_ne {old : Regs} {o : Nat} {l : List (Nat × Nat)} (hl : ∀ e ∈ l, e.1 ≠ o) (new : Regs) :
    rget (keepBits old new l) o = rget new o := by
  induction l generalizing new with
  | nil => rfl
  | cons d l ih =>
    rw [keepBits_cons, ih (fun e he => hl e (List.mem_cons_of_mem _ he)), keepOne, rget_rput_ne _ _ (hl d List.mem_cons_self).symm]

theorem resetRegs_wf : KMap.wf State.resetRegs = true := by decide

/-- The masks that a start keeps. -/
def State.keptMasks (s : State) (warm : Bool) : List (Nat × Nat) :=
  keptAlways ++ (if warm then keptWarm else if s.pwr.sitesKept then keptSites else [])

theorem State.kept_regs (s : State) (warm : Bool) (i : StartIn) : (s.kept warm i).regs = keepBits s.regs State.resetRegs (s.keptMasks warm) :=
  (keepBits_append ..).symm

/-- A register all of whose bits are kept. -/
theorem State.kept_rget {s : State} {warm : Bool} {i : StartIn} {o : Nat} (h : (o, 2 ^ 64 - 1) ∈ s.keptMasks warm) :
    rget (s.kept warm i).regs o = rget s.regs o := by
  have hall : BitVec.ofNat 64 (2 ^ 64 - 1) = BitVec.allOnes 64 := rfl
  have hkept : keptUnder s.regs (s.kept warm i).regs (o, 2 ^ 64 - 1) := s.kept_regs warm i ▸ keptUnder_keepBits h resetRegs_wf
  simpa only [keptUnder, hall, BitVec.and_allOnes] using hkept

theorem mem_allBits {a b n : Nat} (h : n < (b - a) / 8) : (a + 8 * n, 2 ^ 64 - 1) ∈ allBits a b :=
  List.mem_map.mpr ⟨n, List.mem_range.mpr h, rfl⟩

theorem capability_mem_keptWarm {n : Nat} (h : n < 13) : (0x100 + 8 * n, 2 ^ 64 - 1) ∈ keptWarm := by
  simp only [keptWarm, List.mem_append]
  exact .inl (.inl (.inl (.inl (mem_allBits (by omega)))))

theorem site_mem_keptWarm {n : Nat} (h : n < 80) : ((F.SAFE_SITE_state n).off, 2 ^ 64 - 1) ∈ keptWarm := by
  simp only [keptWarm, List.mem_append]
  exact .inl (.inl (.inr (mem_allBits (a := 0x41000) (b := 0x41280) (by omega))))

/-! Supplies (18 R385, R386, R388). -/

section Supply
variable {s : State} {i : StartIn}

theorem exec_auxPowerOn_of_off (h : s.pwr.aux = false) (v48 : Bool) :
    let s1 : State := { s with pwr := { s.pwr with aux := true, v48 := v48, trip := false } }
    exec (.auxPowerOn i v48) s = .next (if v48 = true then s1.startUp false i
      else (({ s1 with pwr := { s1.pwr with inputs := some i, startAt := s.time } } : State).domains [28, 29] true).wrs
        [(F.PWR_STATUS_step, 1), (F.PWR_STATUS_warm, 0), (F.PWR_STATUS_failed, 0)]) :=
  (if_neg (by simp [h])).trans (apply_ite ok ..).symm

theorem exec_auxPowerOn_of_on (h : s.pwr.aux = true) (v48 : Bool) : exec (.auxPowerOn i v48) s = .next s := if_pos h

theorem exec_vinReturn_of_off (haux : s.pwr.aux = true) (hoff : s.pwr.off = true) :
    exec (.vinReturn i) s = .next (({ s with pwr := { s.pwr with v48 := true } } : State).startUp true i) := if_pos (by simp [haux, hoff])

end Supply

/-! Starts asked for, retried and failed (18 R388, R390, R392). -/
section Start
variable {s : State} {m : Master} {i : StartIn}

section PwrCtrl
variable (hlet : s.lets m pwrCtrl = true)
include hlet

theorem exec_warmStart_of_recovery (hst : s.pwrSt = 3) : exec (.warmStart m i) s = .next s :=
  congrArg ok ((State.guarded_of_lets _ hlet).trans (if_pos hst))

variable (hpower : s.powered = true) (hst : s.pwrSt ≠ 3)
include hpower hst

theorem exec_warmStart_of_powered : exec (.warmStart m i) s = .next (s.startUp true i) :=
  congrArg ok ((State.guarded_of_lets _ hlet).trans ((if_neg hst).trans (if_pos hpower)))
theorem exec_coldStart_of_powered : exec (.coldStart m i) s = .next (s.startUp false i) := by
  have hcold : s.coldStart i = s.startIf false i := congrArg (fun u : State => u.startIf false i) (if_neg hst)
  exact congrArg ok ((State.guarded_of_lets _ hlet).trans (hcold.trans (if_pos hpower)))

end PwrCtrl

theorem exec_startRetry_of_failed (hst : s.pwrSt = 0) (hfail : s.rd F.PWR_STATUS_failed = 1) (hrun : s.pwr.resetHeld = false)
    (hpower : s.powered = true) (h2 : s.rd F.PWR_STATUS_fail_code ≠ 2) (h6 : s.rd F.PWR_STATUS_fail_code ≠ 6) :
    exec (.startRetry i) s = .next (s.startUp (s.on F.PWR_STATUS_warm) i) :=
  (if_pos ⟨hst, hfail, hrun, h2, h6⟩).trans (congrArg ok (if_pos hpower))

theorem exec_stepTimeout_of_starting (h : s.starting = true) (h11 : s.rd F.PWR_STATUS_step ≠ 11)
    (h8 : s.rd F.PWR_STATUS_step ≠ 8 ∨ s.stow.copyOp ≠ none) :
    exec .stepTimeout s = .next (s.startFail (s.rd F.PWR_STATUS_step) 8 .STEP_TIMEOUT) := by
  have hlimit : (s.rd F.PWR_STATUS_step == 8 && s.stow.copyOp.isNone) = false := by
    rw [Bool.and_eq_false_iff, beq_eq_false_iff_ne, Option.isNone_eq_false_iff, Option.isSome_iff_ne_none]
    exact h8
  exact if_pos (by rw [h, hlimit, bne_iff_ne.mpr h11]; rfl)

/-! PERST_N and the hot reset (22 R453). -/

theorem exec_perstAssert_of_on (hoff : s.pwr.off = false) (hst : s.pwrSt ≠ 3) : exec .perstAssert s = .next
    (({ s with pcie := { s.pcie with perst := true } } : State).startHold (!(s.pwr.resetHeld && s.pwr.heldCold))) :=
  (if_neg (by simp [hoff])).trans (if_neg hst)

theorem exec_perstRelease_of_held (hperst : s.pcie.perst = true) (hheld : s.pwr.resetHeld = true) : exec (.perstRelease i) s = .next
    (({ s with pcie := { s.pcie with perst := false }, pwr := { s.pwr with resetHeld := false } } : State).startIf (!s.pwr.heldCold) i) :=
  (if_neg (by simp [hperst])).trans (if_pos hheld)

theorem exec_hotReset_of_powered (hlight : s.dark = false) (hperst : s.pcie.perst = false) (hst : s.pwrSt ≠ 3) (hpower : s.powered = true) :
    exec (.hotReset i) s = .next (s.startUp true i) :=
  (if_neg (by simp [hlight, hperst])).trans ((if_neg hst).trans (congrArg ok (if_pos hpower)))

/-! Warm or cold (18 R391, R392). -/

/-- The state a start finds: retained state whose CRC fails is invalid. -/
def State.crcChecked (s : State) (i : StartIn) : State :=
  if i.crcBad then ({ s with pwr := { s.pwr with retained := false } } : State).wr F.PWR_STATUS_warm_fails 0 else s

theorem State.crcChecked_pcie (s : State) (i : StartIn) : (s.crcChecked i).pcie = s.pcie := by
  unfold State.crcChecked
  split <;> rfl

theorem State.startUp_eq (warm : Bool) (hperst : s.pcie.perst = false) : s.startUp warm i =
    (s.crcChecked i).startRun (warm && (s.crcChecked i).pwr.retained && decide ((s.crcChecked i).rd F.PWR_STATUS_warm_fails < 3)) i :=
  have hready : (s.crcChecked i).pcie.perst = false := (congrArg Pcie.perst (s.crcChecked_pcie i)).trans hperst
  if_neg (Bool.eq_false_iff.mp hready)

theorem State.startUp_of_warm {warm : Bool} (hperst : s.pcie.perst = false)
    (h : warm = true ∧ (s.crcChecked i).pwr.retained = true ∧ (s.crcChecked i).rd F.PWR_STATUS_warm_fails < 3) :
    s.startUp warm i = (s.crcChecked i).startRun true i := by
  rw [State.startUp_eq warm hperst, h.1, h.2.1, decide_eq_true h.2.2]
  rfl

theorem State.startUp_of_cold {warm : Bool} (hperst : s.pcie.perst = false)
    (h : ¬ (warm = true ∧ (s.crcChecked i).pwr.retained = true ∧ (s.crcChecked i).rd F.PWR_STATUS_warm_fails < 3)) :
    s.startUp warm i = (s.crcChecked i).startRun false i := by
  have hcold : (warm && (s.crcChecked i).pwr.retained && decide ((s.crcChecked i).rd F.PWR_STATUS_warm_fails < 3)) = false := by
    rw [← Bool.not_eq_true, Bool.and_eq_true, Bool.and_eq_true, decide_eq_true_iff, and_assoc]
    exact h
  rw [State.startUp_eq warm hperst, hcold]

end Start

/-- Settles O51: one lemma for each supply, start and reset; a start keeps the registers under its masks, and the rest by its definition. -/
theorem suppliesStartsAndResets : Obligations.SuppliesStartsAndResets := by
  unfold Obligations.SuppliesStartsAndResets
  intro s m i
  refine ⟨fun h => ⟨exec_auxPowerOn_of_off h true, exec_auxPowerOn_of_off h false⟩, exec_auxPowerOn_of_on, rfl, exec_vinReturn_of_off,
    fun mv => ⟨rfl, rfl⟩, fun hlet hpower => ⟨fun hst => ⟨exec_warmStart_of_powered hlet hpower hst, exec_coldStart_of_powered hlet hpower hst⟩,
      exec_warmStart_of_recovery hlet⟩, exec_startRetry_of_failed, exec_stepTimeout_of_starting, exec_perstAssert_of_on, fun warm => rfl,
    exec_perstRelease_of_held, exec_hotReset_of_powered, fun warm hperst => ⟨State.startUp_of_warm hperst, State.startUp_of_cold hperst⟩,
    fun warm => ?_, ?_, ?_⟩
  · intro k l
    have hregs : k.regs = keepBits s.regs State.resetRegs l := s.kept_regs warm i
    refine ⟨fun e he => ?_, fun o ho => ?_, rfl, rfl, rfl, rfl, rfl, rfl, rfl, rfl, rfl⟩
    · rw [hregs]
      exact keptUnder_keepBits he resetRegs_wf
    · rw [hregs]
      exact rget_keepBits_ne ho _
  · intro k
    exact ⟨fun n hn => State.kept_rget (List.mem_append_right _ (capability_mem_keptWarm hn)),
      fun n hn => State.kept_rget (List.mem_append_right _ (site_mem_keptWarm hn)), fun b => rfl, rfl, rfl, rfl, rfl,
      fun hvio => ⟨if_pos hvio, if_pos hvio⟩, fun hvio => if_neg (by simp [hvio])⟩
  · exact ⟨rfl, rfl, rfl, rfl, rfl, rfl, rfl⟩

end Sys2Proof.Machine
end

section
/-! Domains, shares and mothball (18 R387, R394 to R402), and O52. -/

namespace Sys2Proof.Machine

/-! A domain's monitor (18 R387). -/
section Domain
variable {s : State} {i : Fin 30} {raw : BitVec 16}

theorem exec_domainFault_of_inside
    (h : s.rd (F.PWR_DOMAIN_on i) = 0 ∨ ((domainLimits i).1 ≤ s.domainVolts i raw ∧ s.domainVolts i raw ≤ (domainLimits i).2)) :
    exec (.domainFault i raw) s = .next s := if_pos h

/-- The fault of a domain recorded, before anything is stopped. -/
def State.domainFaulted (s : State) (i : Fin 30) (raw : BitVec 16) : State :=
  let v := s.domainVolts i raw
  let s1 := (s.wrs [(F.PWR_DOMAIN_mv i, v / 2), (F.PWR_DOMAIN_fault i, 1)]).pwrEvent F.PWR_EVENT_domain_fault
  (s1.logs .PWR_DOMAIN [i.val, v / 2]).supplyRecord 4 (if i.val < 24 then i.val / 3 else 8) [BitVec.ofNat 8 i]

variable (hon : s.rd (F.PWR_DOMAIN_on i) ≠ 0) (hout : s.domainVolts i raw < (domainLimits i).1 ∨ (domainLimits i).2 < s.domainVolts i raw)
include hon hout

theorem not_inside : ¬ (s.rd (F.PWR_DOMAIN_on i) = 0 ∨
    ((domainLimits i).1 ≤ s.domainVolts i raw ∧ s.domainVolts i raw ≤ (domainLimits i).2)) := by omega

theorem exec_domainFault_of_die (hi : i.val < 24) :
    exec (.domainFault i raw) s = .next ((s.domainFaulted i raw).stopDies [i.val / 3]) :=
  (if_neg (not_inside hon hout)).trans (if_pos hi)

theorem exec_domainFault_of_ports (hi : i.val = 26 ∨ i.val = 27) : exec (.domainFault i raw) s = .next
    ((s.domainFaulted i raw).forEach ((List.range 16).map (· + (if i.val = 26 then 0 else 16)))
      (fun a p => if (a.port p).rd F.LNK_STATUS_state = 0 then a else a.portDown p)) :=
  (if_neg (not_inside hon hout)).trans ((if_neg (by omega)).trans (if_pos hi))

theorem exec_domainFault_of_hub (hi : 24 ≤ i.val) (h26 : i.val ≠ 26) (h27 : i.val ≠ 27) :
    exec (.domainFault i raw) s = .next ((s.domainFaulted i raw).stopDies (List.range 8)) :=
  (if_neg (not_inside hon hout)).trans ((if_neg (by omega)).trans (if_neg (by omega)))

end Domain

/-! A temperature sample (18 R398). -/
section Temp
variable {s : State} {d : Fin 9} {raw : List (BitVec 16)}

/-- The reading shown, and 10 µs of throttling counted where the die is throttled (log 58). -/
def State.tempShown (s : State) (d : Fin 9) (raw : List (BitVec 16)) : State :=
  let s0 := s.wr (F.PWR_DIE_temp d) (min (s.hottest d raw / 16) 255)
  if d.val < 8 && s.rd (F.PWR_DIE_share d) != 16 then s0.bump (F.PWR_DIE_throttled_us d) 10 else s0

theorem exec_dieTempSample_of_trip (h : 115 ≤ min (s.hottest d raw / 16) 255) :
    let t := min (s.hottest d raw / 16) 255
    let s1 := s.tempShown d raw
    exec (.dieTempSample d raw) s = .next
      (((({ s1 with pwr := { s1.pwr with trip := true } } : State).logs .THERMTRIP [d.val, t]).supplyRecord 9 d [BitVec.ofNat 8 t]).stopDies
        (if d.val = 8 then List.range 8 else [d.val])).off48 := if_pos h

/-- A die that is throttled and halted already raises neither event again. -/
theorem exec_dieTempSample_of_halted (h : min (s.hottest d raw / 16) 255 < 115) (hhot : s.hot d ≠ 0) (hhalt : bitOf (s.hot d) 6 = true) :
    exec (.dieTempSample d raw) s = .next
      ((s.tempShown d raw).forEach (List.range 7) (fun a k => a.threshold d (s.hottest d raw) k)).sharesGo := by
  refine (if_neg (by omega)).trans (congrArg (fun u : State => ok u.sharesGo) ?_)
  exact (if_neg (by simp [hhalt])).trans (if_neg (by simp [hhot]))

end Temp

/-! The power share (18 R397). -/
section PowerShare
variable {s : State} {i : PowerIn}

/-- A sample near the sustained limit. -/
def State.nearLimit (s : State) (i : PowerIn) : Prop := s.rd F.PWR_BUDGET_sustained_w ≤ i.average.toNat + 100 ∨ i.above8ms = true

theorem State.powerShare_of_over (h : 11500 < i.watts.toNat) : s.powerShare i = (4, s.time) := if_pos h

theorem State.powerShare_of_near (h : i.watts.toNat ≤ 11500) (hnear : s.nearLimit i) :
    s.powerShare i = if 100 * usCycles ≤ s.time - s.pwr.powerAt then (s.pwr.power - 2, s.time) else (s.pwr.power, s.pwr.powerAt) :=
  (if_neg (by omega)).trans (if_pos (by simpa [State.nearLimit] using hnear))

theorem State.powerShare_of_under (h : i.watts.toNat ≤ 11500) (hnear : ¬ s.nearLimit i) :
    s.powerShare i = if s.pwr.power < 16 ∧ msCycles ≤ s.time - s.pwr.powerAt then (s.pwr.power + 1, s.time) else (s.pwr.power, s.pwr.powerAt) :=
  (if_neg (by omega)).trans (if_neg (by simpa [State.nearLimit] using hnear))

end PowerShare

theorem exec_powerRamp_of_due {s s1 : State} {a : Act} (hdue : s.takeDue 8 = some (a, s1)) : exec .powerRamp s = .next
    ({ s1 with pwr := { s1.pwr with rampSet := ((List.range 8).filter (bitOf a.arg)).foldl (fun m d => kput m d (bitsOf a.arg 16 5)) s1.pwr.rampSet } } : State).shares := by
  show execPowerRamp s = _
  simp only [execPowerRamp, hdue, ok]

theorem exec_sitePowerUp_of_next {s : State} {d : Fin 8} {k : Nat} {l : List Nat} (hnext : kget s.pwr.siteQ d [] = k :: l)
    (hpre : s.safe.pretest = none) :
    let s1 : State := { s with pwr := { s.pwr with siteQ := kput s.pwr.siteQ d l } }
    exec (.sitePowerUp d) s = .next (if s.image.sites.contains k && !s.pwr.sites.contains k
      then { s1 with pwr := { s1.pwr with sites := s1.pwr.sites ++ [k] } } else s1) := by
  show execSitePowerUp d s = _
  simp only [execSitePowerUp, hnext, hpre, Option.map_none, reduceCtorEq, if_false, ok]
  split <;> rfl

theorem exec_hostD3hot_of_up {s : State} (hlink : s.linkUp = true) (hlight : s.dark = false) :
    exec .hostD3hot s = .next (s.wr F.HUB_PCIE_STATUS_dstate 3).mothball := by
  show execHostD3hot s = _
  simp only [execHostD3hot, hlink, hlight, Bool.not_false, Bool.and_self, if_true, ok]
theorem exec_hostD0_of_up {s : State} (hlink : s.linkUp = true) (hlight : s.dark = false) :
    exec .hostD0 s = .next (s.wr F.HUB_PCIE_STATUS_dstate 0).wake := by
  show execHostD0 s = _
  simp only [execHostD0, hlink, hlight, Bool.not_false, Bool.and_self, if_true, ok]

/-- Settles O52: one lemma for each outcome of a domain's monitor, of a temperature or power sample, and for the rows of mothball. -/
theorem powerIsSharedAndSaved : Obligations.PowerIsSharedAndSaved := by
  unfold Obligations.PowerIsSharedAndSaved
  refine fun s m => ⟨fun i raw => ?_, fun d raw => ?_, fun i => rfl, fun i => ?_, fun a s1 => exec_powerRamp_of_due,
    fun d k l => exec_sitePowerUp_of_next, fun hlet => ⟨congrArg ok (State.guarded_of_lets _ hlet), congrArg ok (State.guarded_of_lets _ hlet)⟩,
    fun h => if_pos h, fun hlink hlight => ⟨exec_hostD3hot_of_up hlink hlight, exec_hostD0_of_up hlink hlight⟩,
    fun h1 h2 h3 h4 => if_pos ⟨h1, h2, h3, h4⟩, fun h => if_pos h⟩
  · intro v s1 s2
    exact ⟨exec_domainFault_of_inside, fun hon hout => ⟨exec_domainFault_of_die hon hout, exec_domainFault_of_ports hon hout,
      exec_domainFault_of_hub hon hout⟩⟩
  · intro x t s0 s1
    exact ⟨exec_dieTempSample_of_trip, exec_dieTempSample_of_halted⟩
  · intro p near
    exact ⟨State.powerShare_of_over, State.powerShare_of_near, State.powerShare_of_under⟩

end Sys2Proof.Machine
end

section
/-! Signed commands (19 R407 to R413), and O53. -/

namespace Sys2Proof.Machine

/-- The row of the command with code `c`. -/
def submitRow (m : Master) (c : Nat) (i : StartIn) : Instr :=
  if c = 1 then .ownerRegister m else if c = 2 then .ownerRevoke m else if c = 3 then .deploy m
  else if c = 4 then .returnCmd m i else .debugUnlock m

/-- Every signed command is one SUBMIT of its code. -/
theorem exists_exec_submitRow (s : State) (m : Master) (i : StartIn) {c : Nat} (h1 : 1 ≤ c) (h5 : c ≤ 5) :
    ∃ f, exec (submitRow m c i) s = .next (s.submit m c f) := by
  obtain rfl | rfl | rfl | rfl | rfl : c = 1 ∨ c = 2 ∨ c = 3 ∨ c = 4 ∨ c = 5 := by omega
  all_goals exact ⟨_, rfl⟩

theorem State.secFits_of_code {s : State} {bank c : Nat} (h : le (s.secBytes bank) 4 2 = c) : s.secFits bank c = true := by
  simp [State.secFits, h]

section Submit
variable {s : State} {m : Master} {bank c : Nat} {f : State → List Byte → State} (hbank : bankOfMaster m = some bank)
  (hlet : s.lets m (secCtrl bank) = true) (hcode : le (s.secBytes bank) 4 2 = c)
include hbank hlet hcode

/-- The security services do not run, or check another bank's command: code 7, and the nonce stays (19 R408). -/
theorem State.submit_of_busy (h : s.secReady = false ∨ s.secChecking bank = true) : s.submit m c f = s.secResult bank 7 0 := by
  have hbusy : (!s.secReady || s.secChecking bank) = true := by simpa using h
  simp only [State.submit, hbank, Option.getD_some, State.secFits_of_code hcode, Bool.not_true, Bool.false_eq_true, if_false, State.guarded_of_lets _ hlet, hbusy, if_true]

section Checked
variable (hready : s.secReady = true) (hidle : s.secChecking bank = false)
include hready hidle

/-- The first failure's code and offset, and a new nonce (19 R408). -/
theorem State.submit_of_failed {e : Nat × Nat} (h : s.secCheck bank (s.secBytes bank) = some e) :
    s.submit m c f = ((s.secBegin bank).secResult bank e.1 e.2).newNonce bank := by
  simp only [State.submit, hbank, Option.getD_some, State.secFits_of_code hcode, Bool.not_true, Bool.false_eq_true, if_false, State.guarded_of_lets _ hlet, hready, hidle,
    Bool.or_self, h]

/-- Every check passed: the effect, and a new nonce. -/
theorem State.submit_of_passed (h : s.secCheck bank (s.secBytes bank) = none) :
    s.submit m c f = f (((s.secBegin bank).secResult bank 0 0).newNonce bank) (s.secBytes bank) := by
  simp only [State.submit, hbank, Option.getD_some, State.secFits_of_code hcode, Bool.not_true, Bool.false_eq_true, if_false, State.guarded_of_lets _ hlet, hready, hidle,
    Bool.or_self, h]

end Checked

end Submit

/-- Settles O53: every signed command is one SUBMIT, which is busy, fails its first check or passes them all. -/
theorem signedCommandsAreChecked : Obligations.SignedCommandsAreChecked := by
  unfold Obligations.SignedCommandsAreChecked
  intro s m bank hbank hlet b row a
  refine ⟨fun hready hidle hpass => ?_, fun c i h1 h5 hc => ⟨fun h => ?_, fun e hready hidle he => ?_⟩, ?_⟩
  · have passed := fun (c : Nat) (f : State → List Byte → State) (hc : le b 4 2 = c) =>
      congrArg ok (State.submit_of_passed (f := f) hbank hlet hc hready hidle hpass)
    exact ⟨passed 1 _, passed 2 _, passed 3 _, fun hc i => passed 4 _ hc, passed 5 _⟩
  · obtain ⟨f, hf⟩ := exists_exec_submitRow s m i h1 h5
    exact hf.trans (congrArg ok (State.submit_of_busy hbank hlet hc h))
  · obtain ⟨f, hf⟩ := exists_exec_submitRow s m i h1 h5
    exact hf.trans (congrArg ok (State.submit_of_failed hbank hlet hc hready hidle he))
  · show ok (s.guarded m (secCtrl ((bankOfMaster m).getD 0)) State.debugClose) = _
    rw [hbank, Option.getD_some, State.guarded_of_lets _ hlet]
    rfl

end Sys2Proof.Machine
end

section
/-! The SPDM responder (19 R417), and O54. -/

namespace Sys2Proof.Machine

section Responder
variable {s : State} (hlink : s.linkUp = true) (hlight : s.dark = false)
include hlink hlight

/-- While the security services do not run the answer is Busy. -/
theorem State.spdm_of_busy {f : State → State × List Byte} (h : s.secReady = false) :
    s.spdm f = s.sends (.spdm [0x13, 0x7F, 3, 0]) := by
  simp only [State.spdm, hlink, hlight, h, Bool.not_true, Bool.not_false, Bool.or_self, Bool.false_eq_true, if_false, if_true]
  rfl

theorem State.spdm_of_ready {f : State → State × List Byte} (h : s.secReady = true) : s.spdm f = (f s).1.sends (.spdm (f s).2) := by
  simp only [State.spdm, hlink, hlight, h, Bool.not_true, Bool.or_self, Bool.false_eq_true, if_false]

section Ready
variable (hready : s.secReady = true)
include hready

/-- An answer that draws nothing. -/
theorem State.spdmPlain_of_ready {f : State → List Byte} {b : List Byte} (h : f s = b) : s.spdmPlain f = s.sends (.spdm b) :=
  h ▸ State.spdm_of_ready hlink hlight hready

theorem exec_getCertificate_of_portion {offset length : BitVec 16} (h : offset.toNat < s.chainBytes.length) :
    let p := sub s.chainBytes offset.toNat length.toNat
    exec (.getCertificate 0 offset length) s = .next (s.sends (.spdm
      ([0x13, 0x02, 0, 0] ++ leBytes 2 p.length ++ leBytes 2 (s.chainBytes.length - offset.toNat - p.length) ++ p))) :=
  congrArg ok (State.spdmPlain_of_ready hlink hlight hready (if_neg (by simpa using h)))

theorem exec_getCertificate_of_invalid {slot : Byte} {offset length : BitVec 16} (h : slot ≠ 0 ∨ s.chainBytes.length ≤ offset.toNat) :
    exec (.getCertificate slot offset length) s = .next (s.sends (.spdm [0x13, 0x7F, 1, 0])) :=
  congrArg ok (State.spdmPlain_of_ready hlink hlight hready (if_pos h))

/-- A CHALLENGE whose summary is known: slot 0 is answered and signed, another is InvalidRequest. -/
theorem exec_challenge_of_summary {nonce h : List Byte} {slot kind : Byte} {ctx : Dword} (hsum : s.measSummary kind = some h) :
    exec (.challenge slot nonce kind ctx) s = .next
      (let r := if slot ≠ 0 then (s, spdmError 1 0) else s.signedAnswer nonce ([0x13, 0x03, slot, 1] ++ sha384 s.chainBytes) h ctx true
       r.1.sends (.spdm r.2)) := by
  refine congrArg ok ((State.spdm_of_ready hlink hlight hready).trans ?_)
  simp only [hsum]
  rfl

theorem exec_challenge_of_unknown {nonce : List Byte} {slot kind : Byte} {ctx : Dword} (hsum : s.measSummary kind = none) :
    exec (.challenge slot nonce kind ctx) s = .next (s.sends (.spdm [0x13, 0x7F, 1, 0])) := by
  refine congrArg ok ((State.spdm_of_ready hlink hlight hready).trans ?_)
  simp only [hsum]
  rfl

theorem exec_challenge_of_invalid {nonce : List Byte} {slot kind : Byte} {ctx : Dword} (h : slot ≠ 0 ∨ s.measSummary kind = none) :
    exec (.challenge slot nonce kind ctx) s = .next (s.sends (.spdm [0x13, 0x7F, 1, 0])) := by
  cases hsum : s.measSummary kind with
  | none => exact exec_challenge_of_unknown hlink hlight hready hsum
  | some v => exact (exec_challenge_of_summary hlink hlight hready hsum).trans (by rw [if_pos (h.resolve_right (by simp [hsum]))]; rfl)

theorem exec_getMeasurements_of_block {nonce : List Byte} {i : Byte} {ctx : Dword} {signed : Bool} (h : i.toNat ≤ 7 ∨ i.toNat = 255) :
    let l := if i.toNat = 0 then [] else if i.toNat = 255 then [1, 2, 3, 4, 5, 6, 7] else [i.toNat]
    let b := (l.map s.measBlock).flatten
    let r := s.signedAnswer nonce ([0x13, 0x60, if i.toNat = 0 then 7 else 0, 0] ++ leBytes 1 l.length ++ leBytes 3 b.length ++ b) [] ctx signed
    exec (.getMeasurements i nonce ctx signed) s = .next (r.1.sends (.spdm r.2)) := by
  refine congrArg ok ((State.spdm_of_ready hlink hlight hready).trans ?_)
  rw [if_neg (by omega)]
  rfl

theorem exec_getMeasurements_of_invalid {nonce : List Byte} {i : Byte} {ctx : Dword} {signed : Bool} (h : 7 < i.toNat) (h255 : i.toNat ≠ 255) :
    exec (.getMeasurements i nonce ctx signed) s = .next (s.sends (.spdm [0x13, 0x7F, 1, 0])) := by
  refine congrArg ok ((State.spdm_of_ready hlink hlight hready).trans ?_)
  rw [if_pos (by omega)]
  rfl

end Ready

end Responder

/-- Settles O54: a request that reaches the responder is answered by its row's bytes, or Busy. -/
theorem theResponderAnswers : Obligations.TheResponderAnswers := by
  unfold Obligations.TheResponderAnswers
  intro s hlink hlight
  refine ⟨fun hready => ?_, fun nonce head mid ctx signed => rfl, fun kind => rfl,
    fun hbusy slot offset length nonce kind ctx index signed code => ?_⟩
  · have plain := fun (f : State → List Byte) (b : List Byte) (h : f s = b) =>
      congrArg ok (State.spdmPlain_of_ready hlink hlight hready h)
    refine ⟨plain _ _ rfl, plain _ _ rfl, plain _ _ rfl, plain _ _ rfl, fun offset length => exec_getCertificate_of_portion hlink hlight hready,
      fun slot offset length => exec_getCertificate_of_invalid hlink hlight hready, fun nonce kind ctx => ⟨fun h hsum => ?_, fun slot =>
        exec_challenge_of_invalid hlink hlight hready⟩, fun nonce i ctx signed => exec_getMeasurements_of_block hlink hlight hready,
      fun nonce i ctx signed => exec_getMeasurements_of_invalid hlink hlight hready, fun code => ?_⟩
    · exact (exec_challenge_of_summary hlink hlight hready hsum).trans (by rw [if_neg (by simp)])
    · exact plain _ _ (by simp [spdmError, spdmVersion])
  · have busy := fun (f : State → State × List Byte) => congrArg ok (State.spdm_of_busy (f := f) hlink hlight hbusy)
    simp only [List.forall_mem_cons]
    exact ⟨busy _, busy _, busy _, busy _, busy _, busy _, busy _, busy _, List.forall_mem_nil _⟩

end Sys2Proof.Machine
end

section
/-! Firmware received, relayed and checked (21 R440 to R443, R448), and O55. -/

namespace Sys2Proof.Machine

/-! The operations of HUB_FW_CTRL. -/
section FwCtrl
variable {s : State} {m : Master} (hlet : s.lets m fwCtrl = true)
include hlet

theorem exec_fwPrepare_of_idle (h : s.fwState = 0 ∨ s.fwState = 7) :
    let b := (s.setBank s.fwInactive {}).setBootRecord (10 + s.fwInactive) 0
    exec (.fwPrepare m) s = .next { b with fw := { b.fw with preparing := true, sent := [] } } :=
  congrArg ok ((State.guarded_of_lets _ hlet).trans (if_pos h))

theorem exec_fwPrepare_of_refused (h0 : s.fwState ≠ 0) (h7 : s.fwState ≠ 7) : exec (.fwPrepare m) s = .next s.fwRefuse :=
  congrArg ok ((State.guarded_of_lets _ hlet).trans (if_neg (by omega)))

theorem exec_fwStage_of_refused {errs : List BurstErr} {ext : Option (List Byte)} (h : s.fwState ≠ 1) :
    exec (.fwStage m errs ext) s = .next s.fwRefuse := congrArg ok ((State.guarded_of_lets _ hlet).trans (if_pos h))

section Stage
variable {errs : List BurstErr} {ext : Option (List Byte)} {r : State × Option (List Byte)} (hst : s.fwState = 1)
  (hr : s.hubRead 0 (s.rd F.HUB_FW_SRC_addr) (s.rd F.HUB_FW_LEN_length) ext errs = r)
include hst hr

/-- A source that cannot be read (log 46). -/
theorem exec_fwStage_of_unread (h : r.2 = none) : exec (.fwStage m errs ext) s = .next (r.1.fwFailed 7) := by
  obtain ⟨b, o⟩ := r
  obtain rfl : o = none := h
  refine congrArg ok ((State.guarded_of_lets _ hlet).trans ((if_neg (by omega)).trans ?_))
  simp only [hr]

theorem exec_fwStage_of_read {d : List Byte} (h : r.2 = some d) :
    let n := s.rd F.HUB_FW_LEN_length
    let c := r.1.fwReceive (leNat ((sha384 d).take 8)) ((n + 4095) / 4096) (some n)
    exec (.fwStage m errs ext) s = .next (if n = 0 then c.fwCheck else { c with fw := { c.fw with chunks := cutChunks (n / 4096 + 1) 0 d } }) := by
  obtain ⟨b, o⟩ := r
  obtain rfl : o = some d := h
  refine congrArg ok ((State.guarded_of_lets _ hlet).trans ((if_neg (by omega)).trans ?_))
  simp only [hr]

end Stage

theorem exec_fwRelayAgain_of_verified (h : s.fwState = 3 ∧ s.rd F.PWR_STATUS_state ≠ 3) :
    let b := bootBytes (s.bank s.fwInactive)
    let n := (b.length + 4095) / 4096
    exec (.fwRelayAgain m) s = .next
      ((({ s with fw := { s.fw with id := leNat ((sha384 b).take 8), count := n, toSend := List.range n, sent := [], relayOff := false } } : State).wrs
        [(F.HUB_FW_PROGRESS_chunks, n), (F.HUB_FW_PROGRESS_forwarded, 0)]).relayGo 4) :=
  congrArg ok ((State.guarded_of_lets _ hlet).trans (if_pos h))

end FwCtrl

/-! A chunk programmed (21 R441). -/
section Chunk
variable {s : State} {i : Nat} {d : List Byte} {sender : Option (Nat × Nat × Nat)} {l : List (Nat × List Byte × Option (Nat × Nat × Nat))}

/-- The state once the chunk at hand is in the bank and on its way to next. -/
def State.chunkDone (s : State) (i : Nat) (d : List Byte) (l : List (Nat × List Byte × Option (Nat × Nat × Nat))) : State :=
  let k := s.fwInactive
  let s1 := (s.setBank k ((s.bank k).write (4096 * i) d)).sends (.flash k (4096 * i) d)
  let done := s1.fw.done ++ [i]
  (({ s1 with fw := { s1.fw with chunks := l, done := done, toSend := s1.fw.toSend ++ [i] } } : State).wr
    F.HUB_FW_PROGRESS_programmed done.length).relayGo 4

variable (hchunk : s.fw.chunks = (i, d, sender) :: l) (hst : s.fwState = 2)
include hchunk hst

theorem exec_fwChunkProgrammed_bad : exec (.fwChunkProgrammed false) s = .next (s.fwFailed 7) := by
  show execFwChunkProgrammed false s = _
  simp only [execFwChunkProgrammed, hchunk, hst, ne_eq, not_true_eq_false, if_false, Bool.not_false, if_true, ok]

/-- A chunk that its sender waits for is acknowledged. -/
theorem exec_fwChunkProgrammed_good {s3 : State} (hown : sender = none → s3 = s.chunkDone i d l)
    (hrelayed : ∀ e, sender = some e → s3 = (s.chunkDone i d l).relayAnswer e.1 e.2.1 e.2.2 .ok) :
    let k := s.fwInactive
    let s1 := (s.setBank k ((s.bank k).write (4096 * i) d)).sends (.flash k (4096 * i) d)
    exec (.fwChunkProgrammed true) s = .next (if (s1.fw.done ++ [i]).length = s.fw.count then s3.fwCheck else s3) := by
  have hs3 : s3 = sender.elim (s.chunkDone i d l) (fun e => (s.chunkDone i d l).relayAnswer e.1 e.2.1 e.2.2 .ok) := by
    cases sender with
    | none => exact hown rfl
    | some e => exact hrelayed e rfl
  subst hs3
  show execFwChunkProgrammed true s = _
  simp only [execFwChunkProgrammed, hchunk, hst, ne_eq, not_true_eq_false, if_false, Bool.not_true, Bool.false_eq_true, ok]
  cases sender <;> rfl

end Chunk

/-! The check of a whole image (21 R443, R448). -/

theorem State.fwCheck_of_failed {s : State} {c : Nat} (h : s.fwVerify (s.bank s.fwInactive) s.fwLength (some s.fw.id) = some c) :
    s.fwCheck = s.fwFailed c := by
  simp only [State.fwCheck, h]

section Verified
variable {s : State} (h : s.fwVerify (s.bank s.fwInactive) s.fwLength (some s.fw.id) = none)
include h

theorem State.fwCheck_of_verified (hst : s.rd F.PWR_STATUS_state ≠ 3) : s.fwCheck = (s.setBootRecord (10 + s.fwInactive) 1).fwSet 3 := by
  simp only [State.fwCheck, h, if_neg hst]

theorem State.fwCheck_of_recovery (hst : s.rd F.PWR_STATUS_state = 3) :
    s.fwCheck = (((s.setBootRecord (10 + s.fwInactive) 1).fwSet 3).setBootRecord 13 s.fwInactive).wr F.HUB_FW_STATUS_active_bank s.fwInactive := by
  simp only [State.fwCheck, h, if_pos hst]

end Verified

/-- In RECOVERY nothing is relayed (21 R448). -/
theorem State.relayGo_of_recovery {s : State} {i n : Nat} {l : List Nat} (hsend : s.fw.toSend = i :: l) (hst : s.rd F.PWR_STATUS_state = 3) :
    s.relayGo (n + 1) = { s with fw := { s.fw with toSend := [] } } := by
  simp only [State.relayGo, hsend, hst, or_true, if_true]

/-! A RELAY received (21 R442). -/
section Relay
variable {s : State} {src : BitVec 16} {tile : BitVec 11} {tag index count : Word} {id : Dword} {data : List Byte}

/-- The RELAY comes from prev, and begins a reception or is of the image in reception. -/
def State.relayFits (s : State) (src index count : Nat) (id : Nat) : Prop :=
  src = s.rd F.HUB_FW_RELAY_prev ∧ index < count ∧ (s.fwState = 1 ∨ (s.fwState = 2 ∧ id = s.fw.id ∧ count = s.fw.count))

variable (hlight : s.dark = false) (hshun : s.shuns src.toNat = false) (hmem : s.image.members.contains src.toNat = true)
include hlight hshun hmem

theorem exec_relay_of_refused (h : ¬ s.relayFits src.toNat index.toNat count.toNat id.toNat) : exec (.relay src tile tag index count id data) s = .next
    ((s.bump F.HUB_FW_PROGRESS_refused).relayAnswer src.toNat tile.toNat tag.toNat .dropped) := by
  unfold State.relayFits at h
  show execRelay src tile tag index count id data s = _
  simp only [execRelay, hlight, hshun, hmem, Bool.false_eq_true, Bool.not_true, if_false]
  exact if_pos (by omega)

section Fits
variable (h : s.relayFits src.toNat index.toNat count.toNat id.toNat)
include h

/-- A RELAY that fits: the first begins the reception; the chunk is acknowledged again, waits already, or is taken. -/
theorem exec_relay_of_fits :
    let s1 := if (s.fwState == 1) = true then s.fwReceive id.toNat count.toNat none else s
    exec (.relay src tile tag index count id data) s = .next
      (if s1.fw.done.contains index.toNat = true then s1.relayAnswer src.toNat tile.toNat tag.toNat .ok
       else if s1.fw.chunks.any (fun e => e.1 == index.toNat) = true then s1
       else { s1 with fw := { s1.fw with chunks := s1.fw.chunks ++ [(index.toNat, data, some (src.toNat, tile.toNat, tag.toNat))] } }) := by
  unfold State.relayFits at h
  show execRelay src tile tag index count id data s = _
  simp only [execRelay, hlight, hshun, hmem, Bool.false_eq_true, Bool.not_true, if_false]
  rw [if_neg (by omega), ← apply_ite ok, ← apply_ite ok]
  rfl

theorem exec_relay_of_ready (hst : s.fwState = 1) :
    let c := s.fwReceive id.toNat count.toNat none
    exec (.relay src tile tag index count id data) s = .next
      { c with fw := { c.fw with chunks := [(index.toNat, data, some (src.toNat, tile.toNat, tag.toNat))] } } := by
  refine (exec_relay_of_fits hlight hshun hmem h).trans ?_
  rw [if_pos (beq_iff_eq.mpr hst)]
  rfl

section Receiving
variable (hst : s.fwState = 2)
include hst

theorem exec_relay_of_programmed (hdone : s.fw.done.contains index.toNat = true) :
    exec (.relay src tile tag index count id data) s = .next (s.relayAnswer src.toNat tile.toNat tag.toNat .ok) := by
  refine (exec_relay_of_fits hlight hshun hmem h).trans ?_
  simp only [hst, Nat.reduceBEq, Bool.false_eq_true, if_false, hdone, if_true]

variable (hnew : s.fw.done.contains index.toNat = false)
include hnew

theorem exec_relay_of_waiting (hwait : s.fw.chunks.any (fun e => e.1 == index.toNat) = true) :
    exec (.relay src tile tag index count id data) s = .next s := by
  refine (exec_relay_of_fits hlight hshun hmem h).trans ?_
  simp only [hst, Nat.reduceBEq, Bool.false_eq_true, if_false, hnew, hwait, if_true]

theorem exec_relay_of_new (hwait : s.fw.chunks.any (fun e => e.1 == index.toNat) = false) :
    exec (.relay src tile tag index count id data) s = .next
      { s with fw := { s.fw with chunks := s.fw.chunks ++ [(index.toNat, data, some (src.toNat, tile.toNat, tag.toNat))] } } := by
  refine (exec_relay_of_fits hlight hshun hmem h).trans ?_
  simp only [hst, Nat.reduceBEq, Bool.false_eq_true, if_false, hnew, hwait]

end Receiving

end Fits

end Relay

section Retry
variable {s : State} {i n a : Nat} {l : List (Nat × Nat × Nat)} (hsent : s.fw.sent = (i, n, a) :: l)
include hsent

theorem exec_fwRelayRetry_of_spent (h : 8 ≤ n) : exec .fwRelayRetry s = .next s.relayFail := by
  show execFwRelayRetry s = _
  simp only [execFwRelayRetry, hsent, if_pos h, ok]

theorem exec_fwRelayRetry_of_left (h : n < 8) : exec .fwRelayRetry s = .next
    (({ s with fw := { s.fw with sent := l ++ [(i, n + 1, s.time)] } } : State).sendPkt (s.relayPacket i)) := by
  show execFwRelayRetry s = _
  simp only [execFwRelayRetry, hsent, if_neg (show ¬ 8 ≤ n by omega), ok]

end Retry

/-- Settles O55: one lemma for each outcome of an operation, of a chunk, of the check and of a RELAY. -/
theorem firmwareIsReceivedAndRelayed : Obligations.FirmwareIsReceivedAndRelayed := by
  unfold Obligations.FirmwareIsReceivedAndRelayed
  refine fun s m => ⟨fun hlet => ⟨exec_fwPrepare_of_idle hlet, exec_fwPrepare_of_refused hlet, fun hst errs ext => exec_fwStage_of_refused hlet hst,
      fun hst errs ext => ?_, fun hst hrec => exec_fwRelayAgain_of_verified hlet ⟨hst, hrec⟩⟩, fun hprep hst => if_pos ⟨hprep, hst⟩,
    fun i d sender l hchunk hst => ?_, ⟨fun c => State.fwCheck_of_failed, fun h => ⟨State.fwCheck_of_verified h, State.fwCheck_of_recovery h⟩⟩,
    fun i l n => State.relayGo_of_recovery, fun src tile tag index count id data hlight hshun hmem => ?_,
    fun i n a l hsent => ⟨exec_fwRelayRetry_of_spent hsent, exec_fwRelayRetry_of_left hsent⟩, fun hst => congrArg ok (if_pos hst)⟩
  · intro n r
    exact ⟨exec_fwStage_of_unread hlet hst (r := r) rfl, fun d => exec_fwStage_of_read hlet hst (r := r) rfl⟩
  · intro k s1 done s2
    exact ⟨fun s3 => exec_fwChunkProgrammed_good hchunk hst, exec_fwChunkProgrammed_bad hchunk hst⟩
  · intro fits sender
    exact ⟨exec_relay_of_refused hlight hshun hmem, exec_relay_of_ready hlight hshun hmem, fun h hst =>
      ⟨exec_relay_of_programmed hlight hshun hmem h hst, exec_relay_of_waiting hlight hshun hmem h hst, exec_relay_of_new hlight hshun hmem h hst⟩⟩

end Sys2Proof.Machine
end

section
/-! Firmware activated, tried, confirmed or dropped (21 R443 to R448), and O56. -/

namespace Sys2Proof.Machine

/-! The operations of HUB_FW_CTRL on a verified image. -/
section FwCtrl
variable {s : State} {m : Master} (hlet : s.lets m fwCtrl = true)
include hlet

theorem exec_fwSchedule_of_refused (h : s.fwState ≠ 3 ∨ s.rd F.PWR_STATUS_state = 3) : exec (.fwSchedule m) s = .next s.fwRefuse :=
  congrArg ok ((State.guarded_of_lets _ hlet).trans (if_pos h))

section Verified
variable {e : State × Nat × Nat} (hst : s.fwState = 3) (hrec : s.rd F.PWR_STATUS_state ≠ 3)
  (he : s.enterAct (s.rd F.HUB_FW_ACT_TN_tn) 5 s.fwInactive 3 = e)
include hst hrec he

theorem exec_fwSchedule_of_entered (h : e.2.1 = 0) : exec (.fwSchedule m) s = .next (e.1.fwSet 4) := by
  obtain ⟨b, c, k⟩ := e
  obtain rfl : c = 0 := h
  refine congrArg ok ((State.guarded_of_lets _ hlet).trans ((if_neg (by omega)).trans ?_))
  simp only [he]

/-- A tick that R57 refuses (log 46). -/
theorem exec_fwSchedule_of_late (h : e.2.1 ≠ 0) : exec (.fwSchedule m) s = .next (e.1.fwFail 0x0A) := by
  obtain ⟨b, c, k⟩ := e
  obtain ⟨c, rfl⟩ : ∃ c', c = c' + 1 := Nat.exists_eq_succ_of_ne_zero h
  refine congrArg ok ((State.guarded_of_lets _ hlet).trans ((if_neg (by omega)).trans ?_))
  simp only [he]

end Verified

theorem exec_fwDiscard_of_held (h : (1 ≤ s.fwState ∧ s.fwState ≤ 4) ∨ s.fwState = 7) :
    let b := (s.cancelActs (fun x => x.type == 5)).setBootRecord (10 + s.fwInactive) 0
    exec (.fwDiscard m) s = .next (({ b with fw := { b.fw with chunks := [], toSend := [], sent := [] } } : State).fwSet 0) :=
  congrArg ok ((State.guarded_of_lets _ hlet).trans (if_pos h))

theorem exec_fwReject_of_trial (h : s.fwState = 6) : exec (.fwReject m) s = .next s.fallback :=
  congrArg ok ((State.guarded_of_lets _ hlet).trans (if_pos h))
theorem exec_fwReject_of_refused (h : s.fwState ≠ 6) : exec (.fwReject m) s = .next s.fwRefuse :=
  congrArg ok ((State.guarded_of_lets _ hlet).trans (if_neg h))

end FwCtrl

/-! The due activation (21 R444). -/
section Activate
variable {s s1 : State} {a : Act} (hdue : s.takeDue 5 = some (a, s1)) (hst : s1.fwState = 4)
include hdue hst

theorem exec_fwActivate_of_quiet (hsnap : s1.snapState = 0) (hdump : s1.dumpState = 0 ∨ 4 ≤ s1.dumpState) : exec .fwActivate s = .next
    ((({ s1 with fw := { s1.fw with active := true } } : State).fwSet 5).timeAll) := by
  show execFwActivate s = _
  simp only [execFwActivate, hdue, hst, ne_eq, not_true_eq_false, if_false, if_pos (And.intro hsnap hdump), ok]

theorem exec_fwActivate_of_busy (h : s1.snapState ≠ 0 ∨ (1 ≤ s1.dumpState ∧ s1.dumpState ≤ 3)) :
    exec .fwActivate s = .next ((s1.fwSet 3).fwFail 0x0A) := by
  have hbusy : ¬ (s1.snapState = 0 ∧ (s1.dumpState = 0 ∨ 4 ≤ s1.dumpState)) := by omega
  show execFwActivate s = _
  simp only [execFwActivate, hdue, hst, ne_eq, not_true_eq_false, if_false, if_neg hbusy, ok]

end Activate

/-! The end of the service pause (21 R445, R446). -/
section Pause
variable {s : State} (hpause : s.fw.active = true)
include hpause

theorem exec_fwActivationDone_of_trial (hst : s.fwState = 5) (hfit : s.bootFit (s.bank s.fwInactive) = true) :
    let s1 := (s.setBootRecord 12 (s.fwInactive + 1)).booted s.fwInactive (s.bank s.fwInactive)
    exec .fwActivationDone s = .next ((({ s1 with fw := { s1.fw with trialAt := s1.time } } : State).fwSet 6).resumeService) :=
  (if_neg (by simp [hpause])).trans ((if_pos hst).trans (if_pos hfit))

theorem exec_fwActivationDone_of_unfit (hst : s.fwState = 5) (hfit : s.bootFit (s.bank s.fwInactive) = false) :
    exec .fwActivationDone s = .next ((s.fwFailed 0x0B).resumeService) :=
  (if_neg (by simp [hpause])).trans ((if_pos hst).trans (if_neg (by simp [hfit])))

theorem exec_fwActivationDone_of_fallback (hst : s.fwState ≠ 5) :
    exec .fwActivationDone s = .next ((s.booted (s.bootRecord 13) (s.bank (s.bootRecord 13))).resumeService) :=
  (if_neg (by simp [hpause])).trans (if_neg hst)

end Pause

/-! The health checks of a trial (21 R446). -/

theorem exec_fwConfirm_of_healthy {s : State} (hst : s.fwState = 6) (htick : s.rd F.TB_STATUS_state = 2 ∨ s.rd F.TB_STATUS_state = 4) :
    let v := s.rd F.SEC_FUSE_image_svn
    let s1 := (((((s.setBootRecord 13 s.fwInactive).setBootRecord 12 0).forEach [0, 1, 2] State.ownFormat).wr
      F.HUB_FW_STATUS_active_bank s.fwInactive).fwSet 0)
    exec (.fwConfirm true true) s = .next (if s.rd F.SEC_FUSE_svn < v then (s1.wr F.SEC_FUSE_svn v).sends (.fuse 9 v) else s1) :=
  if_pos ⟨hst, rfl, rfl, htick⟩

theorem exec_fwConfirm_of_withheld {s : State} {dies probes : Bool}
    (h : s.fwState ≠ 6 ∨ dies = false ∨ probes = false ∨ (s.rd F.TB_STATUS_state ≠ 2 ∧ s.rd F.TB_STATUS_state ≠ 4)) :
    exec (.fwConfirm dies probes) s = .next s := by
  refine if_neg ?_
  rintro ⟨hst, rfl, rfl, htick⟩
  rcases h with h | h | h | h
  · exact h hst
  · cases h
  · cases h
  · omega

/-- A recovery image that fails its check is not entered (21 R448). -/
theorem State.recover_of_unfit {s : State} {c : Nat} (h : s.fwVerify s.fw.recovery none none = some c) : s.recover = s :=
  if_pos (by rw [h]; rfl)

/-- In RECOVERY the register operations of three registers alone act (log 122). -/
theorem State.offers_iff (s : State) (o : Nat) : s.offers o = true ↔ (s.rd F.PWR_STATUS_state = 3 → o ∈ [0x718, 0x30008, 0x800]) := by
  by_cases h : s.rd F.PWR_STATUS_state = 3 <;> simp [State.offers, h, or_assoc]

/-- Settles O56: one lemma for each outcome of an operation, of the due action, of the end of the pause and of the health checks. -/
theorem firmwareIsActivatedAndTried : Obligations.FirmwareIsActivatedAndTried := by
  unfold Obligations.FirmwareIsActivatedAndTried
  refine fun s m => ⟨fun hlet => ⟨fun hst hrec => ?_, exec_fwSchedule_of_refused hlet, exec_fwDiscard_of_held hlet, exec_fwReject_of_trial hlet,
      exec_fwReject_of_refused hlet⟩, fun a s1 hdue hst => ⟨exec_fwActivate_of_quiet hdue hst, exec_fwActivate_of_busy hdue hst⟩,
    fun hpause => ⟨exec_fwActivationDone_of_trial hpause, exec_fwActivationDone_of_unfit hpause, exec_fwActivationDone_of_fallback hpause⟩,
    fun h => congrArg ok (if_pos h), exec_fwConfirm_of_healthy, fun dies probes => exec_fwConfirm_of_withheld, fun c => State.recover_of_unfit,
    s.offers_iff⟩
  intro e
  exact ⟨exec_fwSchedule_of_entered hlet hst hrec (e := e) rfl, exec_fwSchedule_of_late hlet hst hrec (e := e) rfl⟩

end Sys2Proof.Machine
end

section
/-! The host's BAR2 and the shelf's requests (22 R449 to R451, R456), and O32. -/

namespace Sys2Proof.Machine

/-! BAR2 (22 R449 to R451). -/
section Bar2
variable {s : State} {off : BitVec 41} {errs : List BurstErr} (hopen : s.bar2Open off.toNat = true)
include hopen

theorem State.hostWrites_of_open (data : List Byte) (poisoned : Bool) : s.hostWrites off data poisoned errs =
    if poisoned = true then s.poisoned
    else (s.count 68 data.length).writeAs .host (s.portReq .host (s.bar2At off.toNat)) 0xFF data errs := if_neg (by simp [hopen])

theorem State.hostReads_of_open (n : Nat) (poisoned : Bool) (ext : Option (List Byte)) : s.hostReads off n poisoned errs ext =
    if poisoned = true then s.poisoned.sends (.completion .unmapped [])
    else (s.count 69 n).readAs .host (s.portReq .host (s.bar2At off.toNat)) n errs ext := if_neg (by simp [hopen])

end Bar2

/-! Requests of the shelf's controller (22 R456). -/
section Shelf
variable {s : State} {a : Dword} {n : Nat} {data : List Byte} {errs : List BurstErr} (hlight : s.dark = false)
include hlight

theorem State.shelfRequest_write_of_staging (hlow : 2 ^ 63 ≤ a.toNat) (hhigh : a.toNat + data.length ≤ 2 ^ 63 + 0x400000) :
    s.shelfRequest true a n data errs =
      { s.count 70 data.length with shelf := { s.shelf with staging := s.shelf.staging.write (a.toNat - 2 ^ 63) data } } := by
  simp only [State.shelfRequest, hlight, Bool.false_eq_true, if_true, if_false, if_pos (And.intro hlow hhigh)]
  rfl

theorem State.shelfRequest_read_of_staging (hlow : 2 ^ 63 ≤ a.toNat) (hhigh : a.toNat + n ≤ 2 ^ 63 + 0x400000) :
    s.shelfRequest false a n data errs = (s.count 71 n).sends (.completion .ok (s.shelf.staging.read (a.toNat - 2 ^ 63) n)) := by
  simp only [State.shelfRequest, hlight, Bool.false_eq_true, if_false, if_pos (And.intro hlow hhigh)]
  rfl

theorem State.shelfRequest_write_of_device (h : a.toNat + data.length ≤ 2 ^ 48) :
    s.shelfRequest true a n data errs = (s.count 70 data.length).writeAs .shelf (s.portReq .shelf a.toNat) 0xFF data errs := by
  have hout : ¬ (2 ^ 63 ≤ a.toNat ∧ a.toNat + data.length ≤ 2 ^ 63 + 0x400000) := by omega
  simp only [State.shelfRequest, hlight, Bool.false_eq_true, if_true, if_false, if_neg hout, if_pos h]
  rfl

theorem State.shelfRequest_read_of_device (h : a.toNat + n ≤ 2 ^ 48) :
    s.shelfRequest false a n data errs = (s.count 71 n).readAs .shelf (s.portReq .shelf a.toNat) n errs := by
  have hout : ¬ (2 ^ 63 ≤ a.toNat ∧ a.toNat + n ≤ 2 ^ 63 + 0x400000) := by omega
  simp only [State.shelfRequest, hlight, Bool.false_eq_true, if_false, if_neg hout, if_pos h]
  rfl

end Shelf

/-- Settles O32: what an open BAR2 and a request of the shelf do, and what waited behind a stop goes on. -/
theorem hostAndShelfReachMemory : Obligations.HostAndShelfReachMemory := by
  unfold Obligations.HostAndShelfReachMemory
  refine fun s errs => ⟨fun off hopen => ?_, fun a n data hlight => ?_⟩
  · have writes := fun data p => congrArg (fun u : State => ok u.replayed) (State.hostWrites_of_open (errs := errs) hopen data p)
    have reads := fun n p ext => congrArg ok (State.hostReads_of_open (errs := errs) hopen n p ext)
    exact ⟨fun data => writes data false, fun data => writes data true, fun n ext => reads n false ext, fun n => reads n true none⟩
  · exact ⟨fun hl hh => congrArg (fun u : State => ok u.replayed) (State.shelfRequest_write_of_staging hlight hl hh),
      fun hl hh => congrArg (fun u : State => ok u.replayed) (State.shelfRequest_read_of_staging hlight hl hh),
      fun h => congrArg (fun u : State => ok u.replayed) (State.shelfRequest_write_of_device hlight h),
      fun h => congrArg (fun u : State => ok u.replayed) (State.shelfRequest_read_of_device hlight h)⟩

end Sys2Proof.Machine
end

section
/-! BAR4, configuration requests, the host link and the shelf port (22 R449, R451 to R459), and O57. -/

namespace Sys2Proof.Machine

/-! BAR4 (22 R449, R452). -/
section Bar4
variable {s : State} {off : BitVec 41} {errs : List BurstErr} (hlink : s.linkUp = true) (hlight : s.dark = false)
include hlink hlight

theorem exec_hostMemRead_bar4 (n : Nat) (poisoned : Bool) (ext : Option (List Byte)) : exec (.hostMemRead off n poisoned errs .bar4 ext) s = .next
    (if poisoned = true then s.poisoned.sends (.completion .unmapped [])
     else s.sends (.completion .ok ((List.range n).map (fun k => s.pcie.msixByte (off.toNat + k))))) :=
  (if_neg (by simp [hlink, hlight])).trans (apply_ite ok ..).symm

theorem exec_hostMemWrite_bar4 (data : List Byte) (poisoned : Bool) : exec (.hostMemWrite off data poisoned errs .bar4) s = .next
    (if poisoned = true then s.poisoned else s.msixWrites off.toNat data) :=
  (if_neg (by simp [hlink, hlight])).trans (apply_ite ok ..).symm

end Bar4

/-! A byte of the MSI-X table written (22 R452). -/
section MsixPut
variable {s : State} {o : Nat} {b : Byte}

theorem State.msixPut_of_outside (h : 0x8000 ≤ o ∨ 12 < o % 16) : s.msixPut o b = s := if_pos h

theorem State.msixPut_of_unmask (hlow : o < 0x8000) (hctl : o % 16 = 12) (h : b.toNat % 2 = 0) : s.msixPut o b = s.unmaskVector (o / 16) :=
  (if_neg (by omega)).trans ((if_pos hctl).trans (if_pos h))

theorem State.msixPut_of_mask (hlow : o < 0x8000) (hctl : o % 16 = 12) (h : b.toNat % 2 = 1) :
    s.msixPut o b = { s with pcie := { s.pcie with unmasked := s.pcie.unmasked.filter (· != o / 16) } } :=
  (if_neg (by omega)).trans ((if_pos hctl).trans (if_neg (by omega)))

theorem State.msixPut_of_message (hlow : o < 0x8000) (h : o % 16 < 12) :
    s.msixPut o b = { s with pcie := { s.pcie with table := s.pcie.table.write o [b] } } :=
  (if_neg (by omega)).trans (if_neg (by omega))

end MsixPut

/-! Configuration requests (22 R449, R454). -/
section Config
variable {s : State} {off : BitVec 41} {errs : List BurstErr} {sp : HostSpace} (h2 : sp ≠ .bar2) (h4 : sp ≠ .bar4)
include h2 h4

theorem exec_hostMemRead_config (n : Nat) (poisoned : Bool) (ext : Option (List Byte)) : exec (.hostMemRead off n poisoned errs sp ext) s =
    if (s.configOpen && s.beforeFuses) = true then ok (s.sends .retryStatus)
    else if (!s.linkUp) = true then ok s
    else if poisoned = true then ok (s.poisoned.sends (.completion .unmapped []))
    else ok (s.sends (.completion .ok (s.configRead off.toNat n sp))) := by
  cases sp with
  | bar2 => exact absurd rfl h2
  | bar4 => exact absurd rfl h4
  | _ => rfl

theorem exec_hostMemWrite_config (data : List Byte) (poisoned : Bool) : exec (.hostMemWrite off data poisoned errs sp) s =
    if (s.configOpen && s.beforeFuses) = true then ok (s.sends .retryStatus)
    else if (!s.linkUp) = true then ok s
    else if poisoned = true then ok s.poisoned
    else ok (s.configWrite data sp) := by
  cases sp with
  | bar2 => exact absurd rfl h2
  | bar4 => exact absurd rfl h4
  | _ => rfl

section Trained
variable (hready : (s.configOpen && s.beforeFuses) = false) (hlink : s.linkUp = true)
include hready hlink

theorem exec_hostMemRead_config_of_up (n : Nat) (ext : Option (List Byte)) :
    exec (.hostMemRead off n false errs sp ext) s = .next (s.sends (.completion .ok (s.configRead off.toNat n sp))) :=
  (exec_hostMemRead_config h2 h4 n false ext).trans ((if_neg (by simp only [hready, Bool.false_eq_true, not_false_eq_true])).trans (if_neg (by simp [hlink])))

theorem exec_hostMemWrite_config_of_up (data : List Byte) (poisoned : Bool) : exec (.hostMemWrite off data poisoned errs sp) s =
    if poisoned = true then ok s.poisoned else ok (s.configWrite data sp) :=
  (exec_hostMemWrite_config h2 h4 data poisoned).trans ((if_neg (by simp only [hready, Bool.false_eq_true, not_false_eq_true])).trans (if_neg (by simp [hlink])))

end Trained

end Config

/-! MSIX_UNMASK (22 R452). -/
section Unmask
variable {s : State} {v : Nat}

/-- The state once vector `v` is unmasked. -/
def State.vectorOpen (s : State) (v : Nat) : State :=
  { s with pcie := { s.pcie with unmasked := if s.pcie.unmasked.contains v then s.pcie.unmasked else s.pcie.unmasked ++ [v],
                                 waiting := s.pcie.waiting.filter (· != v) } }

theorem State.vectorOpen_unmasked (s : State) (v : Nat) : (s.vectorOpen v).pcie.unmasked.contains v = true := by
  by_cases h : s.pcie.unmasked.contains v = true
  · simpa only [State.vectorOpen, if_pos h] using h
  · simp only [State.vectorOpen, if_neg h, List.contains_append, List.contains_cons, beq_self_eq_true, Bool.true_or, Bool.or_true]

theorem State.unmaskVector_of_quiet (h : s.pcie.waiting.contains v = false) : s.unmaskVector v = s.vectorOpen v :=
  if_neg (Bool.not_eq_true _ ▸ h)

/-- A pending message is sent while the link is up and no service pause runs. -/
theorem State.unmaskVector_of_pending (hlink : s.linkUp = true) (hgo : s.fw.active = false) (h : s.pcie.waiting.contains v = true) :
    s.unmaskVector v = (s.vectorOpen v).sends (.msix v) := by
  have hlink' : (s.vectorOpen v).linkUp = true := hlink
  have hgo' : (s.vectorOpen v).fw.active = false := hgo
  refine (if_pos h).trans ?_
  show (s.vectorOpen v).msix v = _
  simp only [State.msix, s.vectorOpen_unmasked v, hlink', hgo', Bool.not_true, Bool.not_false, Bool.and_self, Bool.false_eq_true, if_false, if_true]

end Unmask

theorem exec_msixUnmask_of_up {s : State} (v : Fin 2048) (hlink : s.linkUp = true) (hlight : s.dark = false) :
    exec (.msixUnmask v) s = .next (s.unmaskVector v) := if_neg (by simp [hlink, hlight])

/-! The shelf port (22 R455, R457, R458). -/
section ShelfPort
variable {s : State} {m : Master} (hlet : s.lets m shelfCtrl = true)
include hlet

theorem exec_shelfAttach_of_free {probe : ShelfProbe} (h : s.snap.job = none) : exec (.shelfAttach m probe) s = .next (s.shelfTake probe) :=
  congrArg ok ((State.guarded_of_lets _ hlet).trans (if_neg (by simp [h])))

theorem exec_shelfRelease_of_away (h : s.rd F.SHELF_STATUS_state ≠ 2) : exec (.shelfRelease m) s = .next s :=
  congrArg ok ((State.guarded_of_lets _ hlet).trans (if_pos h))

section Attached
variable (hst : s.rd F.SHELF_STATUS_state = 2)
include hst

theorem exec_shelfRelease_of_free (h : s.snap.job = none) :
    let c := s.nvmeDelete
    exec (.shelfRelease m) s = .next (({ c with shelf := { c.shelf with owned := false, cmdAt := none } } : State).wr F.SHELF_STATUS_state 3) :=
  congrArg ok ((State.guarded_of_lets _ hlet).trans ((if_neg (by omega)).trans (if_neg (by simp [h]))))

/-- A copy in progress ends with SHELF_IO (log 48). -/
theorem exec_shelfRelease_of_copy (h : s.snap.job ≠ none) :
    let c := s.nvmeDelete
    let b := ({ c with shelf := { c.shelf with owned := false, cmdAt := none } } : State).wr F.SHELF_STATUS_state 3
    exec (.shelfRelease m) s = .next
      ((({ b with snap := { b.snap with job := none } } : State).wr F.HUB_SNAP_SHELF_STATUS_state 2).shelfIo.shelfFree) :=
  congrArg ok ((State.guarded_of_lets _ hlet).trans ((if_neg (by omega)).trans (if_pos (Option.isSome_iff_ne_none.mpr h))))

end Attached

end ShelfPort

theorem exec_shelfHealthPoll_of_attached {s : State} {wear : BitVec 16} (hown : s.shelf.owned = true) (hst : s.rd F.SHELF_STATUS_state = 2)
    (good : Bool) : exec (.shelfHealthPoll wear good) s = .next
      (if good = true then s.nvmeHealth.wr F.SHELF_ERRS_wear wear.toNat else s.nvmeHealth.shelfFailed) := if_pos (by simp [hown, hst])

/-- Settles O57: one lemma for each kind of request of the host, for a vector, the link and the shelf port. -/
theorem hostLinkAndShelfPort : Obligations.HostLinkAndShelfPort := by
  unfold Obligations.HostLinkAndShelfPort
  refine fun s m => ⟨fun off errs hlink hlight => ⟨fun n ext => exec_hostMemRead_bar4 hlink hlight n false ext,
      fun n ext => exec_hostMemRead_bar4 hlink hlight n true ext,
      fun data => ⟨exec_hostMemWrite_bar4 hlink hlight data false, exec_hostMemWrite_bar4 hlink hlight data true⟩⟩,
    fun o b => ⟨State.msixPut_of_outside, fun hlow hctl => ⟨State.msixPut_of_unmask hlow hctl, State.msixPut_of_mask hlow hctl⟩,
      State.msixPut_of_message⟩, fun off errs sp h2 h4 => ⟨fun hopen hfuse n p ext data => ?_, fun hlate hlink n ext data =>
        have hready : (s.configOpen && s.beforeFuses) = false := by simpa only [Bool.and_eq_false_iff] using hlate
        ⟨exec_hostMemRead_config_of_up h2 h4 hready hlink n ext, exec_hostMemWrite_config_of_up h2 h4 hready hlink data false,
          exec_hostMemWrite_config_of_up h2 h4 hready hlink data true⟩⟩,
    fun off n data => ⟨rfl, rfl, rfl, fun h => if_pos h⟩, fun v hlink hlight => ?_, fun hlink => if_pos hlink, fun hdown hlight hperst =>
      if_neg (by simp [hdown, hlight, hperst]), fun hlet probe => ⟨exec_shelfAttach_of_free hlet, exec_shelfRelease_of_away hlet, fun hst =>
        ⟨exec_shelfRelease_of_free hlet hst, exec_shelfRelease_of_copy hlet hst⟩⟩,
    fun wear hown hst => ⟨exec_shelfHealthPoll_of_attached hown hst true, exec_shelfHealthPoll_of_attached hown hst false⟩⟩
  · have hearly : (s.configOpen && s.beforeFuses) = true := by simp [hopen, hfuse]
    exact ⟨(exec_hostMemRead_config h2 h4 n p ext).trans (if_pos hearly), (exec_hostMemWrite_config h2 h4 data p).trans (if_pos hearly)⟩
  · intro u s1
    exact ⟨fun h => (exec_msixUnmask_of_up v hlink hlight).trans (congrArg ok (State.unmaskVector_of_quiet h)),
      fun h hgo => (exec_msixUnmask_of_up v hlink hlight).trans (congrArg ok (State.unmaskVector_of_pending hlink hgo h))⟩

end Sys2Proof.Machine
end

section
/-! The I3C target (22 R460 to R462), and O58. -/

namespace Sys2Proof.Machine

/-- A transaction takes the interrupts that wait (log 49). -/
def State.i3cTaken (s : State) : State := { s with i3c := { s.i3c with wait := [] } }

theorem I3c.address_of_static {x : I3c} (h : x.addr = none) : x.address = 0x5D := by rw [I3c.address, h, Option.getD_none]
theorem I3c.address_of_dynamic {x : I3c} {n : Nat} (h : x.addr = some n) : x.address = n := by rw [I3c.address, h, Option.getD_some]

section Target
variable {s : State} (haux : s.pwr.aux = true)
include haux

theorem State.i3cDo_of_aux (f : State → State) : s.i3cDo f = f s.i3cTaken := if_pos haux

/-! The address (22 R460). -/

section Static
variable (hstatic : s.i3c.addr = none)
include hstatic

theorem exec_entdaa_of_static (x : BitVec 7) : exec (.entdaa x) s = .next
    { s.i3cTaken.sends (.i3c (beBytes 6 Config.i3cPid.toNat ++ [Config.i3cBcr, Config.i3cDcr])) with
      i3c := { s.i3cTaken.i3c with addr := some x.toNat } } :=
  congrArg ok ((State.i3cDo_of_aux haux _).trans (if_neg (by simp [State.i3cTaken, hstatic])))

theorem exec_setdasa_of_static (x : BitVec 7) :
    exec (.setdasa x 0x5D) s = .next { s.i3cTaken with i3c := { s.i3cTaken.i3c with addr := some x.toNat } } :=
  congrArg ok ((State.i3cDo_of_aux haux _).trans (if_neg (by simp [State.i3cTaken, hstatic, I3c.address])))

theorem exec_setdasa_of_other (x : BitVec 7) {y : BitVec 7} (hy : y ≠ 0x5D) : exec (.setdasa x y) s = .next s.i3cTaken := by
  refine congrArg ok ((State.i3cDo_of_aux haux _).trans (if_pos (Or.inr ?_)))
  rw [I3c.address_of_static (x := s.i3cTaken.i3c) hstatic]
  exact fun h => hy (BitVec.eq_of_toNat_eq h)

end Static

section Dynamic
variable (hdyn : s.i3c.addr ≠ none)
include hdyn

theorem exec_entdaa_of_dynamic (x : BitVec 7) : exec (.entdaa x) s = .next s.i3cTaken :=
  congrArg ok ((State.i3cDo_of_aux haux _).trans (if_pos (Option.isSome_iff_ne_none.mpr hdyn)))
theorem exec_setdasa_of_dynamic (x y : BitVec 7) : exec (.setdasa x y) s = .next s.i3cTaken :=
  congrArg ok ((State.i3cDo_of_aux haux _).trans (if_pos (Or.inl (Option.isSome_iff_ne_none.mpr hdyn))))

end Dynamic

/-! Private transfers (22 R461). -/

theorem State.i3cTo_of_other {y : BitVec 7} (h : y.toNat ≠ s.i3c.address) (f : State → State) : s.i3cTo (some y) f = s.i3cTaken :=
  (State.i3cDo_of_aux haux _).trans (if_neg h)

section Addressed
variable {target : Option (BitVec 7)} (htarget : target = none ∨ target = some (BitVec.ofNat 7 s.i3c.address)) (hlow : s.i3c.address < 128)
include htarget hlow

theorem State.i3cTo_of_target (f : State → State) : s.i3cTo target f = f s.i3cTaken := by
  refine (State.i3cDo_of_aux haux _).trans (if_pos ?_)
  rcases htarget with rfl | rfl
  · rfl
  · exact Nat.mod_eq_of_lt hlow

theorem exec_i3cPrivateWrite_of_long {b : List Byte} {i : StartIn} (h : s.i3c.mwl < b.length) :
    exec (.i3cPrivateWrite b i target) s = .next s.i3cTaken :=
  congrArg ok ((State.i3cTo_of_target haux htarget hlow _).trans (if_pos h))

theorem exec_i3cPrivateWrite_index {k : Byte} {i : StartIn} (h : 1 ≤ s.i3c.mwl) :
    exec (.i3cPrivateWrite [k] i target) s = .next { s.i3cTaken with i3c := { s.i3cTaken.i3c with index := k.toNat } } := by
  have hk : le [k] 0 1 = k.toNat := by simp [le, sub, leNat]
  refine congrArg ok ((State.i3cTo_of_target haux htarget hlow _).trans ((if_neg (Nat.not_lt.mpr h)).trans ((if_pos rfl).trans ?_)))
  rw [hk]

section Start
variable {b : List Byte} {i : StartIn} (hmax : 9 ≤ s.i3c.mwl) (hlight : s.dark = false) (hlen : b.length = 9) (hctl : le b 0 1 = 0x40)
include hmax hlight hlen hctl

/-- Nine bytes to PWR_CTRL: its operation. -/
theorem exec_i3cPrivateWrite_ctrl : exec (.i3cPrivateWrite b i target) s = .next
    (if le b 1 8 % 8 = 1 then (if s.i3cTaken.pwrSt = 3 then s.i3cTaken else s.i3cTaken.startIf true i)
     else if le b 1 8 % 8 = 2 then s.i3cTaken.coldStart i else s.i3cTaken) := by
  have hlong : ¬ s.i3cTaken.i3c.mwl < b.length := by rw [hlen]; exact Nat.not_lt.mpr hmax
  exact congrArg ok ((State.i3cTo_of_target haux htarget hlow _).trans ((if_neg hlong).trans ((if_neg (by omega)).trans
    (if_pos ⟨hlen, hctl, hlight⟩))))

variable (hst : s.pwrSt ≠ 3) (hpower : s.powered = true)
include hst hpower

theorem exec_i3cPrivateWrite_warmStart (hop : le b 1 8 % 8 = 1) : exec (.i3cPrivateWrite b i target) s = .next (s.i3cTaken.startUp true i) :=
  (exec_i3cPrivateWrite_ctrl haux htarget hlow hmax hlight hlen hctl).trans
    (congrArg ok ((if_pos hop).trans ((if_neg hst).trans (if_pos hpower))))

theorem exec_i3cPrivateWrite_coldStart (hop : le b 1 8 % 8 = 2) : exec (.i3cPrivateWrite b i target) s = .next (s.i3cTaken.startUp false i) := by
  have hcold : s.i3cTaken.coldStart i = s.i3cTaken.startIf false i := congrArg (fun u : State => u.startIf false i) (if_neg hst)
  exact (exec_i3cPrivateWrite_ctrl haux htarget hlow hmax hlight hlen hctl).trans
    (congrArg ok ((if_neg (by omega)).trans ((if_pos hop).trans (hcold.trans (if_pos hpower)))))

end Start

theorem exec_i3cPrivateRead_of_unknown (h : i3cItem s.i3c.index = none) :
    exec (.i3cPrivateRead target) s = .next (s.i3cTaken.sends (.i3c (allOnes 8))) := by
  have hitem : i3cItem s.i3cTaken.i3c.index = none := h
  refine congrArg ok ((State.i3cTo_of_target haux htarget hlow _).trans ?_)
  simp only [hitem, ite_self]

theorem exec_i3cPrivateRead_of_item {o : Nat} (h : i3cItem s.i3c.index = some o) (hon : s.pwr.off = false ∨ s.i3c.index ≤ 1) :
    exec (.i3cPrivateRead target) s = .next (if s.i3c.index = 3 then (s.i3cTaken.sends (.i3c (s.i3cTaken.regRead .cpc o 8))).budgetRead
      else s.i3cTaken.sends (.i3c (s.i3cTaken.regRead .cpc o 8))) := by
  have hask : ¬ (s.i3cTaken.pwr.off && decide (1 < s.i3cTaken.i3c.index)) = true := by
    rw [Bool.and_eq_true, decide_eq_true_iff]
    rintro ⟨hoff, hk⟩
    rcases hon with hon | hon
    · exact absurd (hon.symm.trans hoff) Bool.false_ne_true
    · exact absurd hk (Nat.not_lt.mpr hon)
  have hitem : i3cItem s.i3cTaken.i3c.index = some o := h
  refine congrArg ok ((State.i3cTo_of_target haux htarget hlow _).trans ?_)
  simp only [if_neg hask, hitem]
  rfl

end Addressed

end Target

/-- Settles O58: every common command code with the interrupts taken, and one lemma for each kind of private transfer. -/
theorem theSidebandAnswers : Obligations.TheSidebandAnswers := by
  unfold Obligations.TheSidebandAnswers
  intro s haux a
  have ccc := fun f => congrArg ok (State.i3cDo_of_aux haux f)
  refine ⟨fun x hstatic => ⟨exec_entdaa_of_static haux hstatic x, exec_setdasa_of_static haux hstatic x,
      fun y => exec_setdasa_of_other haux hstatic x⟩, fun x y hdyn => ⟨exec_entdaa_of_dynamic haux hdyn x, exec_setdasa_of_dynamic haux hdyn x y⟩,
    ccc _, ccc _, ccc _, ccc _, congrArg ok (State.i3cDo_of_aux (s := s.draw.2) haux _), ccc _, fun n => ccc _, ccc _, ccc _, fun c => ccc id,
    fun target htarget hlow => ⟨fun k i => exec_i3cPrivateWrite_index haux htarget hlow, fun b i => exec_i3cPrivateWrite_of_long haux htarget hlow,
      fun i hmax hlight hst hpower => ⟨?_, ?_⟩, exec_i3cPrivateRead_of_unknown haux htarget hlow,
      fun o => exec_i3cPrivateRead_of_item haux htarget hlow⟩,
    fun y b i hy => ⟨congrArg ok (State.i3cTo_of_other haux hy _), congrArg ok (State.i3cTo_of_other haux hy _)⟩,
    I3c.address_of_static, fun x => I3c.address_of_dynamic⟩
  · exact exec_i3cPrivateWrite_warmStart haux htarget hlow hmax hlight rfl (by decide) hst hpower (by decide)
  · exact exec_i3cPrivateWrite_coldStart haux htarget hlow hmax hlight rfl (by decide) hst hpower (by decide)

end Sys2Proof.Machine
end
